-- ==== Sys2Proof/Word.lean ====
section
/-!
DEFINITION. The word types of the machine and the plainest arithmetic on them.
-/

namespace Sys2Proof

/-- An x register, a special register or a memory word (R10). -/
abbrev Word := BitVec 64

/-- A generic address (R261). -/
abbrev Va := BitVec 57

/-- One byte of memory. -/
abbrev Byte := BitVec 8

/-- One lane of a vector register (R15). -/
abbrev Lane := BitVec 32

end Sys2Proof
end

