-- ==== Sys2Proof/Config.lean ====
section
/-!
DEFINITION. What the spec leaves open: free values, without a body, so that nothing can evaluate them or prove a value
of them, and the functions of the Lanrov controller's cryptography, which the spec names and does not define.
-/

namespace Sys2Proof.Config

/-- How many of the writes since its floor a read of the constant path does not yet see, where R179 and R80 leave it
open: the n-th free choice (log entry 5). -/
opaque freeOld : Nat → Nat

/-- Which of the two bytes an overlapping copy reads, where R238 allows either: the n-th free choice (log entry 5). -/
opaque freeOverlap : Nat → Bool

/-- The domain time stamp that orders tiles (R190) and the seconds and microseconds of the part: the n-th value read
(log entry 5). -/
opaque freeTime : Nat → Nat

/-- What ETVAL reports as the physical address of a marked line that has none: a line of a scratchpad, of cluster memory
or of the A-stage buffer (R13, R402; log entry 5). -/
opaque freeLine : Nat → BitVec 64

/-- Level, step and DONE of a block of another device as its descriptor was loaded there (R326), by the number of this
device's load, the other device and the index (log entry 5). -/
opaque remoteBlock : Nat → Nat → Nat → BitVec 32 × BitVec 32 × Bool

/-- A word that the spec names and does not state, such as the detail of a refusal (R365): the n-th one (log entry 5). -/
opaque freeWord : Nat → BitVec 64

/-- Which of the lines of a full cache gives way (R4, R270): the n-th free choice (log entry 57). -/
opaque freeVictim : Nat → Nat

/-- Which 64 KiB unit of a core's L1 holds a line (R257, R258), by core and line (log entry 57). -/
opaque freeUnit : Nat → Nat → Nat

/-- The source id that a line-watch unit records for a write that the device makes for itself, for which R286 has no KIND: the
n-th such write (log entry 5). -/
opaque freeSource : Nat → BitVec 64

/-- SHA-256 (R409, R410): the spec names the function and gives no definition of it (log entry 12). -/
opaque sha256 : List (BitVec 8) → List (BitVec 8)

/-- Whether an SLH-DSA-SHA2-128s signature over a digest verifies under the part's key (R409; log entry 12). -/
opaque verify : List (BitVec 8) → List (BitVec 8) → Bool

/-- The SLH-DSA-SHA2-128s signature of the attestation key over a digest (R410; log entry 12). -/
opaque sign : List (BitVec 8) → List (BitVec 8)

/-- The certificate of the attestation public key (R410; log entry 12). -/
opaque certificate : List (BitVec 8)

/-- The device serial number (R410; log entry 12). -/
opaque serial : Nat → BitVec 8

/-- Whether a wrapped link key unwraps, and into which key slot it goes (R408; log entry 12). -/
opaque unwrap : List (BitVec 8) → Option Nat

end Sys2Proof.Config
end

