-- ==== Sys2Proof/Machine/Tbl.lean ====
section
/-!
DEFINITION. Sparse tables: lists of key and value pairs in one canonical form, keys strictly rising and no entry equal
to the value that an unlisted key reads as. Registers by number, lanes, slots and memory are held in this form.
-/

namespace Sys2Proof

/-- A sparse table. -/
abbrev Tbl (α : Type) := List (Nat × α)

namespace Tbl

variable {α : Type}

/-- The value at a key; `d` is what an unlisted key reads as. -/
def get (d : α) : Tbl α → Nat → α
  | [], _ => d
  | (k, v) :: t, n => if k = n then v else get d t n

/-- The table without the entry of a key. -/
def erase : Tbl α → Nat → Tbl α
  | [], _ => []
  | (k, v) :: t, n => if k = n then erase t n else (k, v) :: erase t n

/-- The table with an entry added in its order. -/
def put : Tbl α → Nat → α → Tbl α
  | [], n, x => [(n, x)]
  | (k, v) :: t, n, x => if n < k then (n, x) :: (k, v) :: t else (k, v) :: put t n x

/-- A table with one entry changed; writing `d` removes the entry. -/
def set [DecidableEq α] (d : α) (t : Tbl α) (n : Nat) (x : α) : Tbl α :=
  if x = d then erase t n else put (erase t n) n x

/-- Keys strictly rise from above `lo`, and no entry equals `d`. -/
def wfFrom [DecidableEq α] (d : α) : Option Nat → Tbl α → Bool
  | _, [] => true
  | lo, (k, v) :: t =>
    (match lo with
      | none => true
      | some m => decide (m < k)) && decide (v ≠ d) && wfFrom d (some k) t

/-- The canonical form. -/
def wf [DecidableEq α] (d : α) (t : Tbl α) : Bool := wfFrom d none t

/-- The entries whose key lies in `lo` to `hi`, both included. -/
def range (t : Tbl α) (lo hi : Nat) : Tbl α := t.filter fun p => decide (lo ≤ p.1 ∧ p.1 ≤ hi)

/-- The table without the entries whose key lies in `lo` to `hi`. -/
def clear (t : Tbl α) (lo hi : Nat) : Tbl α := t.filter fun p => !decide (lo ≤ p.1 ∧ p.1 ≤ hi)

end Tbl

end Sys2Proof
end

