-- ==== Sys2Proof/Syntax.lean ====
section
/-!
DEFINITION. The instructions of Chrobipel and the events of the device as syntax: the operand blocks that decoding
pulls out of the words (spec 04, R81 to R93) and one constructor for each row of the opcode table.
-/

namespace Sys2Proof

/-- The fields of a short-form word other than its major and function code (R81). `imm` is laid out by R82. -/
structure Sh where
  rd : BitVec 6
  rs1 : BitVec 6
  rs2 : BitVec 6
  imm : BitVec 32
  deriving DecidableEq, Repr

/-- The fields of a short-form word of layout M (R82): cache code, scope, stream and signed byte offset. -/
structure ShM where
  rd : BitVec 6
  rs1 : BitVec 6
  rs2 : BitVec 6
  ch : BitVec 3
  scp : BitVec 3
  str : BitVec 4
  off : BitVec 20
  deriving DecidableEq, Repr

/-- The fields of bits [63:16] of a long-form or extended-form word (R83). -/
structure Low where
  d : BitVec 6
  a : BitVec 6
  b : BitVec 6
  c : BitVec 6
  e : BitVec 6
  g1 : BitVec 4
  g2 : BitVec 4
  ty : BitVec 3
  ch : BitVec 3
  yld : BitVec 1
  dly : BitVec 3
  deriving DecidableEq, Repr

/-- A long-form word with its immediate (R83). -/
structure Lg extends Low where
  imm : BitVec 32
  deriving DecidableEq, Repr

/-- A long-form memory instruction with its memory word (R88). -/
structure LgM extends Low where
  scp : BitVec 3
  str : BitVec 4
  off : BitVec 20
  deriving DecidableEq, Repr

/-- An extended-form word of the expression class (R89). -/
structure ExE extends Low where
  kbf : BitVec 16
  tok : BitVec 48
  deriving DecidableEq, Repr

/-- An extended-form word of the matrix class (R89). -/
structure ExM extends Low where
  acc : BitVec 2
  slot : BitVec 3
  mm1 : BitVec 10
  nm1 : BitVec 10
  kg : BitVec 11
  fmta : BitVec 4
  aoff : BitVec 6
  deriving DecidableEq, Repr

/-- An extended-form word of the copy class (R89). -/
structure ExC extends Low where
  val : BitVec 6
  cw : BitVec 1
  bar : BitVec 6
  be : BitVec 1
  fe : BitVec 1
  fol : BitVec 3
  str : BitVec 4
  ast : BitVec 1
  pool : BitVec 6
  ring : BitVec 6
  bsz : BitVec 4
  deriving DecidableEq, Repr

/-- An extended-form word whose tail holds one field from bit 64 upward (R89): TMASK, the `lvrd` selector or the
gateway immediate. -/
structure ExT extends Low where
  tail : BitVec 64
  deriving DecidableEq, Repr

/-- A posted store that reaches this device from a peer (R195 to R201): what the packet carries. -/
structure RemoteStore where
  dev : Nat
  core : Nat
  stream : Nat
  seq : BitVec 12
  va : BitVec 57
  bytes : List (BitVec 8)
  /-- Offsets within the bytes that the packet does not write: a vector store's line may have holes (R183). -/
  skip : List Nat
  /-- How many lines the tile has that starts with this one, 1 for a store of another kind (R188, R189). -/
  tile : Nat
  marker : Bool
  /-- The poison marks that travel with the bytes, 0 for none; empty where none is marked (R402). -/
  marks : List Nat := []
  /-- The age of its tile (R190). -/
  age : Nat := 0
  /-- The stores to host memory that it waits for, by their tile (R306). -/
  go : Option Nat := none
  deriving DecidableEq, Repr

/-- Which posted store a commit event is about: one of this package's, by number, or one that a peer sent. -/
inductive PostRef where
  | own (id : Nat)
  | peer (p : RemoteStore)
  deriving DecidableEq, Repr

/-- What a window access asks of its target (R266): a read of `n` bytes, a remote atomic of `fn` on a 64-bit word, or a
tile load of pieces within lines, read as one (R188, R189). -/
inductive RemoteOp where
  | read (n : Nat)
  | tile (age : Nat) (parts : List (BitVec 57 × Nat))
  | ramo (fn : Nat) (v : BitVec 64)
  deriving DecidableEq, Repr

/-- A window access that reaches this device from a peer. -/
structure RemoteReq where
  dev : Nat
  id : Nat
  va : BitVec 57
  op : RemoteOp
  deriving DecidableEq, Repr

/-- Which window access a gateway performs: one that this device addressed to itself, by number, or a peer's. -/
inductive ReqRef where
  | own (id : Nat)
  | peer (r : RemoteReq)
  deriving DecidableEq, Repr

/-- The bytes that a response carries, with their poison marks: 0 for none, and no list where none is marked (R194, R402). -/
structure Carried where
  bytes : List (BitVec 8)
  marks : List Nat
  deriving DecidableEq, Repr

/-- How the host takes a line: not at all, shared, or owned (R306, R307). -/
inductive HostTake where
  | none
  | shared
  | owned
  deriving DecidableEq, Repr

/-- A word taken apart into its form, major, function code and fields (R78, R81, R83, R89). -/
inductive Raw where
  | short (opc : BitVec 8) (fn : BitVec 4) (o : Sh)
  | long (opc : BitVec 8) (fn : BitVec 6) (o : Lg)
  | ext (opc : BitVec 8) (fn : BitVec 6) (lo : Low) (tail : BitVec 64)
  deriving DecidableEq, Repr

/-- One constructor for each row of the opcode table, in the table's order. The comment names the rule of the row. -/
inductive Instr where
  | nop (o : Sh)  -- R132
  | nopLong (o : Lg)  -- R132
  | nopExt (o : ExT)  -- R132
  | brk (o : Sh)  -- R132
  | trap (o : Sh)  -- R132
  | eret (o : Sh)  -- R29
  | hend (o : Sh)  -- R135
  | kfence (o : Sh)  -- R139
  | mfsr (o : Sh)  -- R128
  | mtsr (o : Sh)  -- R128
  | mtsrSr (o : Sh)  -- R130
  | mtsrCsplit (o : Sh)  -- R258
  | mtsrVgrp (o : Sh)  -- R259
  | mtsrMgstall (o : Sh)  -- R40
  | mtsrDridx (o : Sh)  -- R37
  | mtsrDrrpl (o : Sh)  -- R38
  | rid (o : Sh)  -- R131
  | hjoin (o : Sh)  -- R134
  | gaddr (o : Sh)  -- R138
  | hstart (o : Sh)  -- R133
  | hstartM (o : Sh)  -- R133
  | vclaim (o : Sh)  -- R137
  | vrenew (o : Sh)  -- R137
  | fmt (fmt : BitVec 4) (o : Sh)  -- R127
  | add (o : Sh)  -- R115
  | addImm (o : Sh)  -- R115
  | sub (o : Sh)  -- R115
  | subImm (o : Sh)  -- R115
  | and (o : Sh)  -- R115
  | andImm (o : Sh)  -- R115
  | or (o : Sh)  -- R115
  | orImm (o : Sh)  -- R115
  | xor (o : Sh)  -- R115
  | xorImm (o : Sh)  -- R115
  | shl (o : Sh)  -- R115
  | shlImm (o : Sh)  -- R115
  | shr (o : Sh)  -- R115
  | shrImm (o : Sh)  -- R115
  | sra (o : Sh)  -- R115
  | sraImm (o : Sh)  -- R115
  | mul (o : Sh)  -- R115
  | mulImm (o : Sh)  -- R115
  | mulh (o : Sh)  -- R115
  | mulhImm (o : Sh)  -- R115
  | mulhu (o : Sh)  -- R115
  | mulhuImm (o : Sh)  -- R115
  | div (o : Sh)  -- R45
  | divImm (o : Sh)  -- R45
  | divu (o : Sh)  -- R45
  | divuImm (o : Sh)  -- R45
  | rem (o : Sh)  -- R45
  | remImm (o : Sh)  -- R45
  | remu (o : Sh)  -- R45
  | remuImm (o : Sh)  -- R45
  | andn (o : Sh)  -- R115
  | andnImm (o : Sh)  -- R115
  | slt (o : Sh)  -- R116
  | sltImm (o : Sh)  -- R116
  | sltu (o : Sh)  -- R116
  | sltuImm (o : Sh)  -- R116
  | min (o : Sh)  -- R116
  | minImm (o : Sh)  -- R116
  | minu (o : Sh)  -- R116
  | minuImm (o : Sh)  -- R116
  | max (o : Sh)  -- R116
  | maxImm (o : Sh)  -- R116
  | maxu (o : Sh)  -- R116
  | maxuImm (o : Sh)  -- R116
  | addSat (o : Sh)  -- R116
  | addSatImm (o : Sh)  -- R116
  | subSat (o : Sh)  -- R116
  | subSatImm (o : Sh)  -- R116
  | adduSat (o : Sh)  -- R116
  | adduSatImm (o : Sh)  -- R116
  | subuSat (o : Sh)  -- R116
  | subuSatImm (o : Sh)  -- R116
  | mulSat (o : Sh)  -- R116
  | mulSatImm (o : Sh)  -- R116
  | muluSat (o : Sh)  -- R116
  | muluSatImm (o : Sh)  -- R116
  | rol (o : Sh)  -- R116
  | rolImm (o : Sh)  -- R116
  | ror (o : Sh)  -- R116
  | rorImm (o : Sh)  -- R116
  | guardedAluReg (fn : BitVec 6) (o : Lg)  -- R113
  | guardedAluImm (fn : BitVec 6) (o : Lg)  -- R113
  | guardedAlu2Reg (fn : BitVec 6) (o : Lg)  -- R113
  | guardedAlu2Imm (fn : BitVec 6) (o : Lg)  -- R113
  | pop (o : Sh)  -- R117
  | clz (o : Sh)  -- R117
  | ctz (o : Sh)  -- R117
  | brev (o : Sh)  -- R117
  | bswap (o : Sh)  -- R117
  | sext8 (o : Sh)  -- R117
  | sext16 (o : Sh)  -- R117
  | sext32 (o : Sh)  -- R117
  | zext8 (o : Sh)  -- R117
  | zext16 (o : Sh)  -- R117
  | zext32 (o : Sh)  -- R117
  | ext (o : Sh)  -- R118
  | extz (o : Sh)  -- R118
  | ins (o : Sh)  -- R118
  | movl (o : Sh)  -- R119
  | movh (o : Sh)  -- R119
  | beq (o : Sh)  -- R125
  | bne (o : Sh)  -- R125
  | blt (o : Sh)  -- R125
  | bge (o : Sh)  -- R125
  | bltu (o : Sh)  -- R125
  | bgeu (o : Sh)  -- R125
  | j (o : Sh)  -- R125
  | call (o : Sh)  -- R125
  | jr (o : Sh)  -- R125
  | callr (o : Sh)  -- R125
  | ld (fn : BitVec 4) (o : ShM)  -- R172
  | st (fn : BitVec 4) (o : ShM)  -- R172
  | guardedLd (fn : BitVec 6) (o : LgM)  -- R121
  | guardedSt (fn : BitVec 6) (o : LgM)  -- R121
  | ldk (fn : BitVec 4) (o : ShM)  -- R179
  | ldp (fn : BitVec 4) (o : ShM)  -- R180
  | lda (fn : BitVec 4) (o : ShM)  -- R176
  | stl (fn : BitVec 4) (o : ShM)  -- R176
  | fence (o : ShM)  -- R177
  | sts (fn : BitVec 4) (o : ShM)  -- R195
  | amoAdd (o : ShM)  -- R191
  | amoAnd (o : ShM)  -- R191
  | amoOr (o : ShM)  -- R191
  | amoXor (o : ShM)  -- R191
  | amoMin (o : ShM)  -- R191
  | amoMax (o : ShM)  -- R191
  | amoMinu (o : ShM)  -- R191
  | amoMaxu (o : ShM)  -- R191
  | amoSwap (o : ShM)  -- R191
  | amoFaddF64 (o : ShM)  -- R191
  | amoAddI32 (o : ShM)  -- R191
  | amoAndI32 (o : ShM)  -- R191
  | amoOrI32 (o : ShM)  -- R191
  | amoXorI32 (o : ShM)  -- R191
  | amoMinI32 (o : ShM)  -- R191
  | amoMaxI32 (o : ShM)  -- R191
  | amoMinuI32 (o : ShM)  -- R191
  | amoMaxuI32 (o : ShM)  -- R191
  | amoSwapI32 (o : ShM)  -- R191
  | amoFaddF32 (o : ShM)  -- R191
  | cas (o : ShM)  -- R191
  | casI32 (o : ShM)  -- R191
  | ramoAdd (o : ShM)  -- R192
  | ramoAnd (o : ShM)  -- R192
  | ramoOr (o : ShM)  -- R192
  | ramoXor (o : ShM)  -- R192
  | ramoMin (o : ShM)  -- R192
  | ramoMax (o : ShM)  -- R192
  | ramoMinu (o : ShM)  -- R192
  | ramoMaxu (o : ShM)  -- R192
  | ramoSwap (o : ShM)  -- R192
  | waitEq (o : ShM)  -- R203
  | waitNe (o : ShM)  -- R203
  | waitRetest (key : Nat)  -- R341
  | waitPoll (key : Nat)  -- R203
  | bar (o : Sh)  -- R211
  | bara (o : Sh)  -- R211
  | barw (o : Sh)  -- R211
  | bard (o : Sh)  -- R211
  | bardArrival (id : Nat)  -- R240
  | evw (o : Sh)  -- R209
  | evs (o : Sh)  -- R209
  | gatedLoadComplete (core : Nat)  -- R208
  | send (o : Sh)  -- R253
  | recv (o : Sh)  -- R254
  | role (o : Sh)  -- R252
  | gsize (o : Sh)  -- R252
  | grank (o : Sh)  -- R252
  | cinv (o : ShM)  -- R213
  | cwb (o : ShM)  -- R213
  | cpf (o : ShM)  -- R213
  | sfence (o : Sh)  -- R200
  | mark (o : Sh)  -- R201
  | markStamp (id stream : Nat)  -- R201
  | fadd (o : Sh)  -- R122
  | fsub (o : Sh)  -- R122
  | fmul (o : Sh)  -- R122
  | fdiv (o : Sh)  -- R122
  | fsqrt (o : Sh)  -- R122
  | fmin (o : Sh)  -- R122
  | fmax (o : Sh)  -- R122
  | feq (o : Sh)  -- R122
  | flt (o : Sh)  -- R122
  | fle (o : Sh)  -- R122
  | fneg (o : Sh)  -- R122
  | fabs (o : Sh)  -- R122
  | faddF32 (o : Sh)  -- R122
  | fsubF32 (o : Sh)  -- R122
  | fmulF32 (o : Sh)  -- R122
  | fdivF32 (o : Sh)  -- R122
  | fsqrtF32 (o : Sh)  -- R122
  | fminF32 (o : Sh)  -- R122
  | fmaxF32 (o : Sh)  -- R122
  | feqF32 (o : Sh)  -- R122
  | fltF32 (o : Sh)  -- R122
  | fleF32 (o : Sh)  -- R122
  | fnegF32 (o : Sh)  -- R122
  | fabsF32 (o : Sh)  -- R122
  | cvtF64I64 (o : Sh)  -- R124
  | cvtF64N64 (o : Sh)  -- R124
  | cvtI64F64 (o : Sh)  -- R124
  | cvtN64F64 (o : Sh)  -- R124
  | cvtF32I64 (o : Sh)  -- R124
  | cvtF32N64 (o : Sh)  -- R124
  | cvtI64F32 (o : Sh)  -- R124
  | cvtN64F32 (o : Sh)  -- R124
  | cvtF32F64 (o : Sh)  -- R124
  | cvtF64F32 (o : Sh)  -- R124
  | fma (o : Lg)  -- R123
  | mulWide (o : Lg)  -- R120
  | muluWide (o : Lg)  -- R120
  | csel (o : Lg)  -- R120
  | vaddInt (o : Lg)  -- R149
  | vsubInt (o : Lg)  -- R149
  | vmulInt (o : Lg)  -- R149
  | vmulh (o : Lg)  -- R149
  | vmulhu (o : Lg)  -- R149
  | vminInt (o : Lg)  -- R149
  | vminu (o : Lg)  -- R149
  | vmaxInt (o : Lg)  -- R149
  | vmaxu (o : Lg)  -- R149
  | vand (o : Lg)  -- R149
  | vor (o : Lg)  -- R149
  | vxor (o : Lg)  -- R149
  | vshl (o : Lg)  -- R149
  | vshr (o : Lg)  -- R149
  | vsra (o : Lg)  -- R149
  | vabsInt (o : Lg)  -- R149
  | vnegInt (o : Lg)  -- R149
  | vaddSat (o : Lg)  -- R149
  | vsubSat (o : Lg)  -- R149
  | vadduSat (o : Lg)  -- R149
  | vsubuSat (o : Lg)  -- R149
  | vpop (o : Lg)  -- R149
  | vclz (o : Lg)  -- R149
  | vaddF (o : Lg)  -- R150
  | vsubF (o : Lg)  -- R150
  | vmulF (o : Lg)  -- R150
  | vdiv (o : Lg)  -- R150
  | vsqrt (o : Lg)  -- R150
  | vminF (o : Lg)  -- R150
  | vmaxF (o : Lg)  -- R150
  | vabsF (o : Lg)  -- R150
  | vnegF (o : Lg)  -- R150
  | vfma (o : Lg)  -- R150
  | vfms (o : Lg)  -- R150
  | vfnma (o : Lg)  -- R150
  | vrcp (o : Lg)  -- R150
  | vrsqrt (o : Lg)  -- R150
  | vex2 (o : Lg)  -- R150
  | vlg2 (o : Lg)  -- R150
  | vcopysign (o : Lg)  -- R150
  | vcmpEq (o : Lg)  -- R151
  | vcmpNe (o : Lg)  -- R151
  | vcmpLt (o : Lg)  -- R151
  | vcmpLe (o : Lg)  -- R151
  | vcmpGt (o : Lg)  -- R151
  | vcmpGe (o : Lg)  -- R151
  | vcmpLtu (o : Lg)  -- R151
  | vcmpLeu (o : Lg)  -- R151
  | vcmpGtu (o : Lg)  -- R151
  | vcmpGeu (o : Lg)  -- R151
  | vsel (o : Lg)  -- R152
  | vmkl (o : Lg)  -- R153
  | vmpop (o : Lg)  -- R153
  | vbcast (o : Lg)  -- R154
  | vmov (o : Lg)  -- R154
  | vget (o : Lg)  -- R154
  | vput (o : Lg)  -- R154
  | vperm (o : Lg)  -- R155
  | vrot (o : Lg)  -- R155
  | vcompress (o : Lg)  -- R155
  | vexpand (o : Lg)  -- R155
  | vcvtF32I32 (o : Lg)  -- R156
  | vcvtF32N32 (o : Lg)  -- R156
  | vcvtI32F32 (o : Lg)  -- R156
  | vcvtN32F32 (o : Lg)  -- R156
  | vcvtF16F32 (o : Lg)  -- R156
  | vcvtBf16F32 (o : Lg)  -- R156
  | vcvtF32F16 (o : Lg)  -- R156
  | vcvtF32Bf16 (o : Lg)  -- R156
  | vcvtE4m3F32 (o : Lg)  -- R156
  | vcvtF32E4m3 (o : Lg)  -- R156
  | vcvtF64F32 (o : Lg)  -- R156
  | vcvtF32F64 (o : Lg)  -- R156
  | vcvtF64I32 (o : Lg)  -- R156
  | vcvtI32F64 (o : Lg)  -- R156
  | vcvtF16Bf16 (o : Lg)  -- R156
  | vcvtBf16F16 (o : Lg)  -- R156
  | vredAdd (o : Lg)  -- R158
  | vredMin (o : Lg)  -- R158
  | vredMax (o : Lg)  -- R158
  | vredAnd (o : Lg)  -- R158
  | vredOr (o : Lg)  -- R158
  | vredXor (o : Lg)  -- R158
  | vredMinu (o : Lg)  -- R158
  | vredMaxu (o : Lg)  -- R158
  | vscanAdd (o : Lg)  -- R158
  | vscanMin (o : Lg)  -- R158
  | vscanMax (o : Lg)  -- R158
  | vexpr (o : ExE)  -- R161
  | vqsh (o : LgM)  -- R164
  | vdqsh (o : LgM)  -- R165
  | vbaq (o : LgM)  -- R166
  | vld (o : LgM)  -- R182
  | vlds (o : LgM)  -- R182
  | vgather (o : LgM)  -- R182
  | vldw (o : LgM)  -- R185
  | vldl (o : LgM)  -- R184
  | vst (o : LgM)  -- R182
  | vsts (o : LgM)  -- R182
  | vscatter (o : LgM)  -- R182
  | vstl (o : LgM)  -- R184
  | vectorRetire (key : Nat)  -- R140
  | tld (o : LgM)  -- R188
  | tst (o : LgM)  -- R188
  | tldSplit (o : LgM)  -- R188
  | tstSplit (o : LgM)  -- R188
  | tileLineGrant (key : Nat)  -- R190
  | ldsum (o : LgM)  -- R202
  | mclaim (o : ExT)  -- R219
  | mrel (o : ExT)  -- R219
  | macz (o : ExT)  -- R220
  | mld (o : ExM)  -- R222
  | wload (o : ExM)  -- R224
  | mma (o : ExM)  -- R226
  | mseq (o : ExM)  -- R229
  | matrixQueueEntry (cl : Nat)  -- R215
  | matrixStep (cl : Nat)  -- R234
  | mseqStep (cl : Nat)  -- R229
  | macrd (o : ExM)  -- R231
  | macwr (o : ExM)  -- R232
  | mfol (o : ExM)  -- R233
  | cpy (o : ExC)  -- R238
  | cpyq (o : ExT)  -- R243
  | cpyt (o : ExC)  -- R245
  | cpytCow (o : ExC)  -- R246
  | copyLine (id : Nat)  -- R239
  | copyComplete (id : Nat)  -- R239
  | lvrd (o : ExT)  -- R249
  | lvnb (o : ExT)  -- R250
  | lvnext (o : ExT)  -- R251
  | gwqTake (o : ExT)  -- R255
  | gwqCount (o : ExT)  -- R255
  | trapEntry (key : Nat)  -- R27
  | rollback (key : Nat)  -- R394
  | yieldExpiry (key : Nat)  -- R87
  | delayExpiry (key : Nat)  -- R87
  | migrationCheck (core : Nat)  -- R317
  | helperArrival (key : Nat)  -- R317
  | streamSend (id : Nat)  -- R196
  | streamCommit (p : PostRef)  -- R197
  | streamAck (id : Nat)  -- R196
  | windowAccessAtTarget (r : ReqRef)  -- R277
  | windowResponse (id dev : Nat) (ok : Bool) (data : Carried)  -- R194
  | fenceTimeout (dev : Nat)  -- R397
  | routeLossTimeout (dev : Nat)  -- R397
  | blockDispatch (l die : Nat)  -- R328
  | levelNotice (dev index : Nat) (level step : BitVec 32) (done : Bool)  -- R310
  | levelStall (l die : Nat)  -- R330
  | graphNode (l node : Nat)  -- R334
  | gatewayBlockReady (core blk dev : Nat)  -- R336
  | rds (die line : Nat)  -- R272
  | rdx (die line : Nat)  -- R272
  | upg (die line : Nat)  -- R272
  | wb (die line : Nat)  -- R272
  | fwds (die line : Nat)  -- R272
  | fwdx (die line : Nat)  -- R272
  | inv (die line : Nat)  -- R272
  | invack (die line : Nat)  -- R272
  | data (die line : Nat)  -- R272
  | binv (die line : Nat)  -- R274
  | binvack (die line : Nat)  -- R274
  | snoopTimeout (die peer : Nat)  -- R400
  | linkRetrainDone (die peer : Nat) (ok : Bool)  -- R400
  | linkIdleSleep (die peer : Nat)  -- R399
  | linkWake (die peer : Nat)  -- R400
  | memrd (pa : Nat) (take : HostTake)  -- R307
  | memwr (pa : Nat) (bytes : List (BitVec 8))  -- R307
  | meminv (pa : Nat) (bytes : List (BitVec 8))  -- R307
  | birsp (pa : Nat) (bytes : List (BitVec 8))  -- R307
  | cxlGo (id : Nat)  -- R306
  | qtailWrite (q : Nat) (v : BitVec 64)  -- R356
  | qctlWrite (q : Nat) (v : BitVec 64)  -- R355
  | queuePromotion (q : Nat)  -- R358
  | queueEntryStart  -- R358
  | launch (l : Nat)  -- R361
  | launchEnd (l : Nat)  -- R322
  | graph (q : Nat)  -- R364
  | copy (q : Nat)  -- R364
  | eventSignal (q : Nat)  -- R364
  | eventWait (q : Nat)  -- R364
  | vacate (q : Nat)  -- R378
  | switchOut (q : Nat)  -- R372
  | switchIn (q : Nat)  -- R376
  | tlbiAll (v : BitVec 64)  -- R369
  | tlbiAsid (v : BitVec 64)  -- R369
  | tlbiPageAsid (v : BitVec 64)  -- R369
  | tlbiPageAll (v : BitVec 64)  -- R369
  | tlbiDone  -- R369
  | migrate (m : Nat) (v : BitVec 64)  -- R371
  | migrationDone (m : Nat)  -- R371
  | mgovWrite (cl : Nat) (v : BitVec 64)  -- R234
  | lwctlWrite (die u : Nat) (v : BitVec 64)  -- R285
  | lwcntClear (die u : Nat) (v : BitVec 64)  -- R284
  | sliceCounterClear (die sl reg : Nat) (v : BitVec 64)  -- R348
  | gwrxWrite (core : Nat) (v : BitVec 64)  -- R337
  | ctvecWrite (core : Nat) (v : BitVec 64)  -- R384
  | plsetWrite (n : Nat) (v : BitVec 64)  -- R198
  | plostClear (n : Nat) (v : BitVec 64)  -- R398
  | portWrite (p : Nat) (v : BitVec 64)  -- R381
  | rmaddWrite (v : BitVec 64)  -- R405
  | lmAttest  -- R410
  | lmStageFirmware  -- R409
  | lmInstallLinkKey  -- R408
  | lmWriteCert  -- R410
  | lmUnknownCommand (v : BitVec 64)  -- R408
  | registerWrite (off : Nat) (v : BitVec 64)  -- R352
  | eccCorrected (unit : BitVec 32) (pa t : Nat)  -- R403
  | eccUncorrectable (unit : BitVec 32) (place n t : Nat)  -- R403
  | retire (unit : BitVec 32) (t : Nat)  -- R406
  | packageReset  -- R198
  | powerLoss  -- R403
  | illegalOpcode  -- R98
  | hostSnoop (pa : Nat) (take : HostTake)  -- R306
  | portTrained (p : Nat)  -- R380
  | portLinkDown (p : Nat)  -- R397
  | gwqTakeTimeout (key : Nat)  -- R255
  | hostResume (l : Nat)  -- R330
  deriving DecidableEq, Repr

end Sys2Proof
end

