-- ==== Sys2Proof/Machine/State.lean ====
section
/-!
DEFINITION. The state of one package, as plain data: what the spec gives the machine (INVENTORY.md lists it with its
rules), the model's own counters, and the state after reset.
-/

namespace Sys2Proof.Machine

open Sys2Proof

/-- Why a step cannot go on at all. No meaning of this model ends in a fault: a trap of the hardware is a next state. -/
inductive Fault where
  /-- Raised by nobody: the spec gives every failing access a trap or an effect (safe). -/
  | none
  deriving DecidableEq, Repr

/-- Why an instruction or an event has no meaning in a state (DEDUCED, log entry 53). -/
inductive Refusal where
  /-- Raised by the arm of an instruction that has no meaning yet (safe). -/
  | notModelled (mnemonic : String)
  /-- Raised by `exec` of an encoded instruction where the context named by `cur` is not one that may issue: the
  hardware issues nothing there, so there is no step to describe (R311, R314; safe). -/
  | noContext
  /-- Raised by an event whose condition does not hold in the state: the event cannot happen there (safe). -/
  | notEnabled
  deriving DecidableEq, Repr

/-- The states of a context slot (R311). -/
inductive CtxState where
  | free
  | ready
  | held
  | sleeping
  | gated
  | migrating
  | absent
  deriving DecidableEq, Repr

/-- The kinds of trap (R30 to R33). -/
inductive TrapKind where
  | precise
  | after
  | imprecise
  | async
  deriving DecidableEq, Repr

/-- A trap: its kind, cause (R42), and what the trap registers receive. -/
structure Trap where
  kind : TrapKind
  code : BitVec 8
  sub : BitVec 8
  val : Word
  seq : BitVec 16
  tag : Bool
  /-- The place of the bytes, or the generic address, that a report names (R365). -/
  at' : Va
  /-- The address of the instruction whose access matched a watchpoint, where it has been left behind (R28). -/
  pc : Option Va := none
  deriving DecidableEq, Repr

/-- What a Held or Sleeping context waits for (R311, R413). -/
inductive Wait where
  | none
  /-- The instruction is tried again when the context is next chosen: a resource, `recv`, `hjoin`, `barw`, `send`, ... -/
  | again
  /-- `wait.eq` or `wait.ne` on a word (R203, R341): the address, the value, whether it must differ, and the scope. -/
  | word (va : Va) (v : Word) (ne : Bool) (scope : Nat)
  /-- A unit completes the instruction: the event unit or a window response. -/
  | unit
  /-- A `gwq` take that waits for a block up to a clock, its destination and its hints (R87, R255). -/
  | gateway (rd : BitVec 6) (until' : Nat) (yld : Bool) (dly : Nat)
  /-- An `eret` that waits for the lanes spilled at the entry of its trap (R20). -/
  | reclaim
  /-- A gating load that the trap of another context of its core has abandoned: it runs again after the `eret` of that one
  (R208). -/
  | handler (key : Nat)
  /-- A yield hint and an issue-delay hint of n clocks (R87). -/
  | hint (yld : Bool) (n : Nat)
  deriving DecidableEq, Repr

/-- How an instruction that a unit completes goes on: its length in bytes, and its hints YLD and DLY (R87). -/
structure Advance where
  len : Nat
  yld : Bool := false
  dly : Nat := 0
  deriving DecidableEq, Repr

/-- A dispatched vector or matrix instruction: its class, function code and fields. `acted` stands for one that acted
when it was dispatched (R215), or that a replay refused (R38): whether it is a matrix instruction, the register that its
ring entry records, 0 for none, and the fault it met there. -/
inductive VOp where
  | int (fn : Nat) (o : Lg)
  | float (fn : Nat) (o : Lg)
  | cmp (fn : Nat) (o : Lg)
  | misc (fn : Nat) (o : Lg)
  | perm (fn : Nat) (o : Lg)
  | cvt (fn : Nat) (o : Lg)
  | red (fn : Nat) (o : Lg)
  | expr (o : ExE)
  | quant (fn : Nat) (o : LgM)
  | load (fn : Nat) (o : LgM)
  | store (fn : Nat) (o : LgM)
  | macz (o : ExT)
  | mld (o : ExM)
  | wload (o : ExM)
  | mma (o : ExM)
  | mseq (o : ExM)
  | macrd (o : ExM)
  | macwr (o : ExM)
  | acted (mx : Bool) (ra : Nat) (fault : Option Trap)
  deriving DecidableEq, Repr

/-- An entry of the dispatch ring (R36, R37). -/
structure RingEnt where
  used : Bool := false
  seq : BitVec 16 := 0
  pc : Va := 0
  w : BitVec 128 := 0
  dra : Word := 0
  drb : Word := 0
  pfxp : Bool := false
  pfxv : BitVec 14 := 0
  can : Bool := false
  flt : Bool := false
  done : Bool := false
  deriving DecidableEq, Repr

/-- A vector or matrix instruction in flight: what it read when it was dispatched (R141, R217). `dra` and `drb` are the
operands that its ring entry records (R36), `grant` the lane groups that the context held then (R15), and `hit` the
watchpoint that its fetch matched (R283). -/
structure Pend where
  seq : BitVec 16
  op : VOp
  pc : Va
  w : BitVec 128
  dra : Word
  drb : Word
  x : Tbl Word
  pfx : Option Word
  priv : Nat
  /-- It stands in the cluster's matrix queue (R215). -/
  queued : Bool
  /-- The window request that its lanes wait for (R183). -/
  req : Option Nat
  grant : Nat := 0
  hit : Option (Nat × Va) := none
  /-- The lines that its load has asked its die's slices for (R346). -/
  asked : List Nat := []
  /-- The line whose request the mesh does not take yet, so that the core's vector memory unit waits (R346). -/
  stuck : Option Nat := none
  deriving DecidableEq, Repr

/-- A rollback team member's checkpoint (R390). -/
structure Check where
  pc : Va
  x : Tbl Word
  xp : Tbl Nat
  sr : Word
  pfx : Word
  arrivals : Nat
  deriving DecidableEq, Repr

/-- How a context stands (R133, R328, R374). -/
inductive Standing where
  | helper
  | control
  | level
  deriving DecidableEq, Repr

/-- One context slot (R9, R311) (DESIGN CHOICE, log entry 2). -/
structure Ctx where
  st : CtxState := .free
  pc : Va := 0
  x : Tbl Word := []
  xp : Tbl Nat := []
  v : Tbl Lane := []
  vp : Tbl Nat := []
  sl : Tbl Byte := []
  /-- The poison marks of the lane-private slices' bytes (R402). -/
  slp : Tbl Nat := []
  sr : Word := 0
  pfx : Word := 0
  epc : Va := 0
  ecause : Word := 0
  etval : Word := 0
  esr : Word := 0
  ring : Tbl RingEnt := []
  drseq : BitVec 16 := 0
  dridx : BitVec 16 := 0
  replay : List RingEnt := []
  pend : List Pend := []
  due : List Trap := []
  grant : Nat := 0
  request : Nat := 0
  reserved : Nat := 0
  waitSince : Option Nat := none
  spilled : Nat := 0
  gdim : List Word := []
  org : List Word := []
  ext : List Word := []
  grp : List Nat := []
  blk : Option Nat := none
  lvl : BitVec 32 := 0
  stp : BitVec 32 := 0
  inUpdate : Bool := false
  standing : Standing := .helper
  owner : Option Nat := none
  number : Nat := 0
  homeCore : Nat := 0
  launch : Nat := 0
  pslot : Nat := 0
  home : Option Nat := none
  mail : List Word := []
  wait : Wait := .none
  barred : Option (Nat × Nat) := none
  moving : Option Nat := none
  lastIssue : Nat := 0
  lastMove : Option Nat := none
  saved : CtxState := .free
  check : Option Check := none
  rolling : Bool := false
  kview : Tbl Nat := []
  acq : Nat := 0
  kfloor : Nat := 0
  imageOf : Option Nat := none
  /-- The lanes that its trap removes are spilled once the instructions in flight are done (R20). -/
  spillDue : Bool := false
  /-- The number of lane groups below those that its trap removed (R20). -/
  spillBase : Nat := 0
  /-- The first number that the `eret` under way has given to a replayed instruction (R38). -/
  replayFrom : Option (BitVec 16) := none
  /-- The phases that `barw` waits for, each the same when it runs again: the privilege and the address of the `barw`, its
  launch group and the phase (R211, R413). -/
  barw : List (Nat × Va × Nat × Nat) := []
  /-- Its trap has started a rollback of its team that has not been made (R394). -/
  rollDue : Bool := false
  /-- It runs its handler after a rollback of its team, which a fault of it does not start again (R394). -/
  rolled : Bool := false
  /-- The watchpoint that the fetch of the instruction under way matched (R283). -/
  fetched : Option (Nat × Va) := none
  /-- How many writes had been made when its `wait` was last tested (R341). -/
  tested : Nat := 0
  /-- The vacated cores whose copy tags and follow-on commands it still names, the last one first (R379). -/
  origins : List Nat := []
  deriving DecidableEq, Repr

/-- A stream sequence counter: the next number and how many are unacknowledged (R14, R196). -/
structure Stream where
  next : BitVec 12 := 0
  unacked : Nat := 0
  deriving DecidableEq, Repr

/-- A follow-on command (R233): an `mma` with the offset read at its registration. -/
structure Follow where
  o : ExM
  off : Word
  deriving DecidableEq, Repr

/-- A translation-cache entry (R367, R368): virtual page base, log₂ of its size, ASID, and the leaf. -/
structure TlbEnt where
  va : Nat
  size : Nat
  asid : Nat
  leaf : Word
  deriving DecidableEq, Repr

/-- A walk-cache entry (R385): level, ASID, VA tag, and the next table. -/
structure WalkEnt where
  level : Nat
  asid : Nat
  tag : Nat
  table : Nat
  deriving DecidableEq, Repr

/-- A core's own state (R9, R40, R282, R335, R384) (DESIGN CHOICE, log entry 2). -/
structure Core where
  tvec : Word := 0
  split : BitVec 4 := 4
  last : Nat := 0
  tag : BitVec 16 := 0
  issued : Nat := 0
  copies : Tbl Nat := []
  follow : Tbl (Option Follow) := []
  streams : Tbl Stream := []
  waddr : Tbl Word := []
  wctl : Tbl Word := []
  gwrx : Word := 0
  gqueue : List Nat := []
  gready : Tbl Nat := []
  gcount : Tbl Nat := []
  gnext : Nat := 0
  /-- Blocks whose bytes are complete and that have not entered the queue, oldest first, each with the device that wrote its
  last byte (R336). -/
  gdone : List (Nat × Nat) := []
  rc : Tbl (List Byte) := []
  /-- The lines of the L1 (R270): 1 S, 2 E, 4 M. -/
  l1 : Tbl Nat := []
  gate : Option Nat := none
  dtlb : List TlbEnt := []
  stopped : Option Nat := none
  retired : Bool := false
  deriving DecidableEq, Repr

/-- A weight slot (R224). -/
structure Slot where
  full : Bool := false
  fmt : Nat := 0
  k : Nat := 0
  n : Nat := 0
  present : List Bool := []
  blocks : List (List Byte) := []
  scales : List (BitVec 16) := []
  deriving DecidableEq, Repr

/-- An entry of the matrix queue (R215): an instruction of a context by its number, or a follow-on command, whose `seq` is
the tag of its copy and whose `slot` that of the copy's context. -/
structure MEnt where
  key : Nat
  seq : BitVec 16
  core : Nat
  slot : Nat
  cmd : Option Follow
  deriving DecidableEq, Repr

/-- The sequencer state registers (R229): the operation under way, by context and number; how many of its steps have
issued, or for an `mseq` one more than its next step once it has begun; and whether the issue due has been stalled (R234). -/
structure Seqr where
  key : Nat
  seq : BitVec 16
  step : Nat
  stalled : Bool
  /-- The first watchpoint that its steps so far have matched (R283). -/
  hit : Option (Nat × Va) := none
  deriving DecidableEq, Repr

/-- An event line (R205). -/
structure EvLine where
  set : Bool := false
  payload : Word := 0
  deriving DecidableEq, Repr

/-- A barrier counter of the event unit (R206). -/
structure Counter where
  round : BitVec 32 := 0
  arrived : Nat := 0
  expect : Nat := 0
  deriving DecidableEq, Repr

/-- A context that waits at the event unit: for line, counter or mutex `obj`, writing `rd` when it is served, whether its
load gates the core (R208), the watchpoint that its access matches (R283), what a gating load that has been served will
return when it completes, and the scope of an acquire that waits (R178). -/
structure Waiter where
  key : Nat
  obj : Nat
  rd : BitVec 6
  next : Advance
  gate : Bool
  watch : Option (Nat × Va)
  served : Option Word
  scope : Nat := 0
  deriving DecidableEq, Repr

/-- An undo entry (R392): an aligned 8-byte unit by place, its old bytes and poison marks, and its team. -/
structure Undo where
  launch : Nat
  team : Nat
  place : Nat
  bytes : List Byte
  marks : List Nat
  deriving DecidableEq, Repr

/-- A line of the shared victim cache (R259): its state as in an L1, 0 for none; the core whose L1 evicted it; and the core
in whose part it lies, both by their number in the cluster. -/
structure PoolLine where
  st : Nat := 0
  core : Nat := 0
  part : Nat := 0
  deriving DecidableEq, Repr

/-- A cluster's shared state (R9, R40, R204, R214) (DESIGN CHOICE, log entry 2). -/
structure Cluster where
  vgrp : BitVec 8 := 0
  mgstall : Word := 0
  mgov : Word := 0x10000C0
  steps : List Nat := []
  owner : Tbl Nat := []
  acc : Tbl (BitVec 128) := []
  slots : Tbl Slot := []
  queue : List MEnt := []
  seqr : Option Seqr := none
  lines : Tbl EvLine := []
  counters : Tbl Counter := []
  mutexes : Tbl Nat := []
  waiters : List Waiter := []
  undo : List Undo := []
  ovf : List (Nat × Nat) := []
  tlb : List TlbEnt := []
  walk : List WalkEnt := []
  groupsOut : List Nat := []
  pool : Tbl PoolLine := []
  deriving DecidableEq, Repr

/-- A message parked in an overflow store (R253): the target slot and the value. -/
structure Parked where
  key : Nat
  v : Word
  deriving DecidableEq, Repr

/-- A die-to-die link (R399). -/
structure Link where
  idle : BitVec 32 := 10
  spare : Nat := 0
  retry : Nat := 0
  st : Nat := 0
  deriving DecidableEq, Repr

/-- A slice's counters (R348), and how many requests its queue has accepted in this clock and completed in it too (R347). -/
structure Slice where
  req : Word := 0
  high : Nat := 0
  full : Word := 0
  now : Nat := 0
  deriving DecidableEq, Repr

/-- A compute die's state (R270, R284, R348, R399). Line states: 0 I, 1 S, 2 E, 3 O, 4 M. -/
structure Die where
  lwaddr : Tbl Word := []
  lwctl : Tbl Word := []
  lwsrc : Tbl Word := []
  lwcnt : Tbl Word := []
  slices : Tbl Slice := []
  links : Tbl Link := []
  lines : Tbl Nat := []
  wbuf : Tbl Nat := []
  parked : List Parked := []
  dead : Bool := false
  deriving DecidableEq, Repr

/-- A snoop-filter entry (R271, R307): the owner, the sharers, when it was last used, and what the host holds of the two
lines of 64 bytes in it, the lower one first (R306). -/
structure Dir where
  owner : Option Nat := none
  sharers : List Nat := []
  used : Nat := 0
  host : HostTake := .none
  upper : HostTake := .none
  deriving DecidableEq, Repr

/-- A request that a home performs (R272, R274): 0 RdS, 1 RdX, 2 Upg, 3 an eviction; its die, the dies whose answers are
still due, whether one of them kept a dirty copy, and whether the data is still due; and for an eviction the request that
waits for it, by kind, die and line (R350). -/
structure Req where
  die : Nat
  line : Nat
  kind : Nat
  acks : List Nat
  kept : Option Nat
  data : Bool
  waits : Option (Nat × Nat × Nat) := none
  deriving DecidableEq, Repr

/-- Through what an access reaches a line: the L1 of a core, the L2 of a die, the L2 for a matrix or tile instruction of a
core, or the home itself; or it makes no request, for a tile has already taken the line (R190). -/
inductive Via where
  | l1 (core : Nat)
  | l2 (die : Nat)
  | mx (core : Nat)
  | held
  | home
  deriving DecidableEq, Repr

/-- A request of an access that waits: it has entered the queues of its slices, and holds its entries there until the line can
be supplied (R347). `own` is one that writes the line; `got` one whose entries are free, for the line has been supplied, and
whose access has not been made yet (DESIGN CHOICE, log entry 1). -/
structure Miss where
  via : Via
  line : Nat
  own : Bool
  got : Bool := false
  deriving DecidableEq, Repr

/-- A message of the protocol in flight (R272): 0 FwdS, 1 FwdX, 2 Inv, 3 InvAck, 4 Data, 5 BInv, 6 BInvAck. `die` is the
die it goes to or comes from, and `data` the payload of Data and BInvAck, empty where there is none. -/
structure Msg where
  kind : Nat
  die : Nat
  line : Nat
  dirty : Bool
  data : List Byte := []
  deriving DecidableEq, Repr

/-- Where a posted store stands (R195 to R199). -/
inductive PostState where
  /-- It has no sequence number yet (R196). -/
  | waiting
  | sent
  | committed
  /-- Written off towards a lost device; the next `sfence` on its stream reports it (R200, R398). -/
  | lost
  deriving DecidableEq, Repr

/-- A posted store, or a marker of `mark` (R195, R201). `dest` is a device, 2048 + a die of this package, or 4096 for a
store to host uncached memory, which has no stream and waits for its GO (R306). Bytes lie at places of this package, or at
window addresses of a peer. -/
structure Post where
  id : Nat
  key : Nat
  core : Nat
  slot : Nat
  launch : Nat
  stream : Nat
  dest : Nat
  seq : BitVec 12
  st : PostState
  va : Va
  place : Nat
  bytes : List Byte
  /-- The poison marks of the bytes of a copy's line, 0 for none (R239); empty for a store of a context. -/
  marks : List Nat := []
  /-- Offsets within the bytes that it does not write: a vector store's line may have holes (R183). -/
  skip : List Nat := []
  /-- The tile whose line it is, by the number of the tile's first line: its lines commit together (R188, R189). -/
  tile : Option Nat := none
  marker : Option Nat
  copy : Option Nat
  /-- KIND of its writer (R286). -/
  kind : Nat := 0
  /-- The stores to host memory that it waits for, by their tile (R306). -/
  go : Option Nat := none
  deriving DecidableEq, Repr

/-- What a window request is for (R194): a scalar load of a width, which may fill L1 under `.rc`, with its scope; a `ramo`
with its scope; the test of a `wait`; a `ldsum`; a vector load; a tile load; a line of a copy. -/
inductive ReqKind where
  | load (fn : Nat) (rd : BitVec 6) (next : Advance) (rc : Bool) (scope : Nat)
  | ramo (fn : Nat) (v : Word) (rd : BitVec 6) (scope : Nat)
  | poll (v : Word) (ne : Bool) (scope : Nat)
  | ldsum (ty : Nat) (g2 : BitVec 4) (rd : BitVec 6) (lo n : Nat) (next : Advance)
  | vector (seq : BitVec 16)
  | tile (place : Nat) (next : Advance)
  | copy (id : Nat)
  deriving DecidableEq, Repr

/-- A window request in flight (R266, R277): the bytes that each part asked for and the answers so far. -/
structure WReq where
  id : Nat
  key : Nat
  kind : ReqKind
  va : Va
  parts : List (Nat × Va × Nat)
  answers : Tbl (List Byte)
  /-- The poison marks that came with the answers of the parts; empty where none is marked (R402). -/
  amarks : Tbl (List Nat) := []
  lost : List Nat
  refused : List Nat
  returned : List Nat
  deriving DecidableEq, Repr

/-- Whose access it is: where its apertures lie, whose page table it uses, and its privilege. `tlb` is false for a unit
that has no translation cache. -/
structure Env where
  core : Nat
  tlb : Bool
  launch : Nat
  ptroot : Nat
  asid : Nat
  priv : Nat
  mig : Bool
  pslot : Nat
  imageOf : Option Nat
  deriving DecidableEq, Repr

/-- A copy in the engine (R238 to R246): `cpy` (mode 0), `cpyt` (1) or `cpyt.cow` (2). Its shape is a number of planes and
rows with their pitches; `dst` is an A-stage offset where `astage`, and an offset of the view where the mode is 2, as `src` is where it is 1; `table`
is the block table of a view; `fmt` is
the format that it widens, 0 for none; `spans` are the places that its destination had when it entered, with their lengths (R244); `bar` is the place of its barrier object; `wrote` are the lines it has written in a
deterministic launch (R244). `queueEntry` and `node`
are the queue and the graph node of a COPY entry; `landed` counts the lines that have landed, of `total`, and `next` is the next to move. -/
structure Copy where
  id : Nat
  launch : Nat
  key : Option Nat
  core : Nat
  slot : Nat
  cl : Nat
  tag : BitVec 16
  env : Env
  x : Nat
  rows : Nat
  planes : Nat
  sr : Nat
  dr : Nat
  sp : Nat
  dp : Nat
  src : Nat
  dst : Nat
  table : Nat
  astage : Bool
  fmt : Nat
  scale : Nat
  stream : Nat
  mode : Nat
  pool : Nat
  ring : Nat
  bsz : Nat
  follow : Option Follow
  done : Option (Nat × Word)
  bar : Option Nat
  next : Nat
  total : Nat
  landed : Nat
  cow : List Nat
  wrote : List Nat
  req : Option Nat
  stopped : Bool
  faulted : Bool
  queueEntry : Option Nat
  node : Option Nat
  spans : List (Nat × Nat) := []
  /-- The entries of a block table in the Tvedlon window that its next line needs, plus one, by index (R245). -/
  entries : Tbl Nat := []
  /-- The vacated core that gave it its tag (R379). -/
  origin : Option Nat := none
  deriving DecidableEq, Repr

/-- A deferred arrival (R211, R240): the launch, group and role, and the copies it is bound to. -/
structure Bard where
  id : Nat
  launch : Nat
  group : Nat
  role : Nat
  key : Nat
  copies : List Nat
  deriving DecidableEq, Repr

/-- A tile that waits for lines (R190): whether it writes them, its age, its lines in physical order, and how many it
holds. -/
structure Tile where
  key : Nat
  store : Bool
  age : Nat
  lines : List Nat
  got : Nat
  deriving DecidableEq, Repr

/-- The states of a queue (R354). -/
inductive QState where
  | disabled
  | idle
  | running
  | switchingOut
  | switchedOut
  | switchingIn
  | error
  deriving DecidableEq, Repr

/-- A report of R365. -/
structure Report where
  status : Nat
  code : Nat := 0
  sub : Nat := 0
  a : Word := 0
  b : Word := 0
  core : Nat := 0
  ctx : Nat := 0
  deriving DecidableEq, Repr

/-- A queue's registers and its unit's state (R354 to R358). `closing` marks an entry that has ended and whose
progress waits for the memory writes of its work (R308). -/
structure Queue where
  base : Word := 0
  sz : Nat := 4
  ctlq : Bool := false
  eprio : Nat := 3
  prio : Nat := 3
  en : Bool := false
  tail : BitVec 32 := 0
  head : BitVec 32 := 0
  rcnt : BitVec 32 := 0
  progress : BitVec 32 := 0
  rbase : Word := 0
  paddr : Word := 0
  shadow : BitVec 32 := 0
  shadowed : Bool := false
  st : QState := .disabled
  entry : List Byte := []
  started : Bool := false
  /-- The cores that a VACATE under way lists (R364, R378). -/
  listed : List Nat := []
  errorNext : Bool := false
  closing : Bool := false
  deriving DecidableEq, Repr

/-- The states of a launch (R322). -/
inductive LState where
  | none
  | loading
  | running
  | frozen
  | ending
  | ended
  | switched
  deriving DecidableEq, Repr

/-- A group of a launch (R319, R389). -/
structure Group where
  g : Nat
  members : List Nat
  rb : Bool
  rcm : BitVec 24
  deriving DecidableEq, Repr

/-- A context as a switch saved it (R374). -/
structure Saved where
  key : Nat
  ctx : Ctx
  deriving DecidableEq, Repr

/-- The states of copies by tag, the follow-on commands, and the count of copies, that a vacated core leaves to the contexts that
moved from it (R238, R243, R379) (DEDUCED, log entry 45). -/
structure TagTable where
  copies : Tbl Nat := []
  follow : Tbl (Option Follow) := []
  issued : Nat := 0
  deriving DecidableEq, Repr

/-- What a switch saved of the units of a launch (R373). -/
structure SavedUnits where
  cores : Tbl Core := []
  clusters : Tbl Cluster := []
  copies : List Copy := []
  bards : List Bard := []
  lost : List Post := []
  parked : List (Nat × Parked) := []
  deriving DecidableEq, Repr

/-- A launch (R322, R360): its record, its tables as loaded and its scheduler's state. -/
structure Launch where
  st : LState := .none
  q : Nat := 0
  node : Option (Nat × Nat) := none
  record : List Byte := []
  cores : List Nat := []
  groups : List Group := []
  bind : Tbl (BitVec 16) := []
  arrivals : Tbl Nat := []
  floor : BitVec 32 := 0
  freezes : List Nat := []
  stalled : Bool := false
  notices : Tbl (BitVec 32 × BitVec 32 × Bool) := []
  detWords : Tbl Nat := []
  uncovered : List Nat := []
  graph : Tbl (Nat × Nat) := []
  params : List (Nat × Nat) := []
  rules : List (Word × Word) := []
  /-- The number of the load, for what other devices' descriptors held as loaded (R326). -/
  loadNo : Nat := 0
  /-- How many writes had been made when it was loaded (R179). -/
  kfloor : Nat := 0
  /-- The vacated cores with the pages of memory, 4 KiB each, that hold the image of their scratchpad (R378, R379). -/
  images : List (Nat × List Nat) := []
  saved : List Saved := []
  units : SavedUnits := {}
  absentSent : List Nat := []
  /-- The copy tags and follow-on commands of vacated cores (R379). -/
  tables : Tbl TagTable := []
  deriving DecidableEq, Repr

/-- A migration engine (R370). -/
structure Engine where
  pte : Word := 0
  dst : Word := 0
  ctl : Word := 0
  res : Nat := 0
  busy : Bool := false
  /-- Its access to the leaf waits for the leaf's line (R307, R371). -/
  asks : Bool := false
  deriving DecidableEq, Repr

/-- A unit's soft-error counts (R403). -/
structure Ecc where
  total : BitVec 32 := 0
  count : Nat := 0
  start : Nat := 0
  deriving DecidableEq, Repr

/-- A repair-map entry (R405). -/
structure Repair where
  unit : BitVec 32
  cause : Nat
  act : Bool
  deriving DecidableEq, Repr

/-- A die's firmware (R409): the running version and digest, the floor, and the staged image
(DESIGN CHOICE, log entry 2). -/
structure Firmware where
  version : Word := 0
  digest : List Byte := []
  floor : Word := 0
  staged : Option (Word × List Byte) := none
  deriving DecidableEq, Repr

/-- A write remembered for the constant path (R80, R179): its number, its place and the bytes it replaced. -/
structure Wrote where
  n : Nat
  place : Nat
  old : List Byte
  deriving DecidableEq, Repr

/-- What has left for another device: the notice of a commit (R329), the answer to its request, none where the gateway
refused it (R277), and whether a posted store of its was performed or rejected (R197, R199); and for the host: DRS MemData
with the marks of its bytes, NDR Cmp, and BISnp (R307) (log entry 56). -/
inductive Outward where
  | notice (dev index : Nat) (level step : BitVec 32) (done : Bool)
  | answer (dev id : Nat) (data : Option (List Byte × List Nat))
  | verdict (dev core stream : Nat) (seq : BitVec 12) (done : Bool)
  | drs (pa : Nat) (data : List Byte) (marks : List Nat)
  | ndr (pa : Nat)
  | bisnp (pa : Nat)
  deriving DecidableEq, Repr

/-- A write of a unit of the device that waits for the host to give its line up (R307): bytes within one line at a place, with
the marks they carry, and the migration engine that writes them, where a line-watch unit may count it (R285). -/
structure Late where
  place : Nat
  bytes : List Byte
  marks : List Nat
  engine : Option Nat := none
  deriving DecidableEq, Repr

/-- What moves next: an event of the device or the host, or the issue of a context's next instruction (log entry 4). -/
inductive Move where
  | event (i : Instr)
  | issue (key : Nat)
  deriving DecidableEq, Repr

/-- The state of the package. -/
structure State where
  clock : Nat
  cur : Nat
  agenda : List Move
  fresh : Nat
  iw : BitVec 128
  after : Option Trap
  watch : Option (Nat × Va)
  ctxs : Tbl Ctx
  cores : Tbl Core
  clusters : Tbl Cluster
  dies : Tbl Die
  mem : List Host.Cell
  marks : Tbl Nat
  wlog : List Wrote
  dir : Tbl Dir
  home : Tbl (List Byte)
  late : List Late
  reqs : List Req
  msgs : List Msg
  misses : List Miss
  snoops : List Nat
  posts : List Post
  windows : Tbl (BitVec 12)
  wmarks : Tbl Nat
  peerPosts : List RemoteStore
  wreqs : List WReq
  peerReqs : List RemoteReq
  copies : List Copy
  bards : List Bard
  tiles : List Tile
  queues : Tbl Queue
  lastQueue : Tbl Nat
  launches : Tbl Launch
  regs : Tbl Word
  routes : Tbl Nat
  lost : Tbl Word
  tlbiBusy : Bool
  tlbiPosts : List Nat
  tlbiTiles : List Nat
  engines : Tbl Engine
  ecc : Tbl Ecc
  repair : List Repair
  firmware : Tbl Firmware
  linkKeys : List Nat
  lmRes : Nat
  lmCmd : Option Word
  outbox : List Outward
  deriving DecidableEq, Repr

/-- The machine right after a package reset (INVENTORY.md gives each field's rule; log entries 2 and 3 give the values
that the spec does not). A field whose table is empty reads every entry at its reset value. -/
def State.reset : State where
  clock := 0
  cur := 0
  agenda := []
  fresh := 0
  iw := 0
  after := none
  watch := none
  ctxs := []
  cores := []
  clusters := []
  dies := []
  mem := []
  marks := []
  wlog := []
  dir := []
  home := []
  late := []
  reqs := []
  msgs := []
  misses := []
  snoops := []
  posts := []
  windows := []
  wmarks := []
  peerPosts := []
  wreqs := []
  peerReqs := []
  copies := []
  bards := []
  tiles := []
  queues := []
  lastQueue := []
  launches := []
  regs := []
  routes := []
  lost := []
  tlbiBusy := false
  tlbiPosts := []
  tlbiTiles := []
  engines := []
  ecc := []
  repair := []
  firmware := []
  linkKeys := []
  lmRes := 0
  lmCmd := none
  outbox := []

end Sys2Proof.Machine
end

