-- ==== Sys2Proof/Machine/Base.lean ====
section
/-!
DEFINITION. Named accessors of the state: contexts, cores, clusters and dies by number, registers, status fields, bytes
of memory by place, and the monad in which meanings are written.
-/

namespace Sys2Proof.Machine

open Sys2Proof

/-- What a meaning answers. -/
abbrev Outcome := Host.Outcome State Fault Refusal

/-- Why a meaning does not complete: a trap, a wait, or a refusal. -/
inductive Stop where
  | trap (t : Trap)
  | hold (w : Wait) (sleep : Bool)
  | refuse (r : Refusal)
  deriving DecidableEq, Repr

/-- Meanings as state changes that may stop. -/
abbrev M := EStateM Stop State

/-! ### Numbers -/

/-- The core of a context key (core × 16 + slot). -/
def coreOfKey (key : Nat) : Nat := key / 16

/-- The slot of a context key. -/
def slotOfKey (key : Nat) : Nat := key % 16

/-- The key of a slot. -/
def keyOf (core slot : Nat) : Nat := core * 16 + slot

/-- The cluster of a core, 0 to 255: die × 64 + clid (R252). -/
def clusterOfCore (core : Nat) : Nat := core / 8

/-- The die of a core. -/
def dieOfCore (core : Nat) : Nat := core / 512

/-- The die of a cluster. -/
def dieOfCluster (cl : Nat) : Nat := cl / 64

/-- Bits [lo+n-1:lo] of a word as a number. -/
def field (w : Word) (lo n : Nat) : Nat := (w.toNat / 2 ^ lo) % 2 ^ n

/-- A word with bits [lo+n-1:lo] replaced. -/
def setField (w : Word) (lo n v : Nat) : Word :=
  (w &&& ~~~(BitVec.ofNat 64 ((2 ^ n - 1) * 2 ^ lo))) ||| BitVec.ofNat 64 ((v % 2 ^ n) * 2 ^ lo)

/-- The word of a list of bytes, lowest first (R5). -/
def leNat : List Byte → Nat
  | [] => 0
  | b :: bs => b.toNat + 256 * leNat bs

/-- The `n` bytes of a number, lowest first (R5). -/
def leBytes : Nat → Nat → List Byte
  | 0, _ => []
  | n + 1, v => BitVec.ofNat 8 v :: leBytes n (v / 256)

/-- A number of `n` bits sign-extended to a word. -/
def signExt (n v : Nat) : Word :=
  if v % 2 ^ n < 2 ^ (n - 1) then BitVec.ofNat 64 (v % 2 ^ n) else BitVec.ofInt 64 ((v % 2 ^ n : Nat) - (2 ^ n : Nat) : Int)

/-! ### Contexts, cores, clusters, dies -/

/-- A context slot. -/
def State.ctx (s : State) (key : Nat) : Ctx := Tbl.get {} s.ctxs key

/-- A context slot changed. -/
def State.setCtx (s : State) (key : Nat) (c : Ctx) : State := { s with ctxs := Tbl.set {} s.ctxs key c }

/-- A context slot changed by a function. -/
def State.modCtx (s : State) (key : Nat) (f : Ctx → Ctx) : State := s.setCtx key (f (s.ctx key))

/-- A core. -/
def State.core (s : State) (n : Nat) : Core := Tbl.get {} s.cores n

/-- A core changed by a function. -/
def State.modCore (s : State) (n : Nat) (f : Core → Core) : State :=
  { s with cores := Tbl.set {} s.cores n (f (s.core n)) }

/-- A cluster. -/
def State.cluster (s : State) (n : Nat) : Cluster := Tbl.get {} s.clusters n

/-- A cluster changed by a function. -/
def State.modCluster (s : State) (n : Nat) (f : Cluster → Cluster) : State :=
  { s with clusters := Tbl.set {} s.clusters n (f (s.cluster n)) }

/-- A die. -/
def State.die (s : State) (n : Nat) : Die := Tbl.get {} s.dies n

/-- A die changed by a function. -/
def State.modDie (s : State) (n : Nat) (f : Die → Die) : State :=
  { s with dies := Tbl.set {} s.dies n (f (s.die n)) }

/-- A launch. -/
def State.launch (s : State) (l : Nat) : Launch := Tbl.get {} s.launches l

/-- A launch changed by a function. -/
def State.modLaunch (s : State) (l : Nat) (f : Launch → Launch) : State :=
  { s with launches := Tbl.set {} s.launches l (f (s.launch l)) }

/-- A queue. -/
def State.queue (s : State) (q : Nat) : Queue := Tbl.get {} s.queues q

/-- A queue changed by a function. -/
def State.modQueue (s : State) (q : Nat) (f : Queue → Queue) : State :=
  { s with queues := Tbl.set {} s.queues q (f (s.queue q)) }

/-- A context that holds its slot (R311). -/
def Ctx.live (c : Ctx) : Bool := c.st != .free

/-- A Held or Sleeping context is Ready again; a gated one will be when its gate lifts (R312)
(DEDUCED, log entry 15). -/
def Ctx.wake (c : Ctx) : Ctx :=
  { c with st := if c.st == .held || c.st == .sleeping then .ready else c.st
           saved := if c.st == .gated || c.st == .absent then .ready else c.saved
           wait := .none }

/-- A context that has completed an instruction is held by the hints of that instruction (R87) (DEDUCED, log entry 15). -/
def Ctx.rest (c : Ctx) (yld : Bool) (dly : Nat) : Ctx :=
  if !yld && dly == 0 then c
  else if c.st == .ready then { c with st := .held, wait := .hint yld dly }
  else if c.saved == .ready && (c.st == .gated || c.st == .absent) then { c with saved := .held, wait := .hint yld dly }
  else c

/-- What the Watch trap of two matches names (R283): the lowest watchpoint, and the first matching address. -/
def firstHit (a b : Option (Nat × Va)) : Option (Nat × Va) :=
  match a, b with
  | some x, some y => some (min x.1 y.1, x.2)
  | none, b => b
  | a, none => a

/-- The after-completion Watch trap of a match (R283). -/
def watchFault (pc : Option Va) (w : Nat × Va) : Trap :=
  { kind := .after, code := 19, sub := BitVec.ofNat 8 w.1, val := w.2.setWidth 64, seq := 0, tag := false, at' := w.2, pc := pc }

/-! ### Registers -/

/-- An x register; x0 reads as zero (R10). -/
def Ctx.xr (c : Ctx) (n : Nat) : Word := if n = 0 then 0 else Tbl.get 0 c.x n

/-- An x register written; a write to x0 is discarded (R10), and a write removes the poison mark (R13). -/
def Ctx.setX (c : Ctx) (n : Nat) (v : Word) : Ctx :=
  if n = 0 then c else { c with x := Tbl.set 0 c.x n v, xp := Tbl.set 0 c.xp n 0 }

/-- The poison mark of an x register, 0 for none (R13). -/
def Ctx.mark (c : Ctx) (n : Nat) : Nat := if n = 0 then 0 else Tbl.get 0 c.xp n

/-- An x register given marked data (R175). -/
def Ctx.setXMarked (c : Ctx) (n : Nat) (v : Word) (m : Nat) : Ctx :=
  if n = 0 then c else { c with x := Tbl.set 0 c.x n v, xp := Tbl.set 0 c.xp n m }

/-- One lane of a v register (R15). -/
def Ctx.vr (c : Ctx) (r lane : Nat) : Lane := Tbl.get 0 c.v (r * 256 + lane)

/-- One lane of a v register written with its mark (R145). -/
def Ctx.setV (c : Ctx) (r lane : Nat) (v : Lane) (m : Nat) : Ctx :=
  { c with v := Tbl.set 0 c.v (r * 256 + lane) v, vp := Tbl.set 0 c.vp (r * 256 + lane) m }

/-- The mark of a lane (R145). -/
def Ctx.vmark (c : Ctx) (r lane : Nat) : Nat := Tbl.get 0 c.vp (r * 256 + lane)

/-- The vector length: 32 lanes for each lane group granted (R15). -/
def Ctx.vl (c : Ctx) : Nat := 32 * c.grant

/-- SR.PRIV (R22). -/
def Ctx.priv (c : Ctx) : Nat := field c.sr 10 2

/-- A context goes on at an address: the phase that a `barw` waited for is kept only for that `barw` (R413). -/
def Ctx.goTo (c : Ctx) (pc : Va) : Ctx :=
  { c with pc := pc, barw := c.barw.filter fun b => decide (b.1 < c.priv) || (b.1 == c.priv && b.2.1 == pc) }

/-- A context's instruction completes while it waited: it goes on after it, under its hints (R87). -/
def Ctx.advance (c : Ctx) (n : Advance) : Ctx := (c.wake.goTo (c.pc + BitVec.ofNat 57 n.len)).rest n.yld n.dly

/-- SR.PP (R22). -/
def Ctx.pp (c : Ctx) : Bool := c.sr.getLsbD 0

/-- SR.MIG (R22). -/
def Ctx.mig (c : Ctx) : Bool := c.sr.getLsbD 9

/-- SR.DET (R22). -/
def Ctx.det (c : Ctx) : Bool := c.sr.getLsbD 8

/-- The five flags, as a number with NX, UF, OF, DZ, NV in bits 0 to 4 (R22, R52). -/
abbrev Flags := BitVec 5

/-- Flags ORed into SR[6:2] (R23, R52). -/
def Ctx.orFlags (c : Ctx) (f : Flags) : Ctx := { c with sr := c.sr ||| (f.setWidth 64 <<< 2) }

/-- A vector register's bit of a mask quad as a snapshot of the x registers holds it (R11). -/
def quadBit (x : Nat → Word) (q lane : Nat) : Bool := (x (32 + 4 * q + lane / 64)).getLsbD (lane % 64)

/-! ### Bytes of memory by place

Every byte of the package has one place: physical addresses as they are, and the units that have no physical address
above them (R256, R267). -/

/-- The place of a byte of a core's scratchpad. -/
def placeCore (core o : Nat) : Nat := 2 ^ 53 + core * 2 ^ 20 + o

/-- The place of a byte of a cluster's memory. -/
def placeCluster (cl o : Nat) : Nat := 2 ^ 54 + cl * 2 ^ 21 + o

/-- The place of a byte of a die's scratchpad. -/
def placeDie (d o : Nat) : Nat := 2 ^ 55 + d * 2 ^ 26 + o

/-- The place of a byte of a cluster's A-stage buffer (R214). -/
def placeStage (cl o : Nat) : Nat := 2 ^ 56 + cl * 2 ^ 18 + o

/-- The pages of the image that a vacate keeps of a core's scratchpad for a launch, where the core is vacated (R378). -/
def Launch.image (u : Launch) (core : Nat) : Option (List Nat) := (u.images.find? fun i => i.1 == core).map (·.2)

/-- Whether a place lies in the image of a core's scratchpad, which is uncached (R379). -/
def State.imaged (s : State) (p : Nat) : Bool :=
  s.launches.any fun u => u.2.images.any fun i => i.2.contains (p / 4096 * 4096)

/-- The place that stands for the x registers of a context, where the marks of the package are reported (R402). -/
def placeX (key n : Nat) : Nat := 2 ^ 58 + key * 2 ^ 16 + n

/-- The place that stands for a lane's byte of the v registers and slices of a context (R402): lane × 4096, then register
× 4 for v, and 2,048 + offset for the slice. -/
def placeLane (key o : Nat) : Nat := 2 ^ 59 + key * 2 ^ 20 + o

/-- A byte that nothing has written reads 0 (log entry 3). -/
def unlisted : Byte := 0

/-- One byte (DESIGN CHOICE, log entry 3). -/
def State.byte (s : State) (p : Nat) : Byte := Tbl.get unlisted s.mem p

/-- One byte written; its poison mark goes (R13, R402). -/
def State.setByte (s : State) (p : Nat) (b : Byte) : State :=
  { s with mem := Tbl.set unlisted s.mem p b, marks := Tbl.set 0 s.marks p 0 }

/-- One byte written together with a mark (R239). -/
def State.setByteMarked (s : State) (p : Nat) (b : Byte) (m : Nat) : State :=
  { s with mem := Tbl.set unlisted s.mem p b, marks := Tbl.set 0 s.marks p m }

/-- The mark of a byte, 0 for none: twice the line's address, and one more for a line lost with a die (R401, R402),
plus 2. -/
def State.byteMark (s : State) (p : Nat) : Nat := Tbl.get 0 s.marks p

/-- `n` bytes from a place. -/
def State.bytes (s : State) (p : Nat) : Nat → List Byte
  | 0 => []
  | n + 1 => s.byte p :: s.bytes (p + 1) n

/-- Bytes written from a place. -/
def State.setBytes (s : State) (p : Nat) : List Byte → State
  | [] => s
  | b :: bs => (s.setByte p b).setBytes (p + 1) bs

/-- The first mark among `n` bytes from a place, 0 for none. -/
def State.firstMark (s : State) (p : Nat) : Nat → Nat
  | 0 => 0
  | n + 1 => if s.byteMark p != 0 then s.byteMark p else s.firstMark (p + 1) n

/-- Memory is in canonical form. -/
def Memory.wf (m : List Host.Cell) : Bool := Tbl.wf unlisted m

/-- The mark of a line at a place (DEDUCED, log entries 16 and 50). -/
def markOf (p : Nat) (lost : Bool) : Nat := 2 + 2 * (p / 128 * 128) + (if lost then 1 else 0)

/-- ETVAL of UncorrectableData: the physical address of the marked line (R13, R402) (DEDUCED, log entry 50). -/
def markVal (m : Nat) : Word :=
  if (m - 2) / 2 < 2 ^ 52 then BitVec.ofNat 64 ((m - 2) / 2) else Config.freeLine ((m - 2) / 2)

/-- SUB of UncorrectableData: 0xFE for a line lost with a die, else the KIND of the consumer (R402). -/
def markSub (m kind : Nat) : BitVec 8 := if m % 2 = 1 then 0xFE else BitVec.ofNat 8 kind

/-! ### The monad -/

/-- The current context's key. -/
def curKey : M Nat := do return (← get).cur

/-- The current context. -/
def curCtx : M Ctx := do
  let s ← get
  return s.ctx s.cur

/-- The current context changed. -/
def modCur (f : Ctx → Ctx) : M Unit := modify fun s => s.modCtx s.cur f

/-- A precise trap (R30) at a generic address, which a report may name in place of ETVAL (R364, R365). -/
def faultAt {α : Type} (code sub : Nat) (val : Word) (va : Nat) : M α :=
  throw (.trap { kind := .precise, code := BitVec.ofNat 8 code, sub := BitVec.ofNat 8 sub, val := val, seq := 0,
                 tag := false, at' := BitVec.ofNat 57 va })

/-- A precise trap whose ETVAL is the address, where it has one (R30). -/
def fault {α : Type} (code sub : Nat) (val : Word) : M α := faultAt code sub val val.toNat

/-- IllegalOpcode: ETVAL is bits [63:0] of the word as fetched (R42). -/
def illegal {α : Type} : M α := do fault 1 0 ((← get).iw.setWidth 64)

/-- ReservedField (R42). -/
def reserved {α : Type} : M α := do fault 2 0 ((← get).iw.setWidth 64)

/-- The instruction waits at issue (R311: Held). -/
def heldAgain {α : Type} : M α := throw (.hold .again false)

/-- The instruction waits and its context sleeps (R311: Sleeping). -/
def sleepAgain {α : Type} : M α := throw (.hold .again true)

/-- A condition of an event (DEDUCED, log entry 53). -/
def enabled (b : Bool) : M Unit := if b then pure () else throw (.refuse .notEnabled)

/-- A choice of free values advances the counter. -/
def freeNext : M Nat := do
  let s ← get
  set { s with fresh := s.fresh + 1 }
  return s.fresh

/-- An x register of the current context. -/
def readX (n : BitVec 6) : M Word := do return (← curCtx).xr n.toNat

/-- An x register of the current context written. -/
def writeX (n : BitVec 6) (v : Word) : M Unit := modCur (·.setX n.toNat v)

/-! ### What vacated cores leave -/

/-- What a vacated core left to the contexts that moved from it changed (R379). -/
def modTable (l core : Nat) (f : TagTable → TagTable) (s : State) : State :=
  s.modLaunch l fun u => { u with tables := Tbl.set {} u.tables core (f (Tbl.get {} u.tables core)) }

/-- The tables of the vacated cores that a context still names: the last one first (R379) (DEDUCED, log entry 45). -/
def State.tablesOf (s : State) (key : Nat) : List TagTable :=
  (s.ctx key).origins.map fun o => Tbl.get {} (s.launch (s.ctx key).launch).tables o

/-- What the tables of vacated cores hold under a tag or a number gives way to what a context issues or registers anew
(R379) (DEDUCED, log entry 45). -/
def renew (key : Nat) (f : TagTable → TagTable) (s : State) : State :=
  (s.ctx key).origins.foldl (fun s o => modTable (s.ctx key).launch o f s) s

end Sys2Proof.Machine
end

