-- ==== Sys2Proof/Machine/Float.lean ====
section
/-!
DEFINITION. IEEE arithmetic to the last bit (spec 02, R46 to R54, R60, R61): values are decoded to exact numbers,
computed exactly, and rounded once.
-/

namespace Sys2Proof.Machine

open Sys2Proof

/-- An IEEE binary format by its exponent and fraction widths (R46). -/
structure Fmt where
  ebits : Nat
  fbits : Nat
  deriving DecidableEq, Repr

/-- binary64. -/
def f64 : Fmt := ⟨11, 52⟩
/-- binary32. -/
def f32 : Fmt := ⟨8, 23⟩
/-- binary16. -/
def f16 : Fmt := ⟨5, 10⟩
/-- BF16. -/
def bf16 : Fmt := ⟨8, 7⟩
/-- binary128, the accumulator element. -/
def f128 : Fmt := ⟨15, 112⟩

/-- The exponent bias. -/
def Fmt.bias (f : Fmt) : Nat := 2 ^ (f.ebits - 1) - 1

/-- Width in bits. -/
def Fmt.width (f : Fmt) : Nat := 1 + f.ebits + f.fbits

/-- The canonical NaN (R46, R47). -/
def Fmt.nan (f : Fmt) : Nat := (2 ^ f.ebits - 1) * 2 ^ f.fbits + 2 ^ (f.fbits - 1)

/-- An infinity. -/
def Fmt.inf (f : Fmt) (neg : Bool) : Nat :=
  (if neg then 2 ^ (f.ebits + f.fbits) else 0) + (2 ^ f.ebits - 1) * 2 ^ f.fbits

/-- The largest finite value. -/
def Fmt.largest (f : Fmt) (neg : Bool) : Nat := f.inf neg - 1

/-- A zero. -/
def Fmt.zero (f : Fmt) (neg : Bool) : Nat := if neg then 2 ^ (f.ebits + f.fbits) else 0

/-- A decoded value: a NaN with its kind, an infinity, or ±m·2^e. -/
inductive FVal where
  | nan (signalling : Bool)
  | inf (neg : Bool)
  | fin (neg : Bool) (m : Nat) (e : Int)
  deriving DecidableEq, Repr

/-- NX (R52). -/
def flagNX : Flags := 1
/-- UF (R52). -/
def flagUF : Flags := 2
/-- OF (R52). -/
def flagOF : Flags := 4
/-- DZ (R52). -/
def flagDZ : Flags := 8
/-- NV (R52). -/
def flagNV : Flags := 16

/-- A bit pattern decoded (R46). Under `.ftz` a subnormal reads as a zero of its sign (R51). -/
def Fmt.decode (f : Fmt) (ftz : Bool) (b : Nat) : FVal :=
  let neg := (b / 2 ^ (f.ebits + f.fbits)) % 2 == 1
  let e := (b / 2 ^ f.fbits) % 2 ^ f.ebits
  let m := b % 2 ^ f.fbits
  if e = 2 ^ f.ebits - 1 then
    if m = 0 then .inf neg else .nan (m / 2 ^ (f.fbits - 1) == 0)
  else if e = 0 then .fin neg (if ftz then 0 else m) (1 - (f.bias : Int) - f.fbits)
  else .fin neg (m + 2 ^ f.fbits) ((e : Int) - f.bias - f.fbits)

/-- Number of bits of a number. -/
def bitLen (m : Nat) : Nat := if m = 0 then 0 else Nat.log2 m + 1

/-- m / 2^k rounded to an integer under a rounding code (R49), and whether it is inexact. -/
def roundShift (mode : Nat) (neg : Bool) (m k : Nat) : Nat × Bool :=
  let q := m / 2 ^ k
  let r := m % 2 ^ k
  let up :=
    match mode with
    | 0 => decide (2 * r > 2 ^ k) || (decide (2 * r = 2 ^ k) && q % 2 == 1)
    | 1 => false
    | 2 => !neg && r != 0
    | _ => neg && r != 0
  (if up && r != 0 then q + 1 else q, r != 0)

/-- m·2^e rounded to a multiple of 2^lsb: the multiple, and whether it is inexact. -/
def roundAt (mode : Nat) (neg : Bool) (m : Nat) (e lsb : Int) : Nat × Bool :=
  if lsb ≤ e then (m * 2 ^ (e - lsb).toNat, false) else roundShift mode neg m (lsb - e).toNat

/-- The exponent of the leading bit of m·2^e once it is rounded to p bits with an unbounded exponent (R50, R52). -/
def roundedExp (mode : Nat) (neg : Bool) (m : Nat) (e : Int) (p : Nat) : Int :=
  let top := (bitLen m : Int) - 1 + e
  let q := (roundAt mode neg m e (top - p + 1)).1
  if bitLen q > p then top + 1 else top

/-- A nonzero exact value ±m·2^e delivered in a format (R49 to R52). -/
def Fmt.roundFin (f : Fmt) (mode : Nat) (ftz neg : Bool) (m : Nat) (e : Int) : Nat × Flags :=
  let emin : Int := 1 - f.bias
  let x := roundedExp mode neg m e (f.fbits + 1)
  let sign := f.zero neg
  if x > f.bias then
    (match mode with
      | 0 => f.inf neg
      | 1 => f.largest neg
      | 2 => if neg then f.largest neg else f.inf neg
      | _ => if neg then f.inf neg else f.largest neg, flagOF ||| flagNX)
  else if x < emin then
    if ftz then (sign, flagUF ||| flagNX)
    else
      let (q, inexact) := roundAt mode neg m e (emin - f.fbits)
      (sign + q, if inexact then flagUF ||| flagNX else 0)
  else
    let (q, inexact) := roundAt mode neg m e (x - f.fbits)
    (sign + (x + f.bias).toNat * 2 ^ f.fbits + (q - 2 ^ f.fbits), if inexact then flagNX else 0)

/-- An exact value delivered in a format; a zero keeps its sign. -/
def Fmt.deliver (f : Fmt) (mode : Nat) (ftz : Bool) : FVal → Nat × Flags
  | .nan s => (f.nan, if s then flagNV else 0)
  | .inf n => (f.inf n, 0)
  | .fin n m e => if m = 0 then (f.zero n, 0) else f.roundFin mode ftz n m e

/-- An inexact value m·2^e plus less than one unit: one more low bit stands for the part below. -/
def sticky (m : Nat) (e : Int) (more : Bool) : Nat × Int := if more then (2 * m + 1, e - 1) else (m, e)

/-- The signed integer of a finite value at a lower exponent. -/
def alignTo (neg : Bool) (m : Nat) (e lo : Int) : Int :=
  let v : Int := m * 2 ^ (e - lo).toNat
  if neg then -v else v

/-- The exact sum of two values; the sign of an exact zero follows R48. -/
def addVal (mode : Nat) : FVal → FVal → FVal × Flags
  | .nan s, .nan t => (.nan false, if s || t then flagNV else 0)
  | .nan s, _ => (.nan false, if s then flagNV else 0)
  | _, .nan t => (.nan false, if t then flagNV else 0)
  | .inf n, .inf n' => if n == n' then (.inf n, 0) else (.nan false, flagNV)
  | .inf n, _ => (.inf n, 0)
  | _, .inf n => (.inf n, 0)
  | .fin n m e, .fin n' m' e' =>
    if m = 0 ∧ m' = 0 then (.fin (if n == n' then n else mode == 3) 0 0, 0)
    else
      let lo := min e e'
      let v := alignTo n m e lo + alignTo n' m' e' lo
      if v = 0 then (.fin (mode == 3) 0 0, 0) else (.fin (decide (v < 0)) v.natAbs lo, 0)

/-- The exact product of two values. -/
def mulVal : FVal → FVal → FVal × Flags
  | .nan s, .nan t => (.nan false, if s || t then flagNV else 0)
  | .nan s, _ => (.nan false, if s then flagNV else 0)
  | _, .nan t => (.nan false, if t then flagNV else 0)
  | .inf n, .inf n' => (.inf (n != n'), 0)
  | .inf n, .fin n' m _ => if m = 0 then (.nan false, flagNV) else (.inf (n != n'), 0)
  | .fin n m _, .inf n' => if m = 0 then (.nan false, flagNV) else (.inf (n != n'), 0)
  | .fin n m e, .fin n' m' e' => (.fin (n != n') (m * m') (e + e'), 0)

/-- A value with its sign flipped. -/
def negVal : FVal → FVal
  | .nan s => .nan s
  | .inf n => .inf (!n)
  | .fin n m e => .fin (!n) m e

/-- a·b + c exactly; a zero times an infinity raises NV even where c is a quiet NaN (R52, R123). -/
def fmaVal (mode : Nat) (a b c : FVal) : FVal × Flags :=
  let (p, f) := mulVal a b
  let (r, g) := addVal mode p c
  (r, f ||| g)

/-- Addition in a format (R50, R122, R150). -/
def fAdd (f : Fmt) (mode : Nat) (ftz : Bool) (a b : Nat) : Nat × Flags :=
  let (v, g) := addVal mode (f.decode ftz a) (f.decode ftz b)
  let (r, h) := f.deliver mode ftz v
  (r, g ||| h)

/-- Subtraction in a format. -/
def fSub (f : Fmt) (mode : Nat) (ftz : Bool) (a b : Nat) : Nat × Flags :=
  let (v, g) := addVal mode (f.decode ftz a) (negVal (f.decode ftz b))
  let (r, h) := f.deliver mode ftz v
  (r, g ||| h)

/-- Multiplication in a format. -/
def fMul (f : Fmt) (mode : Nat) (ftz : Bool) (a b : Nat) : Nat × Flags :=
  let (v, g) := mulVal (f.decode ftz a) (f.decode ftz b)
  let (r, h) := f.deliver mode ftz v
  (r, g ||| h)

/-- a·b + c in a format, rounded once; `np` negates the product, `nc` the addend (R123, R150). -/
def fFma (f : Fmt) (mode : Nat) (ftz np nc : Bool) (a b c : Nat) : Nat × Flags :=
  let a' := f.decode ftz a
  let c' := f.decode ftz c
  let (v, g) := fmaVal mode (if np then negVal a' else a') (f.decode ftz b) (if nc then negVal c' else c')
  let (r, h) := f.deliver mode ftz v
  (r, g ||| h)

/-- A quotient with enough bits for one correct rounding into `p` bits. -/
def divParts (m m' : Nat) (e e' : Int) (p : Nat) : Nat × Int :=
  let s := p + 3 + bitLen m'
  sticky (m * 2 ^ s / m') (e - e' - s) (m * 2 ^ s % m' != 0)

/-- Division in a format, correctly rounded (R53). -/
def fDiv (f : Fmt) (mode : Nat) (ftz : Bool) (a b : Nat) : Nat × Flags :=
  match f.decode ftz a, f.decode ftz b with
  | .nan s, .nan t => (f.nan, if s || t then flagNV else 0)
  | .nan s, _ => (f.nan, if s then flagNV else 0)
  | _, .nan t => (f.nan, if t then flagNV else 0)
  | .inf _, .inf _ => (f.nan, flagNV)
  | .inf n, .fin n' _ _ => (f.inf (n != n'), 0)
  | .fin n _ _, .inf n' => (f.zero (n != n'), 0)
  | .fin n m e, .fin n' m' e' =>
    if m' = 0 then if m = 0 then (f.nan, flagNV) else (f.inf (n != n'), flagDZ)
    else if m = 0 then (f.zero (n != n'), 0)
    else
      let (q, x) := divParts m m' e e' f.fbits
      f.roundFin mode ftz (n != n') q x

/-- The integer square root, from `n` bits downward. -/
def isqrtFrom (m : Nat) : Nat → Nat → Nat
  | 0, r => r
  | n + 1, r => if (r + 2 ^ n) * (r + 2 ^ n) ≤ m then isqrtFrom m n (r + 2 ^ n) else isqrtFrom m n r

/-- The integer square root. -/
def isqrt (m : Nat) : Nat := isqrtFrom m (bitLen m / 2 + 1) 0

/-- Square root in a format (R53, R54). -/
def fSqrt (f : Fmt) (mode : Nat) (ftz : Bool) (a : Nat) : Nat × Flags :=
  match f.decode ftz a with
  | .nan s => (f.nan, if s then flagNV else 0)
  | .inf n => if n then (f.nan, flagNV) else (f.inf false, 0)
  | .fin n m e =>
    if m = 0 then (f.zero n, 0)
    else if n then (f.nan, flagNV)
    else
      let s := 2 * (f.fbits + 4) + (if e % 2 = 0 then 0 else 1)
      let m' := m * 2 ^ s
      let r := isqrt m'
      let (q, x) := sticky r ((e - s) / 2) (r * r != m')
      f.roundFin mode ftz false q x

/-- Reciprocal (R53, R54). -/
def fRcp (f : Fmt) (mode : Nat) (ftz : Bool) (a : Nat) : Nat × Flags :=
  match f.decode ftz a with
  | .nan s => (f.nan, if s then flagNV else 0)
  | .inf n => (f.zero n, 0)
  | .fin n m e =>
    if m = 0 then (f.inf n, flagDZ)
    else
      let (q, x) := divParts 1 m 0 e f.fbits
      f.roundFin mode ftz n q x

/-- Reciprocal square root (R53, R54). -/
def fRsqrt (f : Fmt) (mode : Nat) (ftz : Bool) (a : Nat) : Nat × Flags :=
  match f.decode ftz a with
  | .nan s => (f.nan, if s then flagNV else 0)
  | .inf n => if n then (f.nan, flagNV) else (f.zero false, 0)
  | .fin n m e =>
    if m = 0 then (f.inf n, flagDZ)
    else if n then (f.nan, flagNV)
    else
      let m' := if e % 2 = 0 then m else 2 * m
      let e' := if e % 2 = 0 then e else e - 1
      let s := f.fbits + 4 + bitLen m'
      let r := isqrt (2 ^ (2 * s) / m')
      let (q, x) := sticky r (-(s : Int) - e' / 2) (r * r * m' != 2 ^ (2 * s))
      f.roundFin mode ftz false q x

/-- Fraction bits of the fixed-point series below. -/
def seriesBits : Nat := 320

/-- ln 2 in units of 2^-320, rounded down. -/
def ln2Fixed : Nat :=
  1480553391661173448385607439722553250922680800745876974795605978609098082859138712941075737848984

/-- The sum of z^k/k! for k from `k` upward, with `t` the term before it (fixed point). -/
def expSeries (z : Nat) : Nat → Nat → Nat → Nat
  | 0, _, _ => 0
  | n + 1, k, t =>
    let t' := t * z / 2 ^ seriesBits / k
    t' + expSeries z n (k + 1) t'

/-- 2^y in units of 2^-320 for y in [0, 1), in the same units. -/
def exp2Fixed (y : Nat) : Nat :=
  let z := y * ln2Fixed / 2 ^ seriesBits
  2 ^ seriesBits + expSeries z 90 1 (2 ^ seriesBits)

/-- 2^x (R53, R54). -/
def fEx2 (f : Fmt) (mode : Nat) (ftz : Bool) (a : Nat) : Nat × Flags :=
  match f.decode ftz a with
  | .nan s => (f.nan, if s then flagNV else 0)
  | .inf n => if n then (f.zero false, 0) else (f.inf false, 0)
  | .fin n m e =>
    if m = 0 then f.roundFin mode ftz false 1 0
    else if (bitLen m : Int) + e > 20 then
      f.roundFin mode ftz false 3 (if n then -4096 else 4096)
    else
      let v := alignTo n m (e + seriesBits) 0
      -- every operand's last bit lies above 2^-320, so `v` is exact
      let whole := v / (2 ^ seriesBits : Nat)
      let part := (v % (2 ^ seriesBits : Nat)).toNat
      if part = 0 then f.roundFin mode ftz false 1 whole
      else
        let (q, x) := sticky (exp2Fixed part) (whole - seriesBits) true
        f.roundFin mode ftz false q x

/-- The sum of z^(2k+1)/(2k+1), with `t` the power reached and `d` the divisor (fixed point). -/
def atanhSeries (z2 : Nat) : Nat → Nat → Nat → Nat
  | 0, _, _ => 0
  | n + 1, d, t => t / d + atanhSeries z2 n (d + 2) (t * z2 / 2 ^ seriesBits)

/-- log₂ y in units of 2^-320 for y = m / 2^k in [1, 2). -/
def log2Fixed (m k : Nat) : Nat :=
  let z := (m - 2 ^ k) * 2 ^ seriesBits / (m + 2 ^ k)
  let s := atanhSeries (z * z / 2 ^ seriesBits) 110 1 z
  2 * s * 2 ^ seriesBits / ln2Fixed

/-- log₂ x (R53, R54). -/
def fLg2 (f : Fmt) (mode : Nat) (ftz : Bool) (a : Nat) : Nat × Flags :=
  match f.decode ftz a with
  | .nan s => (f.nan, if s then flagNV else 0)
  | .inf n => if n then (f.nan, flagNV) else (f.inf false, 0)
  | .fin n m e =>
    if m = 0 then (f.inf true, flagDZ)
    else if n then (f.nan, flagNV)
    else
      let k := bitLen m - 1
      let whole : Int := k + e
      if m = 2 ^ k then
        if whole = 0 then (f.zero false, 0)
        else f.roundFin mode ftz (decide (whole < 0)) whole.natAbs 0
      else
        let v : Int := whole * (2 ^ seriesBits : Nat) + log2Fixed m k
        -- the exact value lies above `v` by less than one unit
        let (q, x) := sticky (if v < 0 then v.natAbs - 1 else v.natAbs) (-(seriesBits : Int)) true
        f.roundFin mode ftz (decide (v < 0)) q x

/-- The order of two values, −0 and +0 equal: less, equal, greater; none where either is a NaN. -/
def cmpVal : FVal → FVal → Option Ordering
  | .nan _, _ => none
  | _, .nan _ => none
  | .inf n, .inf n' => some (if n == n' then .eq else if n then .lt else .gt)
  | .inf n, _ => some (if n then .lt else .gt)
  | _, .inf n => some (if n then .gt else .lt)
  | .fin n m e, .fin n' m' e' =>
    let lo := min e e'
    some (compare (alignTo n m e lo) (alignTo n' m' e' lo))

/-- Whether a value is a NaN, and whether a signalling one. -/
def FVal.isNan : FVal → Bool
  | .nan _ => true
  | _ => false

/-- A signalling NaN. -/
def FVal.isSig : FVal → Bool
  | .nan s => s
  | _ => false

/-- The sign of a value. -/
def FVal.neg : FVal → Bool
  | .nan _ => false
  | .inf n => n
  | .fin n _ _ => n

/-- Minimum or maximum (R48): −0 below +0; one NaN gives the other operand. Under `.ftz` a flushed operand is delivered
as the zero it was read as (R122). -/
def fMinMax (f : Fmt) (max ftz : Bool) (a b : Nat) : Nat × Flags :=
  let x := f.decode ftz a
  let y := f.decode ftz b
  let flush := fun (v : FVal) (bits : Nat) =>
    match v with
    | .fin n 0 _ => f.zero n
    | _ => bits
  let g := if x.isSig || y.isSig then flagNV else 0
  if x.isNan && y.isNan then (f.nan, g)
  else if x.isNan then (flush y b, g)
  else if y.isNan then (flush x a, g)
  else
    let less :=
      match cmpVal x y with
      | some .lt => true
      | some .eq => x.neg && !y.neg
      | _ => false
    (if less != max then flush x a else flush y b, 0)

/-- Equality (R48): a quiet NaN sets no flag. -/
def fEq (f : Fmt) (ftz : Bool) (a b : Nat) : Bool × Flags :=
  let x := f.decode ftz a
  let y := f.decode ftz b
  (cmpVal x y == some .eq, if x.isSig || y.isSig then flagNV else 0)

/-- An ordered comparison (R48): a NaN makes it false and sets NV. -/
def fOrd (f : Fmt) (ftz : Bool) (ok : Ordering → Bool) (a b : Nat) : Bool × Flags :=
  match cmpVal (f.decode ftz a) (f.decode ftz b) with
  | some o => (ok o, 0)
  | none => (false, flagNV)

/-- The sign bit flipped (R47). -/
def fNeg (f : Fmt) (a : Nat) : Nat :=
  let s := 2 ^ (f.ebits + f.fbits)
  if a % (2 * s) < s then a % s + s else a % s

/-- The sign bit cleared (R47). -/
def fAbs (f : Fmt) (a : Nat) : Nat := a % 2 ^ (f.ebits + f.fbits)

/-- a with the sign bit of b (R150). -/
def fCopysign (f : Fmt) (a b : Nat) : Nat :=
  let s := 2 ^ (f.ebits + f.fbits)
  a % s + (b / s % 2) * s

/-- Whether `.ftz` flushes the subnormal operands of a format: never an accumulator element (R51). -/
def Fmt.flushes (f : Fmt) (ftz : Bool) : Bool := ftz && f.fbits != 112

/-- Entry N, X or = of R60 between IEEE formats (R61): a value of the destination's own format is copied, but for a
signalling NaN. -/
def cvtFF (src dst : Fmt) (mode : Nat) (ftz : Bool) (a : Nat) : Nat × Flags :=
  match src.decode (src.flushes ftz) a with
  | .nan s => if src = dst ∧ s = false then (a, 0) else (dst.nan, if s then flagNV else 0)
  | v => if src = dst then (a, 0) else dst.deliver mode ftz v

/-- Entry N from an integer (R61). -/
def cvtIF (dst : Fmt) (mode : Nat) (ftz : Bool) (v : Int) : Nat × Flags :=
  dst.deliver mode ftz (.fin (decide (v < 0)) v.natAbs 0)

/-- Entry T of R61: to an integer between `lo` and `hi`. -/
def cvtVI (mode : Nat) (lo hi : Int) : FVal → Int × Flags
  | .nan _ => (0, flagNV)
  | .inf n => (if n then lo else hi, flagNV)
  | .fin n m e =>
    let (q, inexact) := roundAt mode n m e 0
    let v : Int := if n then -(q : Int) else q
    if lo ≤ v ∧ v ≤ hi then (v, if inexact then flagNX else 0)
    else (if n then lo else hi, flagNV)

/-- The range of an integer of `w` bits. -/
def intLo (w : Nat) (signed : Bool) : Int := if signed then -(2 ^ (w - 1) : Nat) else 0

/-- The largest integer of `w` bits. -/
def intHi (w : Nat) (signed : Bool) : Int := if signed then (2 ^ (w - 1) : Nat) - 1 else (2 ^ w : Nat) - 1

/-- Entry T from an IEEE format. -/
def cvtFI (src : Fmt) (mode : Nat) (ftz : Bool) (w : Nat) (signed : Bool) (a : Nat) : Int × Flags :=
  cvtVI mode (intLo w signed) (intHi w signed) (src.decode (src.flushes ftz) a)

end Sys2Proof.Machine
end

