-- ==== Sys2Proof/Machine/EventUnit.lean ====
section
/-!
DEFINITION. The event unit of a cluster (07 R204 to R209): lines, barrier counters, mutexes, and the contexts that wait
at them. A waiting instruction is completed by the unit itself, so that a fire wakes exactly one waiter (R205).
-/

namespace Sys2Proof.Machine

open Sys2Proof

/-- Object numbers: line n is n, counter b is 64 + b, mutex u is 96 + u. -/
def objCounter (b : Nat) : Nat := 64 + b

/-- The object number of a mutex. -/
def objMutex (u : Nat) : Nat := 96 + u

/-- A core's gate lifts: each gated context returns to the state it had (R312). -/
def ungate (core : Nat) (s : State) : State :=
  (List.range 11).foldl (fun s i =>
    let key := keyOf core i
    if (s.ctx key).st == .gated then s.modCtx key fun c => { c with st := c.saved } else s)
    (s.modCore core fun k => { k with gate := none })

/-- A core is gated: every context of it that is not Free stops (R208, R312). -/
def gateCore (core key : Nat) (s : State) : State :=
  (List.range 11).foldl (fun s i =>
    let k := keyOf core i
    let c := s.ctx k
    if c.live && c.st != .gated then s.modCtx k fun c => { c with saved := c.st, st := .gated } else s)
    (s.modCore core fun k => { k with gate := some key })

/-- A context that starts or arrives on a core whose gate is set stops with the others, until the gate lifts (R208, R311). -/
def joinGate (key : Nat) (s : State) : State :=
  if (s.core (coreOfKey key)).gate.isSome && (s.ctx key).live && (s.ctx key).st != .gated then
    s.modCtx key fun c => { c with saved := c.st, st := .gated }
  else s

/-- A waiter's instruction completes: its register is written, it goes on, a gate it held lifts, and an acquire at `.sy`
drops the lines that `.rc` loads placed (R178) (DEDUCED, log entry 15). -/
def completeWaiter (w : Waiter) (v : Word) (s : State) : State :=
  let core := coreOfKey w.key
  let s := if w.gate then ungate core s else s
  let c := s.ctx w.key
  let hit := (firstHit c.fetched w.watch).toList.map (watchFault (some c.pc))
  let s := if w.scope = 5 then s.modCore core fun k => { k with rc := [] } else s
  s.modCtx w.key fun c => { (c.setX w.rd.toNat v).advance w.next with due := hit ++ c.due, acq := s.wlog.length, fetched := none }

/-- The waiters at an object that have not been served, oldest first. -/
def waitersAt (cl obj : Nat) (s : State) : List Waiter :=
  (s.cluster cl).waiters.filter fun w => w.obj == obj && w.served.isNone

/-- A waiter leaves the unit. -/
def dropWaiter (cl key : Nat) (s : State) : State :=
  s.modCluster cl fun c => { c with waiters := c.waiters.filter fun w => w.key != key }

/-- A context waits at no event unit any more. -/
def dropWaiters (key : Nat) (s : State) : State := (s.clusters.map (·.1)).foldl (fun s cl => dropWaiter cl key s) s

/-- A waiter is served: its instruction completes, or, where it gates its core, will complete as a step of its own
(R208). -/
def serveWaiter (cl : Nat) (w : Waiter) (v : Word) (s : State) : State :=
  if w.gate then
    s.modCluster cl fun c =>
      { c with waiters := c.waiters.map fun u => if u.key == w.key then { u with served := some v } else u }
  else completeWaiter w v (dropWaiter cl w.key s)

/-- A fire of line n (R205): the oldest waiter receives the payload, or SET and the payload are left. -/
def fireLine (cl n : Nat) (payload : Word) (s : State) : State :=
  match waitersAt cl n s with
  | w :: _ => serveWaiter cl w payload s
  | [] => s.modCluster cl fun c => { c with lines := Tbl.set {} c.lines n { set := true, payload := payload } }

/-- A round completes when ARRIVED reaches EXPECT: every gated arriver wakes with the new round number (R206). -/
def counterCheck (cl b : Nat) (s : State) : State :=
  let k := Tbl.get {} (s.cluster cl).counters b
  if k.expect != 0 && decide (k.arrived ≥ k.expect) then
    let s := s.modCluster cl fun c =>
      { c with counters := Tbl.set {} c.counters b { k with round := k.round + 1, arrived := 0 } }
    (waitersAt cl (objCounter b) s).foldl (fun s w =>
      serveWaiter cl w ((k.round + 1).setWidth 64) s) s
  else s

/-- A mutex is released: the oldest waiter takes it (R206). -/
def mutexFree (cl u : Nat) (s : State) : State :=
  match waitersAt cl (objMutex u) s with
  | w :: _ =>
    serveWaiter cl w 1 (s.modCluster cl fun c => { c with mutexes := Tbl.set 0 c.mutexes u (w.key + 1) })
  | [] => s.modCluster cl fun c => { c with mutexes := Tbl.set 0 c.mutexes u 0 }

/-- The event unit reset (R207). -/
def resetEventUnit (cl : Nat) (s : State) : State :=
  s.modCluster cl fun c => { c with lines := [], counters := [], mutexes := [] }

end Sys2Proof.Machine
end

