-- ==== Sys2Proof/Machine/Caches.lean ====
section
/-!
DEFINITION. Physical addresses (09 R267, R268) and the caches: the L1 of each core, the victim cache of a cluster's pool,
the die's copies and the directory of each home (09 R257 to R275; 14 R346 to R348; 15 R349, R350). An access performs the
request that it needs in its own step; the requests whose messages travel as events are in Machine/Coherence.lean. Memory
holds the newest bytes of every line, and `home` what a home's memory holds of a line that a die holds dirty (log entry 57).
-/

namespace Sys2Proof.Machine

open Sys2Proof

/-! ### Physical addresses -/

/-- First address of the device registers (R267, R351). -/
def regBase : Nat := 0xF000000000000

/-- The class of a populated physical address: 0 HBM, 1 far tier, 2 host window, 4 device registers (R267). -/
def physKind (pa : Nat) : Option Nat :=
  if pa < 0x10000000000 then some 0
  else if 0x20000000000 ≤ pa ∧ pa < 0x2C000000000 then some 1
  else if 0x30000000000 ≤ pa ∧ pa < 0x3C000000000 then some 1
  else if 0x8000000000000 ≤ pa ∧ pa < 0xF000000000000 then some 2
  else if 0xF000000000000 ≤ pa ∧ pa < 0x10000000000000 then some 4
  else none

/-- The home die of a physical address (R267). -/
def homeDie (pa : Nat) : Option Nat :=
  let fold := (pa / 4096 % 4) ^^^ (pa / 0x100000 % 4)
  match physKind pa with
  | some 0 => some fold
  | some 2 => some fold
  | some 1 =>
    some (if pa < 0x26000000000 then 0 else if pa < 0x2C000000000 then 1 else if pa < 0x36000000000 then 2 else 3)
  | _ => none

/-- The slice of a physical address (R268). -/
def sliceOf (pa : Nat) : Nat :=
  (List.range 11).foldl (fun a g => a ^^^ (pa / 2 ^ (7 + 4 * g) % 16)) 0

/-- Whether a unit's retirement has taken effect (R406). -/
def State.retired (s : State) (u : BitVec 32) : Bool := s.repair.any fun r => r.unit == u && r.act

/-- The unit id of a slice (R402). -/
def sliceUnit (d sl : Nat) : BitVec 32 := BitVec.ofNat 32 (3 * 2 ^ 28 + d * 2 ^ 25 + sl)

/-- The bank of a slice that holds a line (R268). -/
def bankOf (pa : Nat) : Nat := (pa / 128 % 8) ^^^ (pa / 32768 % 8)

/-- The slice of a die that serves a line: that of its address, or the one that took its place when it was retired (R268,
R406) (DEDUCED, log entry 46). -/
def State.sliceAt (s : State) (d pa : Nat) : Nat :=
  if s.retired (sliceUnit d (sliceOf pa)) then sliceOf pa ^^^ 8 else sliceOf pa

/-- The slice of a line's home (R268) (DEDUCED, log entry 46). -/
def State.slice (s : State) (pa : Nat) : Nat := s.sliceAt ((homeDie pa).getD 0) pa

/-- Whether the dies that serve a physical address are lost (R401). -/
def State.lostPhys (s : State) (pa : Nat) : Bool :=
  match homeDie pa with
  | none => false
  | some d =>
    (s.die d).dead ||
      (match physKind pa with
        | some 1 => (s.die (if pa < 0x2C000000000 then 4 else 5)).dead
        | some 2 => (s.die 4).dead
        | _ => false)

/-! ### Links between dies -/

/-- A link's state as a die's register holds it. -/
def State.link (s : State) (d n : Nat) : Link := Tbl.get {} (s.die d).links n

/-- A die's register for a link changed. -/
def modLink (d n : Nat) (f : Link → Link) (s : State) : State :=
  s.modDie d fun k => { k with links := Tbl.set {} k.links n (f (Tbl.get {} k.links n)) }

/-- Both ends of a link changed. -/
def modLinks (d n : Nat) (f : Link → Link) (s : State) : State :=
  let s := modLink d n f s
  if n < 4 then modLink n d f s else s

/-- Whether a link is one that no message can use now: it is being retrained, or its die does not answer (R400)
(DEDUCED, log entry 40). -/
def State.linkStuck (s : State) (d n : Nat) : Bool := d != n && decide ((s.link d n).st ≥ 3)

/-- A request uses a link: one that sleeps or wakes is Active by then (R276, R400) (DEDUCED, log entry 40). -/
def useLink (d n : Nat) (s : State) : State :=
  let st := (s.link d n).st
  if d != n && (st == 1 || st == 2) then modLinks d n (fun k => { k with st := 0 }) s else s

/-- A request of an access can use a link: none that is being retrained, nor one to a die that does not answer. -/
def State.linksOpen (s : State) (h : Nat) (ds : List Nat) : Bool := ds.all fun d => !s.linkStuck h d

/-- The links between a die and some others wake (R400). -/
def useLinks (h : Nat) (ds : List Nat) (s : State) : State := ds.foldl (fun s x => useLink h x s) s

/-- The memory die through which a home reaches the memory of a line: M0 or M1 of the far tier, and M0 of the host window where
its home is joined to M0 (R267, R399) (DEDUCED, log entry 40). -/
def tierLink (pa : Nat) : List Nat :=
  match physKind pa, homeDie pa with
  | some 1, _ => [if pa < 0x2C000000000 then 4 else 5]
  | some 2, some h => if h < 2 then [4] else []
  | _, _ => []

/-- The compute die of a place in a scratchpad or a cluster's memory (R195). -/
def bankDie (p : Nat) : Nat :=
  if p < 2 ^ 54 then dieOfCore ((p - 2 ^ 53) / 2 ^ 20)
  else if p < 2 ^ 55 then dieOfCluster ((p - 2 ^ 54) / 2 ^ 21)
  else (p - 2 ^ 55) / 2 ^ 26

/-- The die that makes the request of an access; none where the home makes it itself. -/
def Via.die : Via → Option Nat
  | .l1 core => some (dieOfCore core)
  | .l2 d => some d
  | .mx core => some (dieOfCore core)
  | .held => none
  | .home => none

/-- The link that an access to a bank of another die uses (R276, R400): that die. -/
def Via.bankLink (v : Via) (p : Nat) : List Nat :=
  match v.die with
  | some d => if 2 ^ 53 ≤ p ∧ p < 2 ^ 56 ∧ bankDie p ≠ d then [bankDie p] else []
  | none => []

/-! ### What a home and a die hold of a line -/

/-- The line of a place. -/
def lineOf (p : Nat) : Nat := p / 128 * 128

/-- Whether a place is a physical address that a home orders (R267, R292). -/
def homed (p : Nat) : Bool := decide (p < 2 ^ 52) && (homeDie p).isSome

/-- A directory entry (R271). -/
def State.dirOf (s : State) (line : Nat) : Dir := Tbl.get {} s.dir line

/-- A directory entry set. -/
def setDir (line : Nat) (e : Dir) (s : State) : State := { s with dir := Tbl.set {} s.dir line e }

/-- Whether the host holds one of the two 64-byte lines (R306, R307) (DEDUCED, log entry 23). -/
def Dir.hosted (e : Dir) : Bool := e.host != .none || e.upper != .none

/-- Whether the host owns one of them, so that its newest bytes lie there (R307) (DEDUCED, log entry 23). -/
def Dir.hostOwned (e : Dir) : Bool := e.host == .owned || e.upper == .owned

/-- What the host holds of the 64-byte line of an address. -/
def Dir.hostAt (e : Dir) (pa : Nat) : HostTake := if pa % 128 < 64 then e.host else e.upper

/-- Whether an entry of the snoop filter is in use (R271). -/
def Dir.live (e : Dir) : Bool := e.owner.isSome || !e.sharers.isEmpty || e.hosted

/-- The dies of an entry: its owner and sharers. -/
def Dir.holders (e : Dir) : List Nat := e.owner.toList ++ e.sharers.filter fun d => e.owner != some d

/-- A die's state of a line (R270): 0 I, 1 S, 2 E, 3 O, 4 M. -/
def State.dieLine (s : State) (d line : Nat) : Nat := Tbl.get 0 (s.die d).lines line

/-- Whether a tile holds the line of a place (R190). -/
def State.tileHolds (s : State) (p : Nat) : Bool := s.tiles.any fun t => (t.lines.take t.got).contains (lineOf p)

/-- Whether the host owns the line of a place. -/
def State.hostOwns (s : State) (p : Nat) : Bool := decide (p < 2 ^ 52) && (s.dirOf (lineOf p)).hostOwned

/-- Whether the host holds the line of a place, so that a write of it waits for the BIRsp (R307)
(DEDUCED, log entry 23). -/
def State.hostHolds (s : State) (p : Nat) : Bool := decide (p < 2 ^ 52) && (s.dirOf (lineOf p)).hosted

/-- Whether the home performs a request to the line of a place, so that another one waits (R273). -/
def State.lineBusy (s : State) (p : Nat) : Bool := s.reqs.any fun r => r.line == lineOf p

/-- Whether an armed line-watch unit watches a line, so that its writes are made at the home (R285). -/
def State.lineWatched (s : State) (line : Nat) : Bool :=
  match homeDie line with
  | none => false
  | some h => (List.range 8).any fun u =>
      (Tbl.get 0 (s.die h).lwctl u).getLsbD 0 && field (Tbl.get 0 (s.die h).lwaddr u) 7 45 == line / 128

/-- What the home's memory holds of a line (R271, R272) (DEDUCED, log entry 9). -/
def State.homeBytes (s : State) (line : Nat) : List Byte :=
  match Tbl.get [] s.home line with
  | [] => s.bytes line 128
  | bs => bs

/-- A die's copy of a line is dirty from here on: what the home's memory holds stands apart (R272)
(DEDUCED, log entry 9). -/
def dirtyLine (line : Nat) (s : State) : State :=
  if (Tbl.get [] s.home line).isEmpty then { s with home := Tbl.set [] s.home line (s.bytes line 128) } else s

/-- The newest bytes of a line are written to the home's memory, by WB or BInvAck or at the home itself (R272, R274)
(DEDUCED, log entry 9). -/
def cleanLine (line : Nat) (s : State) : State := { s with home := Tbl.set [] s.home line [] }

/-! ### The L1s and the pool of a cluster -/

/-- A core's L1 state of a line (R270). -/
def State.l1 (s : State) (core line : Nat) : Nat := Tbl.get 0 (s.core core).l1 line

/-- A core's L1 state of a line set. -/
def setL1 (core line st : Nat) (s : State) : State := s.modCore core fun k => { k with l1 := Tbl.set 0 k.l1 line st }

/-- A line of a cluster's victim cache (R259). -/
def State.poolOf (s : State) (cl line : Nat) : PoolLine := Tbl.get {} (s.cluster cl).pool line

/-- A line of a cluster's victim cache set. -/
def setPool (cl line : Nat) (e : PoolLine) (s : State) : State :=
  s.modCluster cl fun k => { k with pool := Tbl.set {} k.pool line e }

/-- How many lines a core's L1 holds at most (R257). -/
def State.l1Room (s : State) (core : Nat) : Nat := (s.core core).split.toNat * 512

/-- The lines of the Tvedlon window that `.rc` loads have placed in a core's L1 (R172, R257). -/
def State.rcLines (s : State) (core : Nat) : List Nat := ((s.core core).rc.map fun p => p.1 / 128 * 128).eraseDups

/-- The lines that `.rc` loads placed in a core's L1 lose the one of an address (R178)
(DEDUCED, log entry 10). -/
def dropRc (core va : Nat) (s : State) : State :=
  s.modCore core fun k => { k with rc := k.rc.filter fun p => p.1 / 128 != va / 128 }

/-- How many lines lie in a core's cache part: those of its L1, and those of the pool there (R4, R257, R259). -/
def State.partUsed (s : State) (core : Nat) : Nat :=
  (s.core core).l1.length + (s.rcLines core).length +
    ((s.cluster (clusterOfCore core)).pool.filter fun p => p.2.part == core % 8).length

/-- Whether a core's cache part is in the pool (R259). -/
def State.pooled (s : State) (core : Nat) : Bool := (s.cluster (clusterOfCore core)).vgrp.getLsbD (core % 8)

/-- The cache part of another pooled core that has room for a line which a core evicts (R259)
(DESIGN CHOICE, log entry 57). -/
def State.poolPart (s : State) (core : Nat) : Option Nat :=
  if s.pooled core then
    (List.range 8).find? fun c =>
      let k := core / 8 * 8 + c
      k != core && s.pooled k && decide (s.partUsed k < s.l1Room k)
  else none

/-- Whether another pooled core of a core's cluster holds a line in its L1, so that the pool does not take it (R259). -/
def State.sharedL1 (s : State) (core line : Nat) : Bool :=
  (List.range 8).any fun c => core / 8 * 8 + c != core && s.pooled (core / 8 * 8 + c) && s.l1 (core / 8 * 8 + c) line != 0

/-- A line leaves an L1 for want of room: it goes to the pool where that has room and no other member holds it, else only the
L2 keeps it (R259, R270) (DESIGN CHOICE, log entry 57). -/
def evictL1 (core line : Nat) (s : State) : State :=
  let st := s.l1 core line
  let s := setL1 core line 0 s
  match (if s.sharedL1 core line then none else s.poolPart core) with
  | some p => setPool (clusterOfCore core) line { st := st, core := core % 8, part := p } s
  | none => s

/-- A core's cache part has room for one more line (DESIGN CHOICE, log entry 57). -/
def roomL1 (core : Nat) (s : State) : State :=
  if s.partUsed core < s.l1Room core then s
  else
    match (s.cluster (clusterOfCore core)).pool.find? fun p => p.2.part == core % 8 with
    | some p => setPool (clusterOfCore core) p.1 {} s
    | none =>
      let ls := (s.core core).l1.map (·.1)
      let rs := s.rcLines core
      let i := Config.freeVictim s.fresh % (ls.length + rs.length)
      let s := { s with fresh := s.fresh + 1 }
      match ls[i]?, rs[i - ls.length]? with
      | some line, _ => evictL1 core line s
      | none, some va => dropRc core va s
      | none, none => s

/-- Bytes of the window that a load under `.rc` has received enter a core's L1; one without cache units holds none (R172,
R257) (DEDUCED, log entry 10; DESIGN CHOICE, log entry 57). -/
def fillRcLine (core va : Nat) (bs : List Byte) (s : State) : State :=
  if s.l1Room core = 0 then s
  else
    let s := if (s.rcLines core).contains (va / 128 * 128) then s else roomL1 core s
    s.modCore core fun k => { k with rc := Tbl.set [] k.rc va bs }

/-- A line enters a core's L1, or changes its state there; a core without cache units holds none (R257, R270). -/
def fillL1 (core line st : Nat) (s : State) : State :=
  if s.l1Room core = 0 then s
  else if s.l1 core line != 0 then setL1 core line st s
  else setL1 core line st (roomL1 core s)

/-- The L1s of a die that hold a line: with the clusters whose pool holds it, what the tag of the L2 records (R270). -/
def State.l2Tag (s : State) (d line : Nat) : List Nat × List Nat :=
  ((s.cores.filter fun p => dieOfCore p.1 == d && Tbl.get 0 p.2.l1 line != 0).map (·.1),
   (s.clusters.filter fun p => dieOfCluster p.1 == d && (Tbl.get {} p.2.pool line).st != 0).map (·.1))

/-- The copies in a die's L1s and pools become no stronger than a state; 0 recalls them (R270). -/
def capCores (d line st : Nat) (s : State) : State :=
  let tag := s.l2Tag d line
  let s := tag.1.foldl (fun s k => if st < s.l1 k line then setL1 k line st s else s) s
  tag.2.foldl (fun s c =>
    let e := s.poolOf c line
    if st = 0 then setPool c line {} s else if st < e.st then setPool c line { e with st := st } s else s) s

/-- A die's state of a line set; no copy inside the die stays stronger (R270). -/
def setDieLine (d line st : Nat) (s : State) : State :=
  let s := capCores d line (if st = 3 then 1 else st) s
  s.modDie d fun k => { k with lines := Tbl.set 0 k.lines line st }

/-- A core takes a line back from the pool of its cluster into its own L1 (R259). -/
def takeBack (core line : Nat) (s : State) : State :=
  let st := (s.poolOf (clusterOfCore core) line).st
  fillL1 core line st (setPool (clusterOfCore core) line {} s)

/-- Whether a pooled core finds a line in the pool. -/
def State.poolHit (s : State) (core line : Nat) : Bool :=
  s.pooled core && (s.poolOf (clusterOfCore core) line).st != 0

/-! ### The queues of the slices -/

/-- Whether a request to a line holds an entry of a slice's queue: at its home, and at the die that asks (R269, R347). -/
def State.entryAt (s : State) (asker : Option Nat) (line d sl : Nat) : Bool :=
  (homeDie line == some d && s.slice line == sl) || (asker == some d && homeDie line != some d && s.sliceAt d line == sl)

/-- The die and the line of a request that a home performs: an eviction is a part of the request that waits for it (R350). -/
def Req.asks (r : Req) : Nat × Nat :=
  match r.waits with
  | some (_, die, line) => (die, line)
  | none => (r.die, r.line)

/-- The entries of a slice's queue that are in use (R269, R347): by the requests that the home performs, and by the accesses
that wait for a line. -/
def State.slotsUsed (s : State) (d sl : Nat) : Nat :=
  (s.reqs.filter fun r => s.entryAt (some r.asks.1) r.asks.2 d sl).length +
    (s.misses.filter fun m => !m.got && s.entryAt m.via.die m.line d sl).length

/-- A slice's queue accepts a request (R348): `keep` is one that holds its entry beyond this clock (R347)
(DESIGN CHOICE, log entry 1). -/
def acceptAt (keep : Bool) (d line : Nat) (s : State) : State :=
  s.modDie d fun k =>
    let e := Tbl.get {} k.slices (s.sliceAt d line)
    let e := { e with req := if e.req = BitVec.allOnes 64 then e.req else e.req + 1, now := if keep then e.now else e.now + 1 }
    { k with slices := Tbl.set {} k.slices (s.sliceAt d line) e }

/-- A slice's queue accepts a request that is over in the same clock (DESIGN CHOICE, log entry 1). -/
def countAt (d line : Nat) (s : State) : State := acceptAt false d line s

/-- The queues of the slice of a die that asks, and of a line's home where that is another, accept a request that keeps its
entries (R347, R348) (DESIGN CHOICE, log entry 1). -/
def acceptBoth (asker : Option Nat) (line : Nat) (s : State) : State :=
  let s := match asker with
    | some d => acceptAt true d line s
    | none => s
  match homeDie line with
  | some h => if asker = some h then s else acceptAt true h line s
  | none => s

/-- Whether the queues have an entry for a request: at the slice of the die that makes it, and at the home (R269). -/
def State.queuesOpen (s : State) (asker : Option Nat) (line : Nat) : Bool :=
  (asker.all fun d => decide (s.slotsUsed d (s.sliceAt d line) < 16)) &&
    (homeDie line).all fun h => asker == some h || decide (s.slotsUsed h (s.slice line) < 16)

/-- Whether the request of an access waits in the queues (R347). -/
def State.missed (s : State) (v : Via) (line : Nat) : Bool := s.misses.any fun m => m.via == v && m.line == line && !m.got

/-- Whether the queues take the request of an access, or hold it (R269, R347). -/
def State.accepts (s : State) (v : Via) (line : Nat) : Bool := s.missed v line || s.queuesOpen v.die line

/-- Whether the request of an access has been counted (R348): it waits in the queues, or what it brought is still there. -/
def State.counted (s : State) (v : Via) (line : Nat) (here : Bool) : Bool :=
  s.misses.any fun m => m.via == v && m.line == line && (!m.got || here)

/-- The request of an access is over (R347). -/
def dropMiss (v : Via) (line : Nat) (s : State) : State :=
  { s with misses := s.misses.filter fun m => !(m.via == v && m.line == line) }

/-! ### The snoop filter -/

/-- The set of the snoop filter that a line belongs to: its home die, slice and index (R271). -/
def State.filterSet (s : State) (line : Nat) : Option Nat × Nat × Nat := (homeDie line, s.slice line, line / 128 % 16384)

/-- The entries of a line's set, other than its own (R271). -/
def State.filterPeers (s : State) (line : Nat) : List (Nat × Dir) :=
  s.dir.filter fun p => p.1 != line && p.2.live && s.filterSet p.1 == s.filterSet line

/-- The entry that gives way where a set is full: the least recently used one that nothing pins (R274, R275, R350). -/
def State.filterVictim (s : State) (line : Nat) : Option Nat :=
  match (s.filterPeers line).filter fun p => !s.tileHolds p.1 with
  | [] => none
  | e :: t => some (t.foldl (fun (a : Nat × Dir) p => if p.2.used < a.2.used then p else a) e).1

/-- Whether a request to a line finds its set full (R274). -/
def State.filterFull (s : State) (line : Nat) : Bool :=
  !(s.dirOf line).live && decide ((s.filterPeers line).length ≥ 16)

/-- Every die's copy of a line goes, its dirty data to memory, and its entry with them (R274, R281). -/
def dropLine (line : Nat) (s : State) : State :=
  setDir line {} (cleanLine line ((List.range 4).foldl (fun s d => if s.dieLine d line = 0 then s else setDieLine d line 0 s) s))

/-- Whether the home can perform a request to a line now, its queue apart: no other one to it is in progress, the links are
there; and where it needs an entry of a full set, the victim can be evicted (R273 to R275, R307, R400). -/
def State.homeOpen (s : State) (ds : List Nat) (line : Nat) (entry : Bool) : Bool :=
  match homeDie line with
  | none => true
  | some h =>
    !s.lineBusy line && s.linksOpen h (ds ++ (s.dirOf line).holders ++ tierLink line) &&
      (!(entry && s.filterFull line) ||
        match s.filterVictim line with
        | none => false
        | some v => !s.lineBusy v && !(s.dirOf v).hosted && s.linksOpen h ((s.dirOf v).holders ++ tierLink v))

/-- The entry of a full set gives way to a line that needs one (R274, R350). -/
def roomAtHome (h : Nat) (line : Nat) (s : State) : State :=
  match (if s.filterFull line then s.filterVictim line else none) with
  | some v => dropLine v (useLinks h ((s.dirOf v).holders ++ tierLink v) s)
  | none => s

/-- A line's entry is the most recently used one (R274, R350). -/
def useDir (line : Nat) (s : State) : State :=
  setDir line { s.dirOf line with used := s.fresh + 1 } { s with fresh := s.fresh + 1 }

/-- The home takes up a request that a die makes, or that it makes itself: links wake, and the queue of its slice counts the
request where it has not been counted (R348, R400). -/
def atHome (d : Option Nat) (counted : Bool) (line : Nat) (s : State) : State :=
  match homeDie line with
  | none => s
  | some h =>
    let s := useLinks h (d.toList ++ (s.dirOf line).holders ++ tierLink line) s
    if counted || d == some h then s else countAt h line s

/-- The home starts RdS, RdX or Upg of a die: the entry of a full set gives way, and the line's entry is used (R274, R350). -/
def startAtHome (d : Nat) (counted : Bool) (line : Nat) (s : State) : State :=
  let s := match homeDie line with
    | some h => roomAtHome h line s
    | none => s
  useDir line (atHome (some d) counted line s)

/-- The home starts a WB, which uses the entry that there is (R350). -/
def backAtHome (line : Nat) (s : State) : State :=
  let s := atHome none false line s
  if (s.dirOf line).live then useDir line s else s

/-! ### Requests performed whole -/

/-- RdS of a die, whole (R272). A watched line is not given in E (R285), nor is one that the host holds. -/
def homeRead (counted : Bool) (d line : Nat) (s : State) : State :=
  let s := startAtHome d counted line s
  let e := s.dirOf line
  match e.owner with
  | none =>
    if e.sharers.isEmpty && !e.hosted && !s.lineWatched line then setDieLine d line 2 (setDir line { e with owner := some d } s)
    else setDieLine d line 1 (setDir line { e with sharers := e.sharers ++ [d] } s)
  | some o =>
    if s.dieLine o line ≥ 3 then
      setDieLine d line 1 (setDieLine o line 3 (setDir line { e with sharers := e.sharers ++ [d] } s))
    else setDieLine d line 1 (setDieLine o line 1 (setDir line { e with owner := none, sharers := e.holders ++ [d] } s))

/-- RdX or Upg of a die, whole (R272): every other copy goes, and the die holds the line in M. -/
def homeOwn (counted : Bool) (d line : Nat) (s : State) : State :=
  let s := dirtyLine line (startAtHome d counted line s)
  let e := s.dirOf line
  let s := (e.holders.filter (· != d)).foldl (fun s x => setDieLine x line 0 s) s
  setDieLine d line 4 (setDir line { e with owner := some d, sharers := [] } s)

/-- A request that the home makes itself is taken up. -/
def selfAtHome (line : Nat) (s : State) : State :=
  atHome none (s.counted .home line true) line (dropMiss .home line s)

/-- A write, or an atomic, that the home slice performs itself: every copy of the line is recalled first, and it is left in I
(R195, R281, R285). -/
def homeWrite (line : Nat) (s : State) : State := dropLine line (selfAtHome line s)

/-- A read that the home slice performs itself: a copy in M or O is recalled first (R307, R367). -/
def homePeek (line : Nat) (s : State) : State :=
  let s := selfAtHome line s
  let e := s.dirOf line
  match e.owner with
  | none => s
  | some o =>
    if s.dieLine o line ≥ 3 then
      cleanLine line (setDieLine o line 0 (setDir line { e with owner := none, sharers := e.sharers.filter (· != o) } s))
    else s

/-- WB of a die, whole (R272): its data goes to memory where it is dirty. -/
def homeBack (d line : Nat) (s : State) : State :=
  let s := backAtHome line s
  let e := s.dirOf line
  let s := if s.dieLine d line ≥ 3 then cleanLine line s else s
  setDieLine d line 0 (setDir line
    (let e' := { e with owner := e.owner.filter (· != d), sharers := e.sharers.filter (· != d) }
     if e'.live then e' else {}) s)

/-- How many lines a slice of a die's L2 holds (R4): 12 MiB. -/
def l2Ways : Nat := 98304

/-- A die's slice has room for a line: a line that nothing pins leaves a full one (R4, R270)
(DESIGN CHOICE, log entry 57). -/
def roomL2 (d line : Nat) (s : State) : State :=
  let ls := (s.die d).lines.filter fun p => s.sliceAt d p.1 == s.sliceAt d line
  if ls.length < l2Ways then s
  else
    let ls := ls.filter fun p => !s.tileHolds p.1 && !s.lineBusy p.1
    match ls[Config.freeVictim s.fresh % ls.length]? with
    | some p => homeBack d p.1 { s with fresh := s.fresh + 1 }
    | none => s

/-- A unit of a die reads a line: through its L2, with RdS where the die holds it in I (R349). The slice counts the request,
unless it has waited there (R348). -/
def dieRead (v : Via) (d line : Nat) (s : State) : State :=
  let here := s.dieLine d line != 0
  let c := s.counted v line here
  let s := dropMiss v line s
  let s := if c then s else countAt d line s
  if here then s else homeRead c d line (roomL2 d line s)

/-- A unit of a die takes a line to write it: with RdX or Upg where the die does not hold it in E or M (R349). -/
def dieOwn (v : Via) (d line : Nat) (s : State) : State :=
  let c := s.counted v line (s.dieLine d line == 4 || s.dieLine d line == 2)
  let s := dropMiss v line s
  let s := if c then s else countAt d line s
  match s.dieLine d line with
  | 4 => capCores d line 0 s
  | 2 => setDieLine d line 4 (capCores d line 0 (dirtyLine line s))
  | 0 => homeOwn c d line (roomL2 d line s)
  | _ => capCores d line 0 (homeOwn c d line s)

/-- A core's load of a line (R270, R346): a hit in its L1 or in the pool, or a request to the slice of its die, which fills the
L1 under the cache code (R87) (DESIGN CHOICE, log entry 57). -/
def coreRead (core ch line : Nat) (s : State) : State :=
  if s.l1 core line != 0 then s
  else if s.poolHit core line then takeBack core line s
  else
    let s := capCores (dieOfCore core) line 1 (dieRead (.l1 core) (dieOfCore core) line s)
    if ch = 1 ∨ ch = 2 then s else fillL1 core line 1 s

/-- A core takes a line into its L1 to write it (R270). -/
def coreOwn (core line : Nat) (s : State) : State :=
  let d := dieOfCore core
  let s := if s.poolHit core line then takeBack core line s else s
  if s.l1 core line ≥ 2 then
    setL1 core line 4 (if s.dieLine d line = 4 then s else setDieLine d line 4 (dirtyLine line s))
  else fillL1 core line 4 (capCores d line 0 (dieOwn (.l1 core) d line s))

/-! ### Who makes an access, and through what -/

/-- Who writes: KIND of R286, device, die, cluster, core and context; and through what. `own` is a write that the device makes
for itself, for which R286 has no KIND: its number among the free values (log entry 23). -/
structure Source where
  kind : Nat
  dev : Nat := 0
  die : Nat := 0
  cl : Nat := 0
  core : Nat := 0
  ctx : Nat := 0
  via : Via := .home
  own : Option Nat := none
  deriving DecidableEq, Repr

/-- Through what an access to a place goes: the image of a scratchpad is uncached (R379). -/
def State.viaAt (s : State) (v : Via) (p : Nat) : Via := if v != .held && s.imaged p then .home else v

/-- Through what a write goes: that of a line that a line-watch unit watches is made at the home (R285). -/
def State.viaWrite (s : State) (v : Via) (p : Nat) : Via :=
  if v != .held && s.lineWatched (lineOf p) then .home else s.viaAt v p

/-- The link to another die's bank wakes for an access (R400). -/
def bankUsed (v : Via) (p : Nat) (s : State) : State :=
  match v.die with
  | some d => useLinks d (v.bankLink p) s
  | none => s

/-- What a read does to the caches before it (R270, R349), and to the link to another die's bank (R400). -/
def lineRead (v : Via) (ch p : Nat) (s : State) : State :=
  if homed p then
    match s.viaAt v p with
    | .l1 core => coreRead core ch (lineOf p) s
    | .l2 d => dieRead (.l2 d) d (lineOf p) s
    | .mx core => dieRead (.mx core) (dieOfCore core) (lineOf p) s
    | .held => s
    | .home => homePeek (lineOf p) s
  else bankUsed v p s

/-- What a write does to the caches before it (R270, R272, R285, R349), and to the link to another die's bank (R400)
(DESIGN CHOICE, log entry 6). -/
def lineWritten (v : Via) (p : Nat) (s : State) : State :=
  if homed p then
    match s.viaWrite v p with
    | .l1 core => coreOwn core (lineOf p) s
    | .l2 d => dieOwn (.l2 d) d (lineOf p) s
    | .mx core => dieOwn (.mx core) (dieOfCore core) (lineOf p) s
    | .held => s
    | .home => homeWrite (lineOf p) s
  else bankUsed v p s

/-! ### Accesses that wait -/

/-- Whether a core's scratchpad is held while CSPLIT changes: the accesses of its own instructions were accepted before, and
go on, as do those of tiles that have taken their lines (R258). -/
def State.bankHeld (s : State) (v : Via) (p : Nat) : Bool :=
  let core := (p - 2 ^ 53) / 2 ^ 20
  decide (2 ^ 53 ≤ p ∧ p < 2 ^ 54) && (s.core core).stopped.isSome && v != .l1 core && v != .mx core && v != .held

/-- Whether the link to another die's bank cannot be used (R400). -/
def State.bankCut (s : State) (v : Via) (p : Nat) : Bool :=
  match v.die with
  | some d => !s.linksOpen d (v.bankLink p)
  | none => false

/-- Whether a die's slice has an entry for a request that it serves itself (R269). -/
def State.sliceOpen (s : State) (v : Via) (d line : Nat) : Bool :=
  s.missed v line || decide (s.slotsUsed d (s.sliceAt d line) < 16)

/-- Whether a die can read a line now. -/
def State.dieReads (s : State) (v : Via) (d line : Nat) : Bool :=
  if s.dieLine d line != 0 then s.sliceOpen v d line else s.accepts v line && s.homeOpen [d] line true

/-- Whether a die can take a line to write it now. -/
def State.dieOwns (s : State) (v : Via) (d line : Nat) : Bool :=
  if s.dieLine d line == 4 || s.dieLine d line == 2 then s.sliceOpen v d line
  else s.accepts v line && s.homeOpen [d] line true

/-- Whether a read of a line waits, apart from tiles: for a change of CSPLIT (R258), for the data that the host owns (R307),
or for what its request needs (R269, R273 to R275, R400). -/
def State.readStuck (s : State) (v : Via) (p : Nat) : Bool :=
  s.bankHeld v p || s.bankCut v p || (homed p && (s.hostOwns p || !(match s.viaAt v p with
    | .l1 core => s.l1 core (lineOf p) != 0 || s.poolHit core (lineOf p) || s.dieReads (.l1 core) (dieOfCore core) (lineOf p)
    | .l2 d => s.dieReads (.l2 d) d (lineOf p)
    | .mx core => s.dieReads (.mx core) (dieOfCore core) (lineOf p)
    | .held => true
    | .home => s.accepts .home (lineOf p) && s.homeOpen [] (lineOf p) false)))

/-- Whether a read of a line waits: for a tile that holds it (R190), or for something else. -/
def State.readWaits (s : State) (v : Via) (p : Nat) : Bool := s.tileHolds p || s.readStuck v p

/-- Whether a write of a line waits, apart from tiles and a change of CSPLIT (R269, R273 to R275, R307, R400). -/
def State.writeStuck (s : State) (v : Via) (p : Nat) : Bool :=
  s.bankCut v p || (homed p && (s.hostHolds p || !(match s.viaWrite v p with
    | .l1 core => decide (s.l1 core (lineOf p) ≥ 2) || s.dieOwns (.l1 core) (dieOfCore core) (lineOf p)
    | .l2 d => s.dieOwns (.l2 d) d (lineOf p)
    | .mx core => s.dieOwns (.mx core) (dieOfCore core) (lineOf p)
    | .held => true
    | .home => s.accepts .home (lineOf p) && s.homeOpen [] (lineOf p) false)))

/-- Whether a write of a line waits, apart from a change of CSPLIT (R190, R269, R273 to R275, R307). -/
def State.lineWaits (s : State) (v : Via) (p : Nat) : Bool := s.tileHolds p || s.writeStuck v p

/-- Whether a write at a place waits: for its line, or for the change of CSPLIT that holds its bank (R258). -/
def State.writeWaits (s : State) (v : Via) (p : Nat) : Bool := s.lineWaits v p || s.bankHeld v p

/-! ### What a wait leaves at the queues -/

/-- BISnp goes to the host for what it holds of a line: for both halves before a write or an eviction, and for those that it
owns before a read; one that is outstanding is not sent again (R307) (DEDUCED, log entry 23). -/
def askHost (write : Bool) (line : Nat) (s : State) : State :=
  let e := s.dirOf line
  let ask := fun (pa : Nat) (h : HostTake) (s : State) =>
    if (h == .owned || (write && h == .shared)) && !s.snoops.contains pa then
      { s with snoops := pa :: s.snoops, outbox := s.outbox ++ [.bisnp pa] }
    else s
  ask (line + 64) e.upper (ask line e.host s)

/-- The host is asked for the victim of a full set (R274, R307) (DEDUCED, log entry 23). -/
def askVictim (line : Nat) (s : State) : State :=
  match (if s.filterFull line then s.filterVictim line else none) with
  | some v => askHost true v s
  | none => s

/-- Whether a wait is for tiles that hold the line, or pin every way of its set: its request has not entered a queue, for those
tiles need the queues too (R190, R275) (DESIGN CHOICE, log entry 1). -/
def State.pinWait (s : State) (v : Via) (p : Nat) : Bool :=
  s.tileHolds p || (v.die.isSome && s.filterFull (lineOf p) && (s.filterVictim (lineOf p)).isNone)

/-- An access that waits for its line has sent its request, where the queues take it: it holds its entries from here on, and
the host is asked for what it holds (R269, R307, R347) (DESIGN CHOICE, log entry 1). -/
def noteMiss (v : Via) (own : Bool) (p : Nat) (s : State) : State :=
  let line := lineOf p
  let v := if own then s.viaWrite v p else s.viaAt v p
  if !homed p || v == .held || s.pinWait v p then s
  else if s.missed v line then
    let more := fun (m : Miss) => if m.via == v && m.line == line then { m with own := m.own || own } else m
    askHost own line { s with misses := s.misses.map more }
  else if s.queuesOpen v.die line then
    let s := acceptBoth v.die line (dropMiss v line s)
    askHost own line ((if v.die.isSome then askVictim line else id)
      { s with misses := s.misses ++ [{ via := v, line := line, own := own }] })
  else s

/-- What an act that waits has left at the queues is kept, and nothing else of it (R307, R347)
(DESIGN CHOICE, log entry 1). -/
def keepMisses (s s' : State) : State :=
  (s'.misses.filter fun m => !m.got && !s.misses.contains m).foldl (fun s m => noteMiss m.via m.own m.line s) s

/-- The line that a waiting request asks for is supplied, where it can be now: its entries are free, and its access finds what it
brought (R347) (DESIGN CHOICE, log entry 1). -/
def supplyMiss (s : State) (m : Miss) : State :=
  if m.got || (if m.own then s.writeWaits m.via m.line else s.readWaits m.via m.line) then s
  else
    let s := if m.own then lineWritten m.via m.line s else lineRead m.via 1 m.line s
    let s := dropMiss m.via m.line s
    { s with misses := s.misses ++ [{ m with got := true }] }

/-- The waiting requests whose lines can be supplied now. -/
def supplyMisses (s : State) : State := s.misses.foldl supplyMiss s

end Sys2Proof.Machine
end

