-- ==== Sys2Proof/Machine/Mem.lean ====
section
/-!
DEFINITION. How an address reaches a byte: the page walk and its caches (16 R366 to R368,
17 R385), the generic address map (09 R261 to R265), reads and writes at their place, the line-watch units (R285), and
the constant path (07 R179, 04 R80).
-/

namespace Sys2Proof.Machine

open Sys2Proof

/-! ### Launch records -/

/-- `n` bytes at an offset of a launch's record, as a number (R360). -/
def Launch.f (l : Launch) (off n : Nat) : Nat := leNat ((l.record.drop off).take n)

/-- PBASE (R360). -/
def Launch.pbase (l : Launch) : Nat := l.f 0x60 8 % 2 ^ 57

/-- PSIZE (R360). -/
def Launch.psize (l : Launch) : Nat := l.f 0x68 4

/-- DET (R360). -/
def Launch.det (l : Launch) : Bool := l.f 0 2 / 256 % 2 == 1

/-- PLT: PeerLost traps enabled (R360). -/
def Launch.plt (l : Launch) : Bool := l.f 0 2 / 1024 % 2 == 1

/-- MAT: MessageAbsent traps enabled (R360). -/
def Launch.mat (l : Launch) : Bool := l.f 0 2 / 2048 % 2 == 1

/-- LVL: the launch carries a level table (R360). -/
def Launch.lvlT (l : Launch) : Bool := l.f 0 2 / 512 % 2 == 1

/-- PTROOT (R360). -/
def Launch.ptroot (l : Launch) : Nat := l.f 0x08 8 % 2 ^ 52 / 4096 * 4096

/-- ASID (R359). -/
def Launch.asid (l : Launch) : Nat := l.f 2 2

/-- Whether a launch holds its cores: it is Loading, Running, Frozen or Ending (R322). -/
def Launch.active (l : Launch) : Bool :=
  l.st == .loading || l.st == .running || l.st == .frozen || l.st == .ending

/-! ### Who makes an access -/

/-- The number that names no launch: the exported address space belongs to none (R380). -/
def noLaunch : Nat := 1048576

/-- A context as the maker of an access. -/
def State.envOf (s : State) (key : Nat) : Env :=
  let c := s.ctx key
  let l := s.launch c.launch
  { core := coreOfKey key, tlb := true, launch := c.launch, ptroot := l.ptroot, asid := l.asid, priv := c.priv,
    mig := c.mig, pslot := c.pslot, imageOf := c.imageOf }

/-! ### Writes at their place -/

/-- A write remembered for the constant path, without more. -/
def logWrite (p n : Nat) (s : State) : State :=
  if p < 2 ^ 52 then
    { s with wlog := { n := s.wlog.length + 1, place := p, old := s.bytes p n } :: s.wlog }
  else s

/-- A source id (R286). -/
def sourceId (kind dev die cl core ctx nm1 off : Nat) : Word :=
  BitVec.ofNat 64 (kind % 16 * 2 ^ 60 + dev % 2048 * 2 ^ 49 + die % 8 * 2 ^ 46 + cl % 64 * 2 ^ 40 + core % 8 * 2 ^ 37 +
    ctx % 16 * 2 ^ 33 + nm1 % 128 * 2 ^ 8 + off % 128)

/-- This device's id (R380). -/
def State.devId (s : State) : Nat := field (Tbl.get 0 s.regs 0x700000) 0 11

/-- DOM.EN (R380). -/
def State.domEn (s : State) : Bool := (Tbl.get 0 s.regs 0x700000).getLsbD 63

/-- What a line-watch unit does for one write (R285). -/
def watchUnit (d u : Nat) (src : Word) (s : State) : State :=
  let ctl := Tbl.get 0 (s.die d).lwctl u
  let n := Tbl.get 0 (s.die d).lwcnt u
  let s := s.modDie d fun k =>
    { k with lwsrc := Tbl.set 0 k.lwsrc u src
             lwcnt := Tbl.set 0 k.lwcnt u (if n = BitVec.allOnes 64 then n else n + 1)
             lwctl := if ctl.getLsbD 16 then Tbl.set 0 k.lwctl u (ctl &&& ~~~1#64) else k.lwctl }
  if ctl.getLsbD 1 then fireLine (d * 64 + field ctl 8 6) (field ctl 2 6) src s else s

/-- The units that watch the line of a physical address see a write of `n` bytes (R285). -/
def watchLine (w : Source) (p n : Nat) (s : State) : State :=
  if decide (p < 2 ^ 52) then
    match homeDie p with
    | none => s
    | some d =>
      let src :=
        if let some n := w.own then Config.freeSource n
        else if w.kind = 3 ∨ w.kind = 4 then sourceId w.kind 0 w.die 0 0 0 (n - 1) (p % 128)
        else sourceId w.kind w.dev w.die w.cl w.core w.ctx (n - 1) (p % 128)
      (List.range 8).foldl (fun s u =>
        let k := s.die d
        if (Tbl.get 0 k.lwctl u).getLsbD 0 && field (Tbl.get 0 k.lwaddr u) 7 45 == p / 128 then watchUnit d u src s
        else s) s
  else s

/-- Bytes within one line are written at their place (R292) (DESIGN CHOICE, log entry 6). -/
def State.store (s : State) (w : Source) (p : Nat) (bs : List Byte) : State :=
  if bs.isEmpty then s else watchLine w p bs.length ((logWrite p bs.length (lineWritten w.via p s)).setBytes p bs)

/-- A read waits for its line, its request in the queues (R190, R269, R273, R307, R347). -/
def lineFree (v : Via) (p : Nat) : M Unit := do
  if (← get).readWaits v p then
    modify (noteMiss v false p)
    heldAgain

/-- A write waits for its line, its request in the queues (R190, R269, R273, R307, R347). -/
def lineWritable (v : Via) (p : Nat) : M Unit := do
  if (← get).writeWaits v p then
    modify (noteMiss v true p)
    heldAgain

/-- Lines are read one after the other through the caches, one request for each (R346); one that cannot be waits. -/
def readLines (via : Via) (ch : Nat) : List Nat → M Unit
  | [] => return ()
  | p :: t => do
    lineFree via p
    modify (lineRead via ch p)
    readLines via ch t

/-! ### The page walk -/

/-- The kinds of access, with the SUB of PagePermission (R42). -/
def accRead : Nat := 1
/-- A write. -/
def accWrite : Nat := 2
/-- A fetch. -/
def accExec : Nat := 3
/-- An atomic. -/
def accAtomic : Nat := 4
/-- A write of the hardware to a table of a launch, whose pages are read-only for everybody else (R323). -/
def accTable : Nat := 5

/-- Whether a leaf grants a kind of access at a privilege (R367). -/
def leafGrants (leaf : Word) (kind priv : Nat) : Bool :=
  let r := leaf.getLsbD 2
  let w := leaf.getLsbD 3
  let x := leaf.getLsbD 4
  (if kind = accRead ∨ kind = accTable then r else if kind = accWrite then w else if kind = accExec then x else r && w) &&
    (!leaf.getLsbD 5 || priv != 0)

/-- Whether a kind of access sets D. -/
def needsDirty (kind : Nat) : Bool := kind == accWrite || kind == accAtomic || kind == accTable

/-- The physical address that a leaf of a size gives (R367). -/
def leafAddr (leaf : Word) (size va : Nat) : Nat := field leaf 12 40 * 4096 / 2 ^ size * 2 ^ size + va % 2 ^ size

/-- Whether a translation-cache entry translates an address for an ASID (R366, R367). -/
def TlbEnt.hits (t : TlbEnt) (va asid : Nat) : Bool :=
  va / 2 ^ t.size * 2 ^ t.size == t.va && (t.asid == asid || t.leaf.getLsbD 59)

/-- The entry of the translation caches that an access uses: the DTLB first, then the cluster's
(DESIGN CHOICE, log entry 7). -/
def State.tlbFind (s : State) (e : Env) (va kind : Nat) : Option TlbEnt :=
  if !e.tlb then none
  else
    let ok := fun (t : TlbEnt) => t.hits va e.asid && (t.leaf.getLsbD 7 || !needsDirty kind)
    match (if kind = accExec then none else (s.core e.core).dtlb.find? ok) with
    | some t => some t
    | none => (s.cluster (clusterOfCore e.core)).tlb.find? ok

/-- The first `n` members of a set stay in a cache, and every line of other sets (R368). -/
def keepWays {α : Type} (same : α → Bool) : Nat → List α → List α
  | _, [] => []
  | n, x :: t =>
    if same x then (if n = 0 then keepWays same 0 t else x :: keepWays same (n - 1) t) else x :: keepWays same n t

/-- The set of the cluster's TLB that an entry belongs to: 2,048 entries in 8 ways (R368) (DESIGN CHOICE, log entry 7). -/
def TlbEnt.index (t : TlbEnt) : Nat := t.va / 2 ^ t.size % 256

/-- The set of the walk cache that an entry belongs to: 256 entries in 8 ways (R368) (DESIGN CHOICE, log entry 7). -/
def WalkEnt.index (w : WalkEnt) : Nat := w.tag % 32

/-- A leaf enters the caches (R368): the cluster's TLB, and the core's DTLB for data. An entry for the same page goes, and
the oldest of a full set (DESIGN CHOICE, log entry 7). -/
def tlbFill (e : Env) (kind : Nat) (t : TlbEnt) (s : State) : State :=
  if !e.tlb then s
  else
    let keep := fun (l : List TlbEnt) => l.filter fun u => !(u.va == t.va && u.size == t.size && u.asid == t.asid)
    let s := s.modCluster (clusterOfCore e.core) fun c =>
      let ts := t :: keepWays (fun u => u.index == t.index) 7 (keep c.tlb)
      { c with tlb := ts }
    if kind = accExec then s else s.modCore e.core fun k => { k with dtlb := (t :: keep k.dtlb).take 64 }

/-- A table entry enters the walk cache (R385) (DESIGN CHOICE, log entry 7). -/
def walkFill (e : Env) (w : WalkEnt) (s : State) : State :=
  if !e.tlb then s
  else s.modCluster (clusterOfCore e.core) fun c =>
    let rest := c.walk.filter fun u => !(u.level == w.level && u.asid == w.asid && u.tag == w.tag)
    { c with walk := w :: keepWays (fun u => u.index == w.index) 7 rest }

/-- The deepest walk-cache hit: how many levels are left to read, and the table to start from (R385)
(DESIGN CHOICE, log entry 7). -/
def State.walkStart (s : State) (e : Env) (va : Nat) : Nat × Nat :=
  let hit := fun (l : Nat) =>
    if e.tlb then (s.cluster (clusterOfCore e.core)).walk.find? fun w =>
      w.level == l && w.asid == e.asid && w.tag == va / 2 ^ (12 + 9 * l)
    else none
  match hit 1 with
  | some w => (1, w.table)
  | none =>
    match hit 2 with
    | some w => (2, w.table)
    | none =>
      match hit 3 with
      | some w => (3, w.table)
      | none =>
        match hit 4 with
        | some w => (4, w.table)
        | none => (5, e.ptroot)

/-- Whether a leaf is one that R367 refuses with PageReserved. -/
def leafReserved (lvl : Nat) (w : Word) : Bool :=
  let mt := field w 9 3
  let pa := field w 12 40 * 4096
  decide (lvl ≥ 2) || (lvl == 1 && (w.getLsbD 8 || field w 12 9 != 0)) || decide (mt > 4) ||
    (w.getLsbD 3 && !w.getLsbD 2) ||
    (match physKind pa with
      | some 2 => mt != 2 && mt != 3
      | some k => mt != k
      | none => false)

/-- The walker of a core as a writer of A and D (R286, R367) (DEDUCED, log entry 8). -/
def walker (e : Env) (s : State) : Source :=
  { kind := 0, dev := s.devId, die := dieOfCore e.core, cl := clusterOfCore e.core % 64, core := e.core % 8 }

/-- A page table lies in memory that is populated, and homed on a die that answers (R267, R401). -/
def tableAlive (p va : Nat) : M Unit := do
  if (physKind p).isNone then faultAt 23 0xFF (BitVec.ofNat 64 p) va
  else if (← get).lostPhys p then faultAt 23 0xFE (BitVec.ofNat 64 p) va

/-- The walk of R367 from a table with `n` levels left to read; the level read is n − 1 (DEDUCED, log entry 8). -/
def walk (e : Env) (va kind : Nat) : Nat → Nat → M TlbEnt
  | 0, _ => fault 7 0 (BitVec.ofNat 64 va)
  | lvl + 1, a => do
    let p := a + 8 * (va / 2 ^ (12 + 9 * lvl) % 512)
    tableAlive p va
    lineFree .home p
    modify (lineRead .home 0 p)
    let w := BitVec.ofNat 64 (leNat ((← get).bytes p 8))
    if !w.getLsbD 0 then fault 5 lvl (BitVec.ofNat 64 va)
    else if field w 52 7 != 0 then fault 7 lvl (BitVec.ofNat 64 va)
    else if w.getLsbD 1 then
      if lvl = 0 then fault 7 0 (BitVec.ofNat 64 va)
      else
        let t := field w 12 40 * 4096
        modify (walkFill e { level := lvl, asid := e.asid, tag := va / 2 ^ (12 + 9 * lvl), table := t })
        walk e va kind lvl t
    else if leafReserved lvl w then fault 7 lvl (BitVec.ofNat 64 va)
    else if w.getLsbD 60 then heldAgain
    else if !leafGrants w kind e.priv then fault 6 kind (BitVec.ofNat 64 va)
    else
      let w' := w ||| 0x40#64 ||| (if needsDirty kind then 0x80#64 else 0#64)
      if w' != w then
        lineWritable .home p
        modify fun s => s.store (walker e s) p (leBytes 8 w'.toNat)
      let size := if lvl = 1 then 21 else if w.getLsbD 8 then 16 else 12
      let t : TlbEnt := { va := va / 2 ^ size * 2 ^ size, size := size, asid := e.asid, leaf := w' }
      modify (tlbFill e kind t)
      return t

/-- Whether an address lies in a page of the level table of a launch that runs: the launch maps those pages read-only
(R323) (DEDUCED, log entry 49). -/
def State.levelPage (s : State) (launch va : Nat) : Bool :=
  let l := s.launch launch
  let lo := l.f 0x40 8 % 2 ^ 57
  let n := 64 * (l.f 0x48 4 % 2 ^ 17)
  l.active && l.lvlT && decide (n ≠ 0 ∧ lo / 4096 ≤ va / 4096 ∧ va / 4096 ≤ (lo + n - 1) / 4096)

/-- Translate of R367: the physical address and the memory type (DEDUCED, log entry 8). -/
def translate (e : Env) (va kind : Nat) : M (Nat × Nat) := do
  let s ← get
  if needsDirty kind && kind != accTable && s.levelPage e.launch va then fault 6 kind (BitVec.ofNat 64 va)
  match s.tlbFind e va kind with
  | some t =>
    if leafGrants t.leaf kind e.priv then return (leafAddr t.leaf t.size va, field t.leaf 9 3)
    else fault 6 kind (BitVec.ofNat 64 va)
  | none =>
    let (n, a) := s.walkStart e va
    let t ← walk e va kind n a
    return (leafAddr t.leaf t.size va, field t.leaf 9 3)

/-! ### Generic addresses -/

/-- Where an address leads: a physical address with its memory type, a byte of a scratchpad or cluster memory, a device
register, an event unit, a parameter window, or the Tvedlon window. -/
inductive Loc where
  | mem (pa mt : Nat)
  | bank (p : Nat)
  | regs (off : Nat)
  | event (cl off : Nat) (peer : Bool)
  | param (w o : Nat)
  | window (va : Nat)
  deriving DecidableEq, Repr

/-- Bytes of a core's scratchpad (R257). -/
def State.scratchSize (s : State) (core : Nat) : Nat := (8 - (s.core core).split.toNat) * 65536

/-- Whether a core's launch is switched out and no other launch runs there (R375). -/
def State.awayCore (s : State) (core : Nat) : Bool :=
  s.launches.any (fun p => p.2.st == .switched && p.2.cores.contains core) &&
    !s.launches.any (fun p => p.2.active && p.2.cores.contains core)

/-- The image that an access which names a core is forwarded to, if any (R379): that of the launch which was vacated there, or
the last one for another device while no launch runs there (DEDUCED, log entry 45). -/
def State.forwarded (s : State) (core launch : Nat) : Option (List Nat) :=
  match (s.launch launch).image core with
  | some ps => some ps
  | none =>
    if launch == noLaunch && !s.launches.any fun p => p.2.active && p.2.cores.contains core then
      s.launches.findSome? fun p => p.2.image core
    else none

/-- Aperture (R42) (DEDUCED, log entry 21). -/
def apertureFault {α : Type} (sub va : Nat) : M α := fault 10 sub (BitVec.ofNat 64 va)

/-- A bank of a lost die (R401). -/
def aliveBank (va die p : Nat) : M Loc := do
  if ((← get).die die).dead then faultAt 23 0xFE (Config.freeLine p) va else return .bank p

/-- The event unit of a cluster, whose die may be lost (R401). -/
def eventLoc (va cl o : Nat) (peer : Bool) : M Loc := do
  if ((← get).die (dieOfCluster cl)).dead then faultAt 23 0xFE (Config.freeLine (placeCluster cl 0)) va
  else return .event cl o peer

/-- A physical address as a place (R267, R401). -/
def physLoc (va pa mt : Nat) : M Loc := do
  match physKind pa with
  | none => faultAt 23 0xFF (BitVec.ofNat 64 pa) va
  | some 4 => return .regs (pa - regBase)
  | some _ =>
    if (← get).lostPhys pa then faultAt 23 0xFE (BitVec.ofNat 64 pa) va else return .mem pa mt

/-- Bytes of a core's scratchpad, or of its image (R257, R379). -/
def State.scratchLimit (s : State) (core : Nat) : Option (List Nat) → Nat
  | some ps => 4096 * ps.length
  | none => s.scratchSize core

/-- A byte of a core's scratchpad as a place: in the bank, or in the image (R262, R379). -/
def scratchLoc (va core o : Nat) : Option (List Nat) → M Loc
  | some ps =>
    let p := ps.getD (o / 4096) 0 + o % 4096
    physLoc va p ((physKind p).getD 0)
  | none => aliveBank va (dieOfCore core) (placeCore core o)

/-- The private aperture maps into the translated space (R138, R262). -/
def Env.privateVa (e : Env) (l : Launch) (o : Nat) : Nat := (l.pbase + e.pslot * l.psize + o) % 2 ^ 57

/-- Where `n` bytes at a generic address lie, for a kind of access (R261 to R265). The bytes lie within one aligned
block of at most 4 KiB. -/
def resolve (e : Env) (va n kind : Nat) : M Loc := do
  let space := va / 2 ^ 55 % 4
  if space = 0 then
    let (pa, mt) ← translate e va kind
    physLoc va pa mt
  else if space = 1 then
    let sel := va / 2 ^ 52 % 8
    let o := va % 2 ^ 52
    let s ← get
    match sel with
    | 0 =>
      let image := e.imageOf.bind (s.launch e.launch).image
      if e.mig then apertureFault 0 va
      else if o + n ≤ s.scratchLimit e.core image then scratchLoc va e.core o image
      else apertureFault 0 va
    | 1 => if o + n ≤ 0x200000 then aliveBank va (dieOfCore e.core) (placeCluster (clusterOfCore e.core) o)
           else apertureFault 1 va
    | 2 => if o + n ≤ 0x4000000 then aliveBank va (dieOfCore e.core) (placeDie (dieOfCore e.core) o)
           else apertureFault 2 va
    | 3 =>
      let l := s.launch e.launch
      if o + n ≤ l.psize then
        let (pa, mt) ← translate e (e.privateVa l o) kind
        physLoc va pa mt
      else apertureFault 3 va
    | 4 => eventLoc va (clusterOfCore e.core) o false
    | 5 => return .param (o / 2 ^ 48) (o % 2 ^ 48)
    | k => apertureFault k va
  else if space = 2 then
    let die := va / 2 ^ 53 % 4
    let cl := va / 2 ^ 47 % 64
    let core := va / 2 ^ 44 % 8
    let o := va % 2 ^ 41
    let s ← get
    match va / 2 ^ 41 % 8 with
    | 0 =>
      let k := die * 512 + cl * 8 + core
      let image := s.forwarded k e.launch
      if !s.awayCore k && decide (o + n ≤ s.scratchLimit k image) then scratchLoc va k o image
      else apertureFault 9 va
    | 1 => if core = 0 ∧ o + n ≤ 0x200000 then aliveBank va die (placeCluster (die * 64 + cl) o) else apertureFault 9 va
    | 2 => if core = 0 ∧ cl = 0 ∧ o + n ≤ 0x4000000 then aliveBank va die (placeDie die o) else apertureFault 9 va
    | 3 => if core = 0 then eventLoc va (die * 64 + cl) o true else apertureFault 9 va
    | _ => apertureFault 9 va
  else return .window va

/-- The address of a Tvedlon-window access names a device (R265). -/
def windowDev (va : Nat) : Nat := va / 2 ^ 44 % 2048

/-! ### Reads and writes at their place -/

/-- A context as a writer (R286). -/
def State.sourceOf (s : State) (key : Nat) : Source :=
  let k := coreOfKey key
  { kind := 0, dev := s.devId, die := dieOfCore k, cl := clusterOfCore k % 64, core := k % 8, ctx := slotOfKey key
    via := .l1 k }

/-- The marks of bytes from a place: those of a copied line (R239). -/
def State.setMarks (s : State) (p : Nat) : List Nat → State
  | [] => s
  | m :: ms => State.setMarks { s with marks := Tbl.set 0 s.marks p m } (p + 1) ms

/-- Bytes of one line written at scattered offsets as one write (R80, R183): the cells in ascending order of place. -/
def State.storeCells (s : State) (w : Source) (cells : List (Nat × Byte)) : State :=
  match cells with
  | [] => s
  | (p, _) :: _ =>
    let hi := (cells.getLast?.map (·.1)).getD p
    watchLine w p cells.length
      (cells.foldl (fun s c => s.setByte c.1 c.2) (logWrite p (hi + 1 - p) (lineWritten w.via p s)))

/-- The runs of bytes of a line that a mask leaves: offset and bytes. -/
def maskRuns (skip : List Nat) : Nat → List Byte → List (Nat × List Byte)
  | _, [] => []
  | i, b :: bs =>
    let rest := maskRuns skip (i + 1) bs
    if skip.contains i then rest
    else
      match rest with
      | (j, cs) :: t => if j = i + 1 then (i, b :: cs) :: t else (i, [b]) :: rest
      | [] => [(i, [b])]

/-- The cells of runs of bytes. -/
def runCells (runs : List (Nat × List Byte)) : List (Nat × Byte) :=
  runs.flatMap fun r => r.2.zipIdx.map fun b => (r.1 + b.2, b.1)

/-- Whether a store of a context is posted, no line of a copy and no marker, and not committed yet (R173). -/
def Post.pending (q : Post) (key : Nat) : Bool :=
  q.key == key && q.st != .committed && q.marker.isNone && q.copy.isNone

/-- Whether a posted store of a context of this package is still to be performed at its place (R173). -/
def Post.unperformed (q : Post) (key : Nat) : Bool := q.pending key && decide (q.dest ≥ 2048)

/-- Whether a posted store whose bytes start at `base` writes the byte at `i`. -/
def Post.writes (q : Post) (base i : Nat) : Bool :=
  decide (base ≤ i ∧ i < base + q.bytes.length) && !q.skip.contains (i - base)

/-- Whether a posted store of a context that has not committed writes one of `n` bytes from a place (R173). -/
def State.ownPost (s : State) (key p n : Nat) : Bool :=
  s.posts.any fun q => q.unperformed key && (List.range n).any fun i => q.writes q.place (p + i)

/-- The bytes of `n` places with a context's own posted stores laid over them in program order (R173). -/
def State.ownBytes (s : State) (key p n : Nat) : List Byte :=
  let qs := s.posts.filter (·.unperformed key)
  (List.range n).map fun i =>
    qs.foldl (fun (b : Byte) q => if q.writes q.place (p + i) then q.bytes.getD (p + i - q.place) 0 else b) (s.byte (p + i))

/-- The marks of `n` places as a context reads them: its own posted stores leave none (R173, R175). -/
def State.ownMarks (s : State) (key p n : Nat) : List Nat :=
  let qs := s.posts.filter (·.unperformed key)
  (List.range n).map fun i => if qs.any fun q => q.writes q.place (p + i) then 0 else s.byteMark (p + i)

/-- The first mark among `n` places as a context reads them, 0 for none. -/
def State.ownMark (s : State) (key p n : Nat) : Nat :=
  if s.ownPost key p n then ((s.ownMarks key p n).find? (· != 0)).getD 0 else s.firstMark p n

/-! ### The constant path -/

/-- A byte as it stood when `k` writes had been made: later writes are taken back, newest first. -/
def oldByte (p k : Nat) : List Wrote → Byte → Byte
  | [], b => b
  | w :: ws, b =>
    if w.n ≤ k then b
    else oldByte p k ws (if w.place ≤ p ∧ p < w.place + w.old.length then w.old.getD (p - w.place) 0 else b)

/-- The numbers of the writes after `floor` that touch one of some places, newest first. -/
def touching (ps : List Nat) (floor : Nat) (log : List Wrote) : List Nat :=
  (log.filter fun w => decide (floor < w.n) && ps.any fun p => decide (w.place ≤ p ∧ p < w.place + w.old.length)).map (·.n)

/-- A read of the constant path (R179, R80): where writes since the floor touch the bytes, which of the values is
returned is a free choice, one for the whole access. The answer's second part is how many of all writes the value
reflects (DEDUCED, log entry 11). -/
def constRead (ps : List Nat) (floor : Nat) : M (List Byte × Nat) := do
  let s ← get
  match touching ps floor s.wlog with
  | [] => return (ps.map s.byte, floor)
  | ns =>
    let i := Config.freeOld (← freeNext) % (ns.length + 1)
    let k := if i = 0 then ns.headD 0 else ns.getD (i - 1) 1 - 1
    return (ps.map fun p => oldByte p k s.wlog (s.byte p), k)

/-- The places of `n` bytes from one. -/
def placesFrom (p n : Nat) : List Nat := (List.range n).map (p + ·)

/-- The floor of a context's `ldk` reads of some places: its fences and what it has read there before (R139, R179)
(DEDUCED, log entry 11). -/
def Ctx.constFloor (c : Ctx) (ps : List Nat) : Nat :=
  ps.foldl (fun m p => max m (Tbl.get 0 c.kview p)) c.kfloor

/-- A read of the constant path by the current context, which never goes back (R179). -/
def constReadCur (ps : List Nat) : M (List Byte) := do
  let s ← get
  let (bs, k) ← constRead ps ((s.ctx s.cur).constFloor ps)
  if !s.wlog.isEmpty then
    modify fun s => s.modCtx s.cur fun c => { c with kview := ps.foldl (fun t p => Tbl.set 0 t p k) c.kview }
  return bs

end Sys2Proof.Machine
end

