-- ==== Sys2Proof/Machine/Lanes.lean ====
section
/-!
DEFINITION. The lane arbiter of a cluster (11 R315, R316; 01 R17 to R20): grants, requests, reservations and the order of
waiting claimants.
-/

namespace Sys2Proof.Machine

open Sys2Proof

/-- The unit id of a lane group (R402). -/
def laneUnit (cl g : Nat) : BitVec 32 :=
  BitVec.ofNat 32 (2 * 2 ^ 28 + dieOfCluster cl * 2 ^ 25 + cl % 64 * 8 + g)

/-- Lane groups in service in a cluster: eight, less the retired ones (R315, R406). -/
def State.poolSize (s : State) (cl : Nat) : Nat :=
  8 - ((List.range 8).filter fun g => s.retired (laneUnit cl g)).length

/-- The live contexts of a cluster. -/
def State.clusterCtxs (s : State) (cl : Nat) : List Nat :=
  (s.ctxs.filter fun p => clusterOfCore (coreOfKey p.1) == cl && p.2.live).map (·.1)

/-- A waiting claimant: its request exceeds its grant since a `vclaim` left it short (R315). -/
def Ctx.claimant (c : Ctx) : Bool := decide (c.grant < c.request) && c.waitSince.isSome

/-- Lane groups that nobody holds or has reserved. Groups that an `eret` has yet to claim back are free. -/
def State.freeGroups (s : State) (cl : Nat) : Nat :=
  s.poolSize cl - ((s.clusterCtxs cl).map fun k => (s.ctx k).grant + (s.ctx k).reserved).sum

/-- A key put into a list in the order of the wait of claimants. -/
def insertWait (s : State) (k : Nat) : List Nat → List Nat
  | [] => [k]
  | j :: t => if (s.ctx k).waitSince.getD 0 < (s.ctx j).waitSince.getD 0 then k :: j :: t else j :: insertWait s k t

/-- The waiting claimants of a cluster in wait order (R315). -/
def State.claimants (s : State) (cl : Nat) : List Nat :=
  ((s.clusterCtxs cl).filter fun k => (s.ctx k).claimant).foldl (fun l k => insertWait s k l) []

/-- The fair share T (R315). -/
def State.fairShare (s : State) (cl : Nat) : Nat :=
  let n := ((s.clusterCtxs cl).filter fun k => decide ((s.ctx k).request > 0)).length
  if n = 0 then s.poolSize cl else max 1 (s.poolSize cl / n)

/-- What the other waiting claimants are short of (R315). -/
def State.shortOf (s : State) (key : Nat) : Nat :=
  let cl := clusterOfCore (coreOfKey key)
  let t := s.fairShare cl
  (((s.claimants cl).filter (· != key)).map fun w =>
    min (s.ctx w).request t - (s.ctx w).grant - (s.ctx w).reserved).sum

/-- SR.VS of a context (R316). -/
def State.vs (s : State) (key : Nat) : Bool :=
  decide (s.shortOf key > 0) && decide ((s.ctx key).grant > s.fairShare (clusterOfCore (coreOfKey key)))

/-- SR as an instruction reads it: VS comes from the arbiter (R22, R316). -/
def State.srOf (s : State) (key : Nat) : Word :=
  setField (s.ctx key).sr 7 1 (if s.vs key then 1 else 0)

/-- Only the lanes below `n` keep their contents (R17, R18). -/
def Ctx.keepLanes (c : Ctx) (n : Nat) : Ctx :=
  { c with v := c.v.filter fun p => decide (p.1 % 256 < n)
           vp := c.vp.filter fun p => decide (p.1 % 256 < n)
           sl := c.sl.filter fun p => decide (p.1 / 2048 < n)
           slp := c.slp.filter fun p => decide (p.1 / 2048 < n) }

/-- A grant set to `g` lane groups: lanes above it are lost, and added lanes arrive zeroed (R17, R18). -/
def Ctx.setGrant (c : Ctx) (g : Nat) : Ctx :=
  { (c.keepLanes (32 * min g c.grant)) with grant := g }

/-- A context whose grant has reached its request waits no longer (R315). -/
def Ctx.settle (c : Ctx) : Ctx := if c.request ≤ c.grant then { c with waitSince := none } else c

/-- `n` groups are reserved to waiting claimants in wait order, each up to the limit that `lim` gives it. -/
def reserveTo (lim : Ctx → Nat) : List Nat → Nat → State → State
  | [], _, s => s
  | w :: ws, n, s =>
    let c := s.ctx w
    let k := min n (lim c - c.grant - c.reserved)
    reserveTo lim ws (n - k) (s.modCtx w fun c => { c with reserved := c.reserved + k })

/-- The lane groups that the `eret` under way of a context still claims back (R20). -/
def Ctx.owes (c : Ctx) : Nat := if c.wait == .reclaim then c.spillBase + c.spilled - c.grant else 0

/-- The lane groups that the waiting `eret`s of a cluster claim back (R20, R316). -/
def State.owed (s : State) (cl : Nat) : Nat := ((s.clusterCtxs cl).map fun k => (s.ctx k).owes).sum

/-- Free groups go to the reservations of waiting claimants (R315). An `eret` that waits for its lanes comes first
(R316). -/
def handOut (cl : Nat) (s : State) : State :=
  reserveTo (·.request) (s.claimants cl) (s.freeGroups cl - s.owed cl) s

/-- Groups that a claim may take: the free ones, less those that an `eret` waits for (R20, R316). -/
def State.claimable (s : State) (cl : Nat) : Nat := s.freeGroups cl - s.owed cl

/-- A context takes its reservation and then free groups, up to its request (R315). -/
def takeGroups (key : Nat) (s : State) : State :=
  let cl := clusterOfCore (coreOfKey key)
  let c := s.ctx key
  let s := s.setCtx key { c with reserved := 0 }
  let got := min (c.request - c.grant) (c.reserved + (s.claimable cl - c.reserved))
  s.modCtx key fun c => (c.setGrant (c.grant + got)).settle

/-- Renegotiate of R315. The lanes removed are lost unless the caller has spilled them. -/
def renegotiate (key : Nat) (s : State) : State :=
  let cl := clusterOfCore (coreOfKey key)
  let t := s.fairShare cl
  let short := s.shortOf key
  let g := (s.ctx key).grant
  let s :=
    if short > 0 ∧ g > t then
      let cut := min (g - t) short
      reserveTo (fun c => min c.request t) ((s.claimants cl).filter (· != key)) cut
        (s.modCtx key fun c => c.setGrant (g - cut))
    else s
  let s := s.modCtx key fun c => if c.request < c.grant then c.setGrant c.request else c
  handOut cl ((takeGroups key s).modCtx key Ctx.settle)

/-- How many groups a renegotiation would leave a context (the count is a function of counts alone). -/
def renegotiated (key : Nat) (s : State) : Nat := ((renegotiate key s).ctx key).grant

/-- `vclaim` of R137: the request is recorded, and free groups join the grant at once. A claimant that lowers its request
and stays short begins a new wait (R315). -/
def claimLanes (key req : Nat) (s : State) : State :=
  let since := if req < (s.ctx key).request then none else (s.ctx key).waitSince
  let s := s.modCtx key fun c => { c with request := req }
  let s := takeGroups key s
  s.modCtx key fun c =>
    if c.grant < c.request then { c with waitSince := some (since.getD s.clock) } else { c with waitSince := none }

/-- A context gives back its whole grant, its request and its reservations (R18, R135). -/
def releaseLanes (key : Nat) (s : State) : State :=
  handOut (clusterOfCore (coreOfKey key))
    (s.modCtx key fun c =>
      { (c.setGrant 0) with request := 0, reserved := 0, waitSince := none, spilled := 0 })

end Sys2Proof.Machine
end

