-- ==== Sys2Proof/Machine/Ops.lean ====
section
/-!
DEFINITION. The operations that meanings share: reports to a queue and the end of a launch (16 R355, R356, R365; 11
R322), rollback teams (18 R389 to R394), taking an exception and returning from one (01 R20, R26 to R34, R43; 11 R413),
and the frame of an instruction: what is checked before it, and what happens when it completes, traps or waits.
-/

namespace Sys2Proof.Machine

open Sys2Proof

/-! ### Reports -/

/-- The marks of some bytes are set where they are given. -/
def putBytes (p : Nat) (bs : List Byte) (marks : List Nat) (s : State) : State :=
  ((logWrite p bs.length s).setBytes p bs).setMarks p marks

/-- The writer of a write that the device makes: a migration engine, or a unit for which R286 has no KIND, whose source id is
free (log entry 23). -/
def deviceSource (engine : Option Nat) (s : State) : Source :=
  match engine with
  | some m => { kind := 4, die := 4 + m }
  | none => { kind := 6, own := some s.fresh }

/-- A free source id that a line-watch unit has recorded is not given again. -/
def spendSource (engine : Option Nat) (p : Nat) (s : State) : State :=
  if engine.isNone && s.lineWatched (lineOf p) then { s with fresh := s.fresh + 1 } else s

/-- Bytes within one line are written at the home by a unit of the device; the write waits while the host holds the line, or
a request to it is in progress, in the order of such writes (R273, R307). -/
def lateWrite (engine : Option Nat) (p : Nat) (bs : List Byte) (marks : List Nat) (s : State) : State :=
  if homed p && (s.lineWaits .home p || s.late.any fun w => lineOf w.place == lineOf p) then
    let s := noteMiss .home true p s
    { s with late := s.late ++ [{ place := p, bytes := bs, marks := marks, engine := engine }] }
  else spendSource engine p ((s.store (deviceSource engine s) p bs).setMarks p marks)

/-- The writes of the device that waited are tried again (R307) (DEDUCED, log entry 23). -/
def flushLate (s : State) : State :=
  s.late.foldl (fun s w => lateWrite w.engine w.place w.bytes w.marks s) { s with late := [] }

/-- Bytes cut at the boundaries of lines. -/
def lineCuts (p : Nat) (bs : List Byte) : Nat → List (Nat × List Byte)
  | 0 => []
  | n + 1 =>
    if bs.isEmpty then []
    else (p, bs.take (128 - p % 128)) :: lineCuts (p + (128 - p % 128)) (bs.drop (128 - p % 128)) n

/-- Bytes written by a unit of the device for itself; the units that watch a line see them (R285)
(DEDUCED, log entry 23). -/
def devWrite (p : Nat) (bs : List Byte) (s : State) : State :=
  (lineCuts p bs (bs.length / 128 + 2)).foldl (fun s c => lateWrite none c.1 c.2 [] s) s

/-- A report is written at its place in the report ring, and RCNT advances (R365). -/
def postReport (q : Nat) (r : Report) (s : State) : State :=
  let u := s.queue q
  let tag := leNat ((u.entry.drop 4).take 4)
  let kind := leNat (u.entry.take 1)
  let bytes := leBytes 4 tag ++ leBytes 1 kind ++ leBytes 1 r.status ++ leBytes 1 r.code ++ leBytes 1 r.sub ++
    leBytes 8 r.a.toNat ++ leBytes 8 r.b.toNat ++ leBytes 2 (r.core % 2048 + r.ctx % 16 * 4096) ++ leBytes 2 0 ++
    leBytes 4 (u.head - 1).toNat
  (devWrite (u.rbase.toNat + 32 * (u.rcnt.toNat % 2 ^ u.sz)) bytes s).modQueue q fun u => { u with rcnt := u.rcnt + 1 }

/-- QPROG (R354, R356): DONE, and bit 63 in the switching states. -/
def Queue.qprog (u : Queue) : Word :=
  u.progress.setWidth 64 |||
    (if u.st == .switchingOut || u.st == .switchedOut || u.st == .switchingIn then 0x8000000000000000#64 else 0#64)

/-- The progress word in memory is written with QPROG, where there is one (R354, R356) (DEDUCED, log entry 49). -/
def writeProgress (q : Nat) (s : State) : State :=
  let u := s.queue q
  if u.paddr = 0 then s else devWrite u.paddr.toNat (leBytes 8 u.qprog.toNat) s

/-- Whether every memory write of a queue's work has been performed (R308, R356): its posted stores, its sent copy lines,
and the writes of the device. -/
def State.settled (s : State) (q : Nat) : Bool :=
  s.late.isEmpty && !s.posts.any fun p =>
    p.launch % 64 == q && p.kind != 2 && p.marker.isNone && (p.st == .waiting || p.st == .sent)

/-- An entry is over: DONE advances, the progress word is written, and the queue is Idle or in Error, or Disabled where EN has
been cleared (R355, R356) (DEDUCED, log entry 49). -/
def closeEntry (q : Nat) (s : State) : State :=
  writeProgress q (s.modQueue q fun u =>
    { u with progress := u.progress + 1, st := if !u.en then .disabled else if u.errorNext then .error else .idle
             errorNext := false, entry := [], started := false, shadowed := false, closing := false })

/-- A running entry ends (R355, R356): its progress is published once every memory write of it has been performed (R308)
(DEDUCED, log entry 49). -/
def endEntry (q : Nat) (s : State) : State :=
  if s.settled q then closeEntry q s else s.modQueue q fun u => { u with closing := true }

/-- The entries whose writes have now been performed are over (R308). -/
def closeEntries (s : State) : State :=
  (s.queues.map (·.1)).foldl (fun s q => if (s.queue q).closing && s.settled q then closeEntry q s else s) s

/-- A running entry ends with a report. -/
def endWith (q : Nat) (r : Report) (s : State) : State := endEntry q (postReport q r s)

/-! ### The end of a context and of a launch -/

/-- No context: the issuer of posted stores whose context has ended. -/
def noKey : Nat := 1048576

/-- A context's slot is freed; its lanes go back to the pool (R135, R322), and the messages that it has not received go with it,
those that wait for it elsewhere too: R254 does not say what becomes of them (DESIGN CHOICE, log entry 68). The slot on its core that a migratable helper
reserves is freed with it (R318) (DEDUCED, log entry 19). -/
def freeCtx (key : Nat) (s : State) : State :=
  let cl := clusterOfCore (coreOfKey key)
  let s := releaseLanes key s
  let s := dropWaiters key s
  let posts := (s.posts.filter fun p => !(p.key == key && p.st == .lost)).map fun p =>
    if p.key == key then { p with key := noKey } else p
  let gone := fun (k : Option Nat) => if k = some key then none else k
  let orphan := fun (m : MEnt) => if m.key = key ∧ m.cmd.isSome then { m with key := noKey } else m
  let s := s.modCluster cl fun k => { k with queue := k.queue.map orphan }
  let s := if (s.core (coreOfKey key)).stopped = some key then s.modCore (coreOfKey key) fun k => { k with stopped := none } else s
  let s := s.modDie (dieOfCore (coreOfKey key)) fun d => { d with parked := d.parked.filter (·.key != key) }
  { (s.setCtx key {}) with
    tiles := s.tiles.filter (·.key != key), wreqs := s.wreqs.filter (·.key != key), posts := posts
    copies := s.copies.map fun c => { c with key := gone c.key }
    bards := s.bards.map fun b => { b with key := (gone (some b.key)).getD noKey } }

/-- The contexts of a launch. -/
def State.launchCtxs (s : State) (l : Nat) : List Nat :=
  (s.ctxs.filter fun p => p.2.live && p.2.launch == l).map (·.1)

/-- The accumulator claims of a core are released (R135). -/
def releaseAcc (core : Nat) (s : State) : State :=
  s.modCluster (clusterOfCore core) fun c =>
    { c with owner := c.owner.filter fun p => p.2 != core + 1 }

/-- Everything of a launch leaves the part: contexts, claims, copies, undo entries, images and records (R322, R379,
R38, R390) (DEDUCED, log entry 19). -/
def clearLaunch (l : Nat) (s : State) : State :=
  let u := s.launch l
  let u := if u.st == .loading then { u with cores := [] } else u
  let keys := s.launchCtxs l
  let s := keys.foldl (fun s k => if (s.core (coreOfKey k)).gate = some k then ungate (coreOfKey k) s else s) s
  let s := keys.foldl (fun s k => freeCtx k s) s
  let s := u.cores.foldl (fun s k => (releaseAcc k s).modCore k fun c => { c with follow := [], stopped := none }) s
  let s := (u.cores.map clusterOfCore).eraseDups.foldl (fun s cl => s.modCluster cl fun c =>
    { c with undo := c.undo.filter (·.launch != l), ovf := c.ovf.filter (·.1 != l)
             queue := c.queue.filter fun m => !(u.cores.contains m.core)
             seqr := if c.queue.head?.any fun m => u.cores.contains m.core then none else c.seqr }) s
  { s with copies := s.copies.filter (·.launch != l), bards := s.bards.filter (·.launch != l),
           launches := Tbl.set {} s.launches l { st := .ended, q := u.q, cores := u.cores } }

/-- The launches that a queue's entry runs: its own, or those of its graph's nodes. -/
def State.queueLaunches (s : State) (q : Nat) : List Nat :=
  (s.launches.filter fun p => p.2.q == q && p.1 % 64 == q && p.2.st != .ended && p.2.st != .none).map (·.1)

/-- The launch or graph of a queue ends with a report that ends the entry (R322, R365); the copies of the entry end with
it (DEDUCED, log entry 19). -/
def endLaunch (q : Nat) (r : Report) (s : State) : State :=
  let s := (s.queueLaunches q).foldl (fun s l => clearLaunch l s) s
  endWith q r { s with copies := s.copies.filter (·.queueEntry != some q) }

/-! ### Binding -/

/-- The index of (group, role) in the binding table. -/
def bindKey (g r : Nat) : Nat := g * 2048 + r

/-- The place that a binding entry names (R320). -/
def bindPlace (e : BitVec 16) : Option Nat :=
  if e.getLsbD 15 then some (keyOf (e.toNat % 2048) (e.toNat / 2048 % 16)) else none

/-- The context slot that a role of a group is bound to (R320). -/
def Launch.place (l : Launch) (g r : Nat) : Option Nat := bindPlace (Tbl.get 0 l.bind (bindKey g r))

/-- A group's record (R319). -/
def Launch.group (l : Launch) (g : Nat) : Option Group := l.groups.find? (·.g == g)

/-- The slots that a group's roles are bound to. -/
def Launch.groupPlaces (l : Launch) (g : Group) : List Nat :=
  (List.range g.members.length).filterMap fun r => l.place g.g r

/-! ### Rollback teams -/

/-- The rollback team that a context is a member of (R390). -/
def State.teamOf (s : State) (key : Nat) : Option Group :=
  let c := s.ctx key
  if c.live && c.standing == .control then
    let l := s.launch c.launch
    l.groups.find? fun g => g.rb && (l.groupPlaces g).contains key
  else none

/-- Whether RCM selects a cause (R389). -/
def Group.selects (g : Group) (code : Nat) : Bool :=
  if g.rcm = 0 then code == 5 || code == 6 || code == 7 || code == 23
  else decide (1 ≤ code) && g.rcm.getLsbD (code - 1)

/-- A member's interval is uncovered: it did what a rollback cannot undo (R391). -/
def uncoverTeam (key : Nat) (s : State) : State :=
  match s.teamOf key with
  | none => s
  | some g => s.modLaunch (s.ctx key).launch fun l =>
      { l with uncovered := if l.uncovered.contains g.g then l.uncovered else g.g :: l.uncovered }

/-- A member at privilege 0 does what a rollback cannot undo (R391). -/
def uncover (key : Nat) (s : State) : State := if (s.ctx key).priv != 0 then s else uncoverTeam key s

/-- One aligned 8-byte unit enters the undo log of a cluster (R392). -/
def undoUnit (cl l g p : Nat) (s : State) : State :=
  let c := s.cluster cl
  if c.undo.any (fun u => u.launch == l && u.team == g && u.place == p) then s
  else if c.undo.length ≥ 4096 then
    s.modCluster cl fun c => { c with ovf := if c.ovf.contains (l, g) then c.ovf else (l, g) :: c.ovf }
  else
    let e : Undo := { launch := l, team := g, place := p, bytes := s.bytes p 8
                      marks := (List.range 8).map fun i => s.byteMark (p + i) }
    s.modCluster cl fun c => { c with undo := e :: c.undo }

/-- Whether a place lies in a member's own core scratchpad or cluster memory (R391). -/
def ownPlace (key p : Nat) : Bool :=
  let k := coreOfKey key
  let cl := clusterOfCore k
  decide (placeCore k 0 ≤ p ∧ p < placeCore k 0 + 2 ^ 20) ||
    decide (placeCluster cl 0 ≤ p ∧ p < placeCluster cl 0 + 2 ^ 21)

/-- Before a member's write of `n` bytes: the old bytes are logged, or the interval is uncovered (R391, R392). -/
def teamWriteTeam (key p n : Nat) (s : State) : State :=
  match s.teamOf key with
  | none => s
  | some g =>
    let l := (s.ctx key).launch
    let own := ownPlace key p ||
      (match (s.ctx key).imageOf.bind (s.launch l).image with
        | some ps => ps.contains (p / 4096 * 4096)
        | none => false)
    if own then
      if (s.launch l).uncovered.contains g.g then s
      else (List.range ((p % 8 + n + 7) / 8)).foldl (fun s i =>
        undoUnit (clusterOfCore (coreOfKey key)) l g.g (p / 8 * 8 + 8 * i) s) s
    else uncoverTeam key s

/-- The same for a write at the context's own privilege. -/
def teamWrite (key p n : Nat) (s : State) : State := if (s.ctx key).priv != 0 then s else teamWriteTeam key p n s

/-- The members of a team. -/
def State.teamMembers (s : State) (l : Nat) (g : Group) : List Nat :=
  ((s.launch l).groupPlaces g).filter fun k => (s.ctx k).live && (s.ctx k).launch == l

/-- A context's checkpoint as it stands (R390). -/
def Ctx.checkpoint (c : Ctx) (arrivals : Nat) : Check :=
  { pc := c.pc, x := c.x, xp := c.xp, sr := c.sr, pfx := c.pfx, arrivals := arrivals }

/-! ### Taking an exception -/

/-- The private region as the hardware writes and reads it for the lanes of a context (R363). -/
def spillEnv (key : Nat) (s : State) : Env := { s.envOf key with priv := 1 }

/-- Bytes of a context's private memory are written: at most one line at a time, so that a page is not crossed. The context is
the writer (R285, R286) (DEDUCED, log entry 25). -/
def privWrite (key : Nat) (e : Env) (o : Nat) (bs : List (Byte × Nat)) : M Unit := do
  let va := e.privateVa ((← get).launch e.launch) o
  let (pa, mt) ← translate e va accWrite
  match ← physLoc va pa mt with
  | .mem p _ =>
    lineWritable .home p
    modify fun s => (s.store { s.sourceOf key with via := .home } p (bs.map (·.1))).setMarks p (bs.map (·.2))
  | _ => apertureFault 3 va

/-- Bytes of a context's private memory are read, with their marks. -/
def privRead (e : Env) (o n : Nat) : M (List (Byte × Nat)) := do
  let va := e.privateVa ((← get).launch e.launch) o
  let (pa, mt) ← translate e va accRead
  match ← physLoc va pa mt with
  | .mem p _ =>
    lineFree .home p
    modify (lineRead .home 0 p)
    let s ← get
    return (List.range n).map fun i => (s.byte (p + i), s.byteMark (p + i))
  | _ => apertureFault 3 va

/-- The bytes of lane `l` as the spill region holds them: v0 to v31, then the slice (R363). -/
def Ctx.laneBytes (c : Ctx) (l : Nat) : List (Byte × Nat) :=
  (List.range 32).flatMap (fun r => (leBytes 4 (c.vr r l).toNat).map fun b => (b, c.vmark r l)) ++
    (List.range 2048).map fun o => (Tbl.get 0 c.sl (l * 2048 + o), Tbl.get 0 c.slp (l * 2048 + o))

/-- The 68 pieces of 32 bytes of a lane's record are written, `n` of them left. -/
def spillPieces (key : Nat) (e : Env) (o : Nat) : Nat → List (Byte × Nat) → M Unit
  | 0, _ => return ()
  | n + 1, bs => do
    privWrite key e o (bs.take 32)
    spillPieces key e (o + 32) n (bs.drop 32)

/-- Lanes `lo` to `lo + n − 1` of a context are spilled (R20, R363) (DEDUCED, log entry 25). -/
def spillLanes (key lo : Nat) : Nat → M Unit
  | 0 => return ()
  | n + 1 => do
    let s ← get
    spillPieces key (spillEnv key s) (0x880 * lo) 68 ((s.ctx key).laneBytes lo)
    spillLanes key (lo + 1) n

/-- The pieces of a lane's record are read back. -/
def refillPieces (e : Env) (o : Nat) : Nat → M (List (Byte × Nat))
  | 0 => return []
  | n + 1 => do
    let a ← privRead e o 32
    return a ++ (← refillPieces e (o + 32) n)

/-- A lane's contents from its record. -/
def Ctx.loadLane (c : Ctx) (l : Nat) (bs : List (Byte × Nat)) : Ctx :=
  let c := (List.range 32).foldl (fun (c : Ctx) r =>
    let w := (bs.drop (4 * r)).take 4
    c.setV r l (BitVec.ofNat 32 (leNat (w.map (·.1)))) ((w.map (·.2)).foldl (fun a m => if a = 0 then m else a) 0)) c
  (List.range 2048).foldl (fun (c : Ctx) o =>
    let b := (bs.drop 128).getD o (0, 0)
    { c with sl := Tbl.set 0 c.sl (l * 2048 + o) b.1, slp := Tbl.set 0 c.slp (l * 2048 + o) b.2 }) c

/-- Lanes `lo` to `lo + n − 1` of a context are refilled (R20). -/
def refillLanes (key lo : Nat) : Nat → M Unit
  | 0 => return ()
  | n + 1 => do
    let bs ← refillPieces (spillEnv key (← get)) (0x880 * lo) 68
    modify fun s => s.modCtx key fun c => c.loadLane lo bs
    refillLanes key (lo + 1) n

/-- A save, spill or refill failed: the launch ends with SaveFail, whose A is the address (R20, R365)
(DEDUCED, log entry 49). -/
def saveFail (l : Nat) (a : Word) (s : State) : State := endLaunch (s.launch l).q { status := 9, a := a } s


/-- ECAUSE as a trap writes it (R26, R27). -/
def causeWord (lvu : Bool) (t : Trap) : Word :=
  BitVec.ofNat 64 (t.code.toNat + t.sub.toNat * 2 ^ 8 + t.seq.toNat * 2 ^ 16 +
    (if t.kind == .imprecise then 2 ^ 32 else 0) + (if t.kind == .after then 2 ^ 33 else 0) +
    (if t.tag then 2 ^ 34 else 0) + (if lvu then 2 ^ 35 else 0))

/-- Whether an instruction in flight is a matrix one that touches neither flags nor lanes. -/
def VOp.isMatrix : VOp → Bool
  | .macz _ => true
  | .mld _ => true
  | .wload _ => true
  | .mma _ => true
  | .mseq _ => true
  | .acted mx _ _ => mx
  | _ => false

/-- The lanes that a trap has removed from a context with `left` groups kept, as the instructions in flight still write them
(R27) (DEDUCED, log entry 25). -/
def Ctx.keepRemoved (c old : Ctx) (left : Nat) : Ctx :=
  let stays := fun (l : Nat) => decide (l < 32 * left) || decide (32 * c.grant ≤ l)
  { c with v := old.v.filter fun p => stays (p.1 % 256)
           vp := old.vp.filter fun p => stays (p.1 % 256)
           sl := old.sl.filter fun p => stays (p.1 / 2048)
           slp := old.slp.filter fun p => stays (p.1 / 2048)
           spillDue := true }

/-- ShrinkAndSpill (R20): the lanes that the renegotiation removes are written to the spill region first. Trap entry does
not wait for the vector instructions in flight (R27): the removed lanes are written again once they have retired. Where a
page is being migrated the spill waits, and the handler with it (DEDUCED, log entry 25). -/
def trapShrink (key : Nat) (s : State) : State :=
  let old := s.ctx key
  let g := old.grant
  let t := s.fairShare (clusterOfCore (coreOfKey key))
  let left := min (g - min (g - t) (s.shortOf key)) old.request
  match (spillLanes key (32 * left) (32 * (g - left))).run s with
  | .ok _ s =>
    (renegotiate key s).modCtx key fun c =>
      let c := { c with spilled := g - left, spillBase := left, spillDue := false }
      if old.pend.any (fun p => !p.op.isMatrix) && decide (c.grant < g) then c.keepRemoved old left else c
  | .error (.trap t) s => saveFail old.launch (t.at'.setWidth 64) s
  | .error _ s => s.modCtx key fun c => { c with spillDue := true }

/-- Whether an instruction in flight may still write the lanes that a trap has removed. -/
def Ctx.removedBusy (c : Ctx) : Bool := c.pend.any fun p => !p.op.isMatrix && decide (c.grant < p.grant)

/-- The removed lanes are written to the spill region again, now that the instructions that were in flight have retired
(R20, R27) (DEDUCED, log entry 25). -/
def spillAgain (key : Nat) (s : State) : State :=
  let c := s.ctx key
  let lo := max c.grant c.spillBase
  match (spillLanes key (32 * lo) (32 * (c.spillBase + c.spilled - lo))).run s with
  | .ok _ s => s.modCtx key fun c => { c.keepLanes (32 * c.grant) with spillDue := false }
  | .error (.trap t) s => saveFail c.launch (t.at'.setWidth 64) s
  | .error _ s' => keepMisses s s'

/-- TrapEntry of R27 in a context; `epc` is the address that EPC receives. A trap in a level update freezes dispatch of
its launch (R332). -/
def enterTrap (key : Nat) (epc : Va) (t : Trap) (s : State) : State :=
  let c := s.ctx key
  let tvec := (s.core (coreOfKey key)).tvec
  let vs := s.vs key
  let c' : Ctx :=
    { c with esr := s.srOf key
             epc := epc &&& ~~~3#57
             ecause := causeWord c.inUpdate t
             etval := t.val
             sr := setField (c.sr &&& ~~~1#64) 10 2 1
             pc := (tvec &&& ~~~63#64).setWidth 57
             st := c.wake.st
             saved := c.wake.saved
             wait := .none
             fetched := none }
  let s := s.setCtx key c'
  let s := if c.inUpdate then s.modLaunch c.launch fun l =>
      { l with freezes := key :: l.freezes, st := if l.st == .running then .frozen else l.st } else s
  if vs then trapShrink key s else s

/-- The status word of the queue report of a fatal fault (R28). -/
def fatal (key : Nat) (pc : Va) (t : Trap) (s : State) : State :=
  endLaunch (s.launch (s.ctx key).launch).q
    { status := 1, code := t.code.toNat, sub := t.sub.toNat, a := pc.setWidth 64, b := t.val
      core := coreOfKey key, ctx := slotOfKey key } s

/-- Whether the interval of a member's team is covered, no rollback of the team holds its members, and no member runs its
handler after one (R391, R394). -/
def State.rollable (s : State) (key : Nat) (g : Group) : Bool :=
  let l := (s.ctx key).launch
  !(s.launch l).uncovered.contains g.g && !(s.teamMembers l g).any fun k => (s.ctx k).rolling || (s.ctx k).rolled

/-- Whether another member's rollback of the team is due, so that this one is about to be stopped (R394). -/
def State.rollAhead (s : State) (key : Nat) : Bool :=
  match s.teamOf key with
  | some g => !(s.launch (s.ctx key).launch).uncovered.contains g.g &&
      (s.teamMembers (s.ctx key).launch g).any fun k => k != key && (s.ctx k).rollDue
  | none => false

/-- A trap taken by a context at an instruction boundary: `epc` is what EPC receives, and `pc` the address of the
instruction. A trap that a rollback team selects, or that would be fatal in a member, starts a rollback; a second one in a
member that a rollback is about to stop is kept aside, and the rollback discards it (R394). At privilege 1 a precise or
after-completion trap is fatal, and any other is held (R28). -/
def takeTrap (key : Nat) (epc pc : Va) (t : Trap) (s : State) : State :=
  let c := s.ctx key
  let p1 := c.priv != 0
  let own := t.kind == .precise || t.kind == .after
  let rolls :=
    match s.teamOf key with
    | some g => (if p1 then own else g.selects t.code.toNat) && s.rollable key g
    | none => false
  if rolls then
    s.setCtx key
      { c with rolling := true, rollDue := true, due := t :: c.due, st := .held, wait := .unit, epc := epc &&& ~~~3#57 }
  else if own && s.rollAhead key then
    s.setCtx key { c with rolling := true, due := { t with pc := some (t.pc.getD pc) } :: c.due, st := .held, wait := .unit }
  else if p1 then
    if own then fatal key (t.pc.getD pc) t s else s.setCtx key { c with due := c.due ++ [t] }
  else enterTrap key epc t s

/-- Which due trap comes first (R43): that of an instruction that completed, then an imprecise one, else an asynchronous
one, each in order of arrival. Traps that R28 holds are taken in this order too, so that a held imprecise trap that came later
goes before a held asynchronous one (DESIGN CHOICE, log entry 69). -/
def firstDue (l : List Trap) : Option Trap :=
  match l.find? (·.kind == .after) with
  | some t => some t
  | none =>
    match l.find? (·.kind == .imprecise) with
    | some t => some t
    | none => l.head?

/-- A waiting or gated instruction is abandoned with no effect, so that a trap can be taken (R208, R413). The load that gates the
core runs again after the `eret`: that of another context waits for it (DEDUCED, log entry 13). -/
def abandonWait (key : Nat) (s : State) : State :=
  let core := coreOfKey key
  let s := match (s.core core).gate with
    | some g => (dropWaiters g (ungate core s)).modCtx g fun c =>
        if g = key then { c with st := .ready, wait := .none } else { c with st := .held, wait := .handler key }
    | none => s
  let s := { s with wreqs := s.wreqs.filter fun r => !(r.key == key && (match r.kind with | .vector _ => false | _ => true)) }
  let s := { s with tiles := s.tiles.filter (·.key != key) }
  let s := dropWaiters key s
  s.modCtx key fun c => { c with st := if c.st == .held || c.st == .sleeping || c.st == .gated then .ready else c.st, wait := .none }

/-- Whether a context waits for a counter's round or an access of another device, which a trap does not end (R208,
R413). -/
def State.accessWaits (s : State) (key : Nat) : Bool :=
  let c := s.ctx key
  let gater := (s.core (coreOfKey key)).gate.getD key
  s.clusters.any (fun k => k.2.waiters.any fun w =>
      (w.key == gater || w.key == key) && (w.served.isSome || decide (64 ≤ w.obj ∧ w.obj < 96))) ||
    (c.wait == .unit && s.wreqs.any fun r => r.key == key && (match r.kind with | .vector _ => false | _ => true))

/-- Whether a context's team holds it for a rollback (R394): a member at privilege 0 stops while another member's
rollback is due, and every member stops until the `eret` of the one that trapped. -/
def State.teamStops (s : State) (key : Nat) : Bool :=
  let c := s.ctx key
  c.rolling || (c.priv == 0 &&
    match s.teamOf key with
    | some g => (s.teamMembers c.launch g).any fun k => (s.ctx k).rolling
    | none => false)

/-- Whether a context waits for something that a trap does not end: a phase it has arrived at, a rollback, or an access
(R208, R394, R413). -/
def State.trapWaits (s : State) (key : Nat) : Bool :=
  (s.ctx key).barred.isSome || s.teamStops key || s.accessWaits key

/-- Whether a context has a due trap that it may take now (R28, R32, R33, R413): at privilege 1 only one of an instruction
that completed, which is fatal. -/
def State.trapDue (s : State) (key : Nat) : Bool :=
  let c := s.ctx key
  !c.due.isEmpty && (c.priv == 0 || c.due.any (·.kind == .after)) && !s.trapWaits key &&
    (c.st == .ready || c.st == .held || c.st == .sleeping || c.st == .gated)

/-- The first due trap of a context is taken at an instruction boundary (R27, R43). -/
def takeDue (key : Nat) (s : State) : State :=
  match firstDue (s.ctx key).due with
  | none => s
  | some t =>
    let s := abandonWait key s
    takeTrap key (s.ctx key).pc (s.ctx key).pc t (s.modCtx key fun c => { c with due := c.due.erase t })

/-- An imprecise or asynchronous trap becomes due in a context (R32 to R34). -/
def raise (key : Nat) (t : Trap) (s : State) : State :=
  if (s.ctx key).live then s.modCtx key fun c => { c with due := c.due ++ [t] } else s

/-- An asynchronous trap (R33). -/
def asyncTrap (code sub : Nat) (val : Word) : Trap :=
  { kind := .async, code := BitVec.ofNat 8 code, sub := BitVec.ofNat 8 sub, val := val, seq := 0, tag := false
    at' := BitVec.ofNat 57 val.toNat }

/-- An after-completion trap (R31). -/
def afterTrap (code sub : Nat) (val : Word) : Trap := { asyncTrap code sub val with kind := .after }

/-! ### The frame of an instruction -/

/-- Whether a waiting context tries its instruction again when it is next chosen. -/
def Wait.tries : Wait → Bool
  | .again => true
  | .reclaim => true
  | .gateway _ _ _ _ => true
  | _ => false

/-- Whether a context may issue an instruction, a held one that is tried again included (R311, R314): a trap that it may
take comes first (R28, R32, R33). A write of CSPLIT stops the issue of its core, but for a tile that was issued before
(R258) (DEDUCED, log entry 53). -/
def State.mayIssue (s : State) (key : Nat) : Bool :=
  let c := s.ctx key
  (c.st == .ready || ((c.st == .held || c.st == .sleeping) && c.wait.tries)) &&
    !s.trapDue key && !(c.spillDue && c.spilled == 0) && !s.teamStops key &&
    ((s.core (coreOfKey key)).stopped.getD key == key || s.tiles.any (·.key == key))

/-- The x registers that a dispatched vector instruction will write when it retires (R141) (DEDUCED, log entry 14). -/
def VOp.writesX : VOp → List Nat
  | .cmp _ o => (List.range 4).map fun i => 32 + 4 * o.d.toNat + i
  | .red fn o => if fn < 8 then [o.d.toNat] else []
  | .misc fn o =>
    if fn = 4 ∨ fn = 6 then [o.d.toNat] else if fn = 1 then (List.range 4).map fun i => 32 + 4 * o.d.toNat + i else []
  | .macrd o => if o.ty = 5 then [o.c.toNat] else []
  | _ => []

/-- Whether a vector instruction in flight will write an x register (R141) (DEDUCED, log entry 14). -/
def Ctx.awaited (c : Ctx) (n : Nat) : Bool := n != 0 && c.pend.any fun p => p.op.writesX.contains n

/-- An x register as a source: it waits for a vector instruction that will write it (R141), and faults where it is
poisoned (R13) (DEDUCED, log entry 14). -/
def useX (n : Nat) : M Word := do
  let c ← curCtx
  if c.awaited n then heldAgain
  else if c.mark n != 0 then fault 23 (markSub (c.mark n) 1).toNat (markVal (c.mark n))
  else return c.xr n

/-- The checks of steps 6 and 7 of R94 and the issue conditions, for an instruction that takes no prefix
(DEDUCED, log entry 14). -/
def issueCheck : M Unit := do
  let s ← get
  if !s.mayIssue s.cur then throw (.refuse .noContext)
  else if (s.ctx s.cur).pp then fault 11 0 (s.iw.setWidth 64)

/-- A privileged instruction at privilege 0 (R26, R29, R41). -/
def privileged : M Unit := do if (← curCtx).priv = 0 then illegal

/-- The next instruction's address after one of `len` bytes. -/
def nextPc (len : Nat) : M Va := do return (← curCtx).pc + BitVec.ofNat 57 len

/-- An instruction completes: the pc moves on and the context is Ready, or held by its hints (R87)
(DEDUCED, log entry 15). -/
def complete (pc : Va) (yld : Bool) (dly : Nat) (s : State) : State :=
  s.modCtx s.cur fun c =>
    if c.live then (c.wake.goTo pc).rest yld dly else c

/-- An instruction's frame: the issue checks, its body, which answers the next pc, and its completion. -/
def instr (yld : Bool) (dly : Nat) (body : M Va) : M Unit := do
  issueCheck
  let pc ← body
  modify (complete pc yld dly)

/-- The notes that the accesses of one instruction leave are cleared. -/
def clearNotes (s : State) : State := { s with after := none, watch := none }

/-- The boundary after an instruction that completed: its after-completion trap, if it raised one, or the Watch trap of
R283, for its fetch or its accesses. -/
def boundary (key : Nat) (pc : Va) (s : State) : State :=
  let t := match s.after with
    | some t => some t
    | none => (firstHit (s.ctx key).fetched s.watch).map (watchFault none)
  let s := clearNotes s
  let s := if (s.ctx key).fetched.isSome then s.modCtx key fun c => { c with fetched := none } else s
  match t with
  | none => s
  | some t => if (s.ctx key).live then takeTrap key (s.ctx key).pc pc t s else s

/-- A context waits (R311). -/
def park (key : Nat) (w : Wait) (sleep : Bool) (s : State) : State :=
  (clearNotes s).modCtx key fun c =>
    { c with st := if c.st == .gated then .gated else if sleep then .sleeping else .held
             saved := if c.st == .gated then (if sleep then .sleeping else .held) else c.saved
             wait := w }

/-- What a step makes of a meaning: a completed instruction, a trap taken, a wait, or a refusal. -/
def outcome (m : M Unit) (s : State) : Outcome :=
  let key := s.cur
  let pc := (s.ctx key).pc
  match m.run (clearNotes s) with
  | .ok _ s' => .next (boundary key pc s')
  | .error (.trap t) s' => .next (takeTrap key pc pc t (clearNotes s'))
  | .error (.hold w sl) s' => .next (park key w sl s')
  | .error (.refuse r) _ => .refused r

/-- A scalar instruction of `len` bytes that goes on to the next one (R30). -/
def scalar (len : Nat) (yld : Bool) (dly : Nat) (body : M Unit) (s : State) : Outcome :=
  outcome (instr yld dly (do body; nextPc len)) s

/-- A short-form instruction (R81). -/
def short (body : M Unit) (s : State) : Outcome := scalar 8 false 0 body s

/-- A long-form instruction with its hints (R83, R87). -/
def longI (o : Low) (body : M Unit) (s : State) : Outcome := scalar 12 (o.yld == 1) o.dly.toNat body s

/-- An extended-form instruction with its hints (R87, R89). -/
def extI (o : Low) (body : M Unit) (s : State) : Outcome := scalar 16 (o.yld == 1) o.dly.toNat body s

/-- A short-form instruction that says where it goes on (R125). -/
def jump (body : M Va) (s : State) : Outcome := outcome (instr false 0 body) s

/-- An event of the device or the host: it happens or cannot. -/
def event (m : M Unit) (s : State) : Outcome :=
  match m.run s with
  | .ok _ s' => .next s'
  | .error (.refuse r) _ => .refused r
  | .error _ s' => .next s'

/-- An act of an event that must wait does not happen, but what it has left at the queues stays there (R307, R347). -/
def waitsAt (s s' : State) : M Unit := do
  enabled (keepMisses s s' != s)
  set (keepMisses s s')

/-- Whether a guard enables a scalar instruction (R12, R84). -/
def guardOn (g : BitVec 4) : M Bool := do
  if g = 0 then return true
  else
    let j := g.toNat % 8
    let w ← useX (32 + 4 * j)
    return w.getLsbD 0 == decide (g.toNat < 8)

end Sys2Proof.Machine
end

