-- ==== Sys2Proof/Machine/Operands.lean ====
section
/-!
DEFINITION. The operand forms of the instructions: immediates and displacements (04 R82), effective addresses (07 R169),
guards and masks over lanes (01 R11, R12; 04 R84, R86), and elements within a lane (06 R142).
-/

namespace Sys2Proof.Machine

open Sys2Proof

/-- A 32-bit immediate, sign-extended (R82, R113). -/
def immX (imm : BitVec 32) : Word := imm.signExtend 64

/-- The target of a relative branch: P + 4·DISP (R125). -/
def relTarget (pc : Va) (imm : BitVec 32) : Va := pc + (imm.signExtend 57 <<< 2)

/-- The effective address of R169: bits [56:0] of the base plus the signed offset. -/
def eaOf (base : Word) (off : BitVec 20) : Va := (base + off.signExtend 64).setWidth 57

/-- The second operand of a register form. -/
def regOperand (o : Sh) : M Word := useX o.rs2.toNat

/-- Whether a guard code enables a lane, against a snapshot of the x registers; the lane lies below VL (R12, R84). -/
def maskBit (x : Nat → Word) (g : BitVec 4) (lane : Nat) : Bool :=
  if g = 0 then true else quadBit x (g.toNat % 8) lane == decide (g.toNat < 8)

/-- The width in bits of an element under a ty code (R85, R142). -/
def tyBits (ty : BitVec 3) : Nat :=
  match ty.toNat with
  | 2 => 16
  | 3 => 16
  | 4 => 64
  | 5 => 8
  | 6 => 16
  | _ => 32

/-- Elements in a lane under a ty code (R85). -/
def tyCount (ty : BitVec 3) : Nat :=
  match ty.toNat with
  | 2 => 2
  | 3 => 2
  | 5 => 4
  | 6 => 2
  | _ => 1

/-- The IEEE format of a ty code (R85). -/
def tyFmt (ty : BitVec 3) : Fmt :=
  match ty.toNat with
  | 2 => f16
  | 3 => bf16
  | 4 => f64
  | _ => f32

/-- Whether a ty code is a floating-point type (R85). -/
def tyFloat (ty : BitVec 3) : Bool := ty == 1 || ty == 2 || ty == 3 || ty == 4

/-- Position `p` of a lane whose elements have `w` bits. -/
def elemAt (w p lane : Nat) : Nat := lane / 2 ^ (w * p) % 2 ^ w

/-- A lane from its elements of `w` bits, position 0 first. -/
def packElems (w : Nat) : List Nat → Nat
  | [] => 0
  | e :: es => e % 2 ^ w + 2 ^ w * packElems w es

end Sys2Proof.Machine
end

