-- ==== Sys2Proof/Machine/CopyShape.lean ====
section
/-!
DEFINITION. The shape of a copy (08 R237, R239, R241, R245): its rows, its lines, and the parts of each.
-/

namespace Sys2Proof.Machine

open Sys2Proof

/-- The pieces of `n` bytes that lie each within one line: address and length. -/
def linePieces : Nat → Nat → Nat → List (Nat × Nat)
  | 0, _, _ => []
  | f + 1, va, n =>
    if n = 0 then []
    else
      let k := min n (128 - va % 128)
      (va % 2 ^ 57, k) :: linePieces f (va + k) (n - k)

/-- Bytes that the engine writes for one source byte (R239). -/
def Copy.fac (c : Copy) : Nat := if c.fmt = 4 then 2 else if c.fmt = 5 then 4 else 1

/-- Rows of a copy, over all planes. -/
def Copy.rowCount (c : Copy) : Nat := c.rows * c.planes

/-- Where source row `r` starts (R237). -/
def Copy.rowSrc (c : Copy) (r : Nat) : Nat := c.src + r / c.rows * c.sp + r % c.rows * c.sr

/-- Where destination row `r` starts (R237). -/
def Copy.rowDst (c : Copy) (r : Nat) : Nat := c.dst + r / c.rows * c.dp + r % c.rows * c.dr

/-- A part of a copy: its place in copy order, its source and destination, and its source bytes. -/
structure Part where
  pos : Nat
  src : Nat
  dst : Nat
  n : Nat
  deriving DecidableEq, Repr

/-- Source bytes of a step into the A-stage: those of 128 bytes there. -/
def Copy.stagePart (c : Copy) : Nat := 128 / c.fac

/-- The parts of row `r` within destination lines. -/
def Copy.rowParts (c : Copy) (r : Nat) : List Part :=
  ((linePieces (c.x / 128 + 2) (c.rowDst r) c.x).foldl (fun (a : Nat × List Part) q =>
    (a.1 + q.2, a.2 ++ [{ pos := r * c.x + a.1, src := c.rowSrc r + a.1, dst := c.rowDst r + a.1, n := q.2 }])) (0, [])).2

/-- The destination lines of a copy of several rows, ascending, each with its parts in row order (R239, R241). -/
def Copy.lineTable (c : Copy) : Tbl (List Part) :=
  (List.range c.rowCount).foldl (fun t r => (c.rowParts r).foldl (fun t q =>
    Tbl.set [] t (q.dst / 128) (Tbl.get [] t (q.dst / 128) ++ [q])) t) []

/-- How many lines a copy has (R239). -/
def Copy.lines (c : Copy) : Nat :=
  if c.x = 0 ∨ c.rowCount = 0 then 0
  else if c.astage then c.rowCount * ((c.x + c.stagePart - 1) / c.stagePart)
  else if c.rowCount = 1 then (c.dst % 128 + c.x + 127) / 128
  else c.lineTable.length

/-- The parts of line `i` of a copy. -/
def Copy.line (c : Copy) (i : Nat) : List Part :=
  if c.astage then
    let per := (c.x + c.stagePart - 1) / c.stagePart
    let r := i / per
    let off := i % per * c.stagePart
    [{ pos := r * c.x + off, src := c.rowSrc r + off, dst := c.rowDst r + c.fac * off, n := min c.stagePart (c.x - off) }]
  else if c.rowCount = 1 then
    let lo := if i = 0 then 0 else 128 * i - c.dst % 128
    let hi := min c.x (128 * (i + 1) - c.dst % 128)
    [{ pos := lo, src := c.src + lo, dst := c.dst + lo, n := hi - lo }]
  else ((c.lineTable[i]?).map (·.2)).getD []

/-- The block size of a paged view (R245). -/
def Copy.bs (c : Copy) : Nat := 2 ^ (c.bsz + 7)

/-- The address of the view byte `v` through its table entry (R245). -/
def viewAddr (c : Copy) (v entry : Nat) : Nat := (c.pool + entry % 2 ^ 31 * c.bs + v % c.bs) % 2 ^ 57

end Sys2Proof.Machine
end

