-- ==== Sys2Proof/Machine/Device.lean ====
section
/-!
DEFINITION. The device registers (16 R351 to R356, R370, R380, R381; 09 R282, R284; 11 R335, R337; 14 R348; 17 R384; 18
R393, R397 to R412): what a read of the register space gives and what a write does.
-/

namespace Sys2Proof.Machine

open Sys2Proof

/-! ### Units, the repair map and the error log -/

/-- KIND of a unit id (R402). -/
def unitKind (u : BitVec 32) : Nat := u.toNat / 2 ^ 28

/-- Die of a unit id (R402). -/
def unitDie (u : BitVec 32) : Nat := u.toNat / 2 ^ 25 % 8

/-- INDEX of a unit id (R402). -/
def unitIndex (u : BitVec 32) : Nat := u.toNat % 2 ^ 25

/-- Whether a unit id is one of R402's table. -/
def unitListed (u : BitVec 32) : Bool :=
  let i := unitIndex u
  decide (unitDie u ≤ 5) &&
    match unitKind u with
    | 0 => decide (i < 2048)
    | 1 => decide (i < 512)
    | 2 => decide (i < 512)
    | 3 => decide (i < 16)
    | 4 => decide (i < 48 ∨ (64 ≤ i ∧ i < 160))
    | 5 => decide (i < 64)
    | 6 => decide (i < 64)
    | 7 => decide (i < 16)
    | 8 => decide (i < 4)
    | 9 => decide (i < 32)
    | _ => false

/-- The retirable kinds (R402). -/
def unitRetirable (u : BitVec 32) : Bool := unitListed u && decide (1 ≤ unitKind u ∧ unitKind u ≤ 4)

/-- A unit's soft-error counts. -/
def State.eccOf (s : State) (u : BitVec 32) : Ecc := Tbl.get {} s.ecc u.toNat

/-- An error record of R407. The time in µs is a free value (log entry 5). -/
def logError (u : BitVec 32) (ev pa : Nat) (s : State) : State :=
  let elbase := Tbl.get 8 s.regs 0x80
  let addr := field elbase 12 40 * 4096
  if addr = 0 then s
  else
    let n := Tbl.get 0 s.regs 0x88
    let e := s.eccOf u
    let bytes := leBytes 8 (Config.freeTime s.fresh) ++ leBytes 4 u.toNat ++ leBytes 1 ev ++ leBytes 3 0 ++
      leBytes 8 (pa % 2 ^ 52) ++ leBytes 4 e.count ++ leBytes 4 e.total.toNat
    let s := devWrite (addr + 32 * (n.toNat % 2 ^ (field elbase 0 5))) bytes { s with fresh := s.fresh + 1 }
    { s with regs := Tbl.set 0 s.regs 0x88 (BitVec.ofNat 64 ((n.toNat + 1) % 2 ^ 32)) }

/-- A unit is entered into the repair map, its retirement pending (R405, R406); a full map takes no entry. A unit that
the map holds is not entered again. -/
def retireUnit (u : BitVec 32) (cause : Nat) (s : State) : State :=
  if s.repair.any (·.unit == u) then s
  else if s.repair.length ≥ 1024 then logError u 7 0 s
  else logError u 3 0 { s with repair := s.repair ++ [{ unit := u, cause := cause, act := false }] }

/-- A pending retirement takes effect (R406). -/
def activate (u : BitVec 32) (s : State) : State :=
  let s := { s with repair := s.repair.map fun r => if r.unit == u then { r with act := true } else r }
  logError u 4 0 (if unitKind u = 1 then s.modCore (unitDie u * 512 + unitIndex u) fun k => { k with retired := true } else s)

/-- The pending retirements that a predicate selects take effect (R406). -/
def activateAll (sel : BitVec 32 → Bool) (s : State) : State :=
  (s.repair.filter fun r => !r.act && sel r.unit).foldl (fun s r => activate r.unit s) s

/-- Whether a unit is a lane of a Tvedlon port of the package, six on each die (R402) (DEDUCED, log entry 46). -/
def laneOfPort (p : Nat) (u : BitVec 32) : Bool :=
  unitKind u == 4 && unitDie u == p / 6 && unitIndex u / 8 == p % 6

/-- Whether a unit is a lane of the link between two dies, named from either end (R402). -/
def laneOfLink (a b : Nat) (u : BitVec 32) : Bool :=
  unitKind u == 4 && ((unitDie u == a && unitIndex u / 16 == 4 + b) || (unitDie u == b && unitIndex u / 16 == 4 + a))

/-! ### Reset values -/

/-- The reset value of a register that `regs` holds by offset (R353, R380, R404, R407). -/
def regReset (off : Nat) : Word :=
  match off with
  | 0x008 => 1000
  | 0x050 => 16
  | 0x058 => 86400
  | 0x080 => 8
  | 0x700008 => 2000
  | _ => 0

/-- A register held in `regs`. -/
def State.reg (s : State) (off : Nat) : Word := Tbl.get (regReset off) s.regs off

/-- A register of `regs` written. -/
def State.setReg (s : State) (off : Nat) (v : Word) : State := { s with regs := Tbl.set (regReset off) s.regs off v }

/-! ### Where a register lies -/

/-- A register by block (R351). -/
inductive Reg where
  | device (o : Nat)
  | queue (q o : Nat)
  | dlink (die n : Nat)
  | watch (die u o : Nat)
  | slice (die sl o : Nat)
  | mgov (cl : Nat)
  | rblog (cl : Nat)
  | ctvec (core : Nat)
  | waddr (core n : Nat)
  | wctl (core n : Nat)
  | gwrx (core : Nat)
  | engine (m o : Nat)
  | fabric (o : Nat)
  | port (p : Nat)
  | route (d : Nat)
  | plost (n : Nat)
  | plset (n : Nat)
  | none
  deriving DecidableEq, Repr

/-- The gateway cores of a die (R335). -/
def gatewayCore (core : Nat) : Bool :=
  core % 8 == 7 && [0, 7, 24, 31, 56, 63].contains (clusterOfCore core % 64)

/-- The register at an 8-byte aligned offset of the register space. -/
def regAt (off : Nat) : Reg :=
  if off < 0x1000 then .device off
  else if off < 0x2000 then .queue ((off - 0x1000) / 0x40) (off % 0x40)
  else if 0x100000 ≤ off ∧ off < 0x500000 then
    let die := off / 0x100000 - 1
    let o := off % 0x100000
    if 0x100 ≤ o ∧ o < 0x130 then .dlink die ((o - 0x100) / 8)
    else if 0x200 ≤ o ∧ o < 0x300 then .watch die ((o - 0x200) / 32) (o % 32)
    else if 0x400 ≤ o ∧ o < 0x600 then .slice die ((o - 0x400) / 32) (o % 32)
    else if 0x10000 ≤ o ∧ o < 0x14000 then
      let cl := die * 64 + (o - 0x10000) / 0x100
      if o % 0x100 = 0 then .mgov cl else if o % 0x100 = 8 then .rblog cl else .none
    else if 0x80000 ≤ o ∧ o < 0x100000 then
      let core := die * 512 + (o - 0x80000) / 0x400
      let r := o % 0x400
      if r = 0 then .ctvec core
      else if 0x100 ≤ r ∧ r < 0x140 then (if r % 16 = 0 then .waddr core ((r - 0x100) / 16) else .wctl core ((r - 0x100) / 16))
      else if r = 0x180 ∧ gatewayCore core then .gwrx core
      else .none
    else .none
  else if 0x500000 ≤ off ∧ off < 0x500020 then .engine 0 (off % 0x20)
  else if 0x600000 ≤ off ∧ off < 0x600020 then .engine 1 (off % 0x20)
  else if 0x700000 ≤ off ∧ off < 0x702000 then
    let o := off - 0x700000
    if o < 0x100 then .fabric o
    else if o < 0x1C0 then .port ((o - 0x100) / 8)
    else if 0x1000 ≤ o ∧ o < 0x1800 then .route (o - 0x1000)
    else if 0x1800 ≤ o ∧ o < 0x1900 then .plost ((o - 0x1800) / 8)
    else if 0x1900 ≤ o ∧ o < 0x1A00 then .plset ((o - 0x1900) / 8)
    else .none
  else .none

/-! ### Reads -/

/-- The capability list (R411, R412), by offset. -/
def capability (o : Nat) : Word :=
  match o with
  | 0x100 => 0x0000000110010001
  | 0x108 => 64 + 0x1000 * 256
  | 0x110 => 0x0000000120010002
  | 0x118 => 0x040
  | 0x120 => 0x0000000130010003
  | 0x128 => 4096
  | 0x130 => 0x0000000140010004
  | 0x138 => 0x0C0
  | 0x140 => 0x0000000000010005
  | 0x148 => 0x700000 + 24 * 2 ^ 32
  | _ => 0

/-- QSTAT.STATE (R354). -/
def QState.code : QState → Nat
  | .disabled => 0
  | .idle => 1
  | .running => 2
  | .switchingOut => 3
  | .switchedOut => 4
  | .switchingIn => 5
  | .error => 6

/-- The queue registers as read (R354). -/
def queueRead (u : Queue) (o : Nat) : Word :=
  match o with
  | 0x00 => u.base
  | 0x08 => BitVec.ofNat 64 (u.sz * 2 ^ 16 + (if u.ctlq then 128 else 0) + u.eprio * 8 + u.prio * 2 + (if u.en then 1 else 0))
  | 0x10 => u.tail.setWidth 64
  | 0x18 => BitVec.ofNat 64 (u.rcnt.toNat * 2 ^ 32 + u.head.toNat)
  | 0x20 => u.qprog
  | 0x28 => u.rbase
  | 0x30 => u.paddr
  | 0x38 => BitVec.ofNat 64 (u.shadow.toNat * 2 ^ 32 + u.st.code)
  | _ => 0

/-- The state of a die-to-die link as DLINK reads it: itself 5, no link 6 (R399). -/
def linkState (die n st : Nat) : Nat :=
  if n = die then 5
  else if (n = 5 ∧ die < 2) ∨ (n = 4 ∧ 2 ≤ die) then 6
  else st

/-- DLINKn as read (R399). -/
def dlinkRead (die n : Nat) (k : Link) : Word :=
  BitVec.ofNat 64 (k.idle.toNat * 2 ^ 32 + k.spare * 2 ^ 16 + k.retry * 2 ^ 8 + linkState die n k.st)

/-- The registers of the device block as read (R353, R404, R405, R407, R408). -/
def deviceRead (s : State) (o : Nat) : Word :=
  match o with
  | 0x000 => 0x100
  | 0x020 => if s.tlbiBusy then 1 else 0
  | 0x048 =>
    let u := (s.reg 0x40).setWidth 32
    if unitListed u then BitVec.ofNat 64 ((s.eccOf u).total.toNat * 2 ^ 32 + (s.eccOf u).count) else 0
  | 0x060 => BitVec.ofNat 64 s.repair.length
  | 0x070 =>
    match s.repair[(s.reg 0x68).toNat]? with
    | some r => BitVec.ofNat 64 ((if r.act then 2 ^ 36 else 0) + r.cause * 2 ^ 32 + r.unit.toNat)
    | none => 0
  | 0x078 => 0
  | 0x0C0 => 0
  | 0x0D0 => BitVec.ofNat 64 (s.lmRes * 256 + (if s.lmCmd.isSome then 1 else 0))
  | _ => if 0x100 ≤ o then capability o else s.reg o

/-- A read of the register space at an 8-byte aligned offset (R351). -/
def regRead (s : State) (off : Nat) : Word :=
  match regAt off with
  | .device o => deviceRead s o
  | .queue q o => queueRead (s.queue q) o
  | .dlink d n => dlinkRead d n (Tbl.get {} (s.die d).links n)
  | .watch d u 0x00 => Tbl.get 0 (s.die d).lwaddr u
  | .watch d u 0x08 => Tbl.get 0 (s.die d).lwctl u
  | .watch d u 0x10 => Tbl.get 0 (s.die d).lwsrc u
  | .watch d u _ => Tbl.get 0 (s.die d).lwcnt u
  | .slice d sl 0x00 => (Tbl.get {} (s.die d).slices sl).req
  | .slice d sl 0x08 => BitVec.ofNat 64 (Tbl.get {} (s.die d).slices sl).high
  | .slice d sl 0x10 => (Tbl.get {} (s.die d).slices sl).full
  | .slice _ _ _ => 0
  | .mgov cl => (s.cluster cl).mgov
  | .rblog cl =>
    BitVec.ofNat 64 ((if (s.cluster cl).ovf.isEmpty then 0 else 2 ^ 16) + (s.cluster cl).undo.length)
  | .ctvec core => (s.core core).tvec
  | .waddr core n => Tbl.get 0 (s.core core).waddr n
  | .wctl core n => Tbl.get 0 (s.core core).wctl n
  | .gwrx core => (s.core core).gwrx
  | .engine m 0x00 => (Tbl.get {} s.engines m).pte
  | .engine m 0x08 => (Tbl.get {} s.engines m).dst
  | .engine m 0x10 => (Tbl.get {} s.engines m).ctl
  | .engine m _ =>
    let e := Tbl.get {} s.engines m
    BitVec.ofNat 64 (e.res * 2 + (if e.busy then 1 else 0))
  | .fabric o => s.reg (0x700000 + o)
  | .port p => s.reg (0x700100 + 8 * p)
  | .route d => BitVec.ofNat 64 (leNat ((List.range 8).map fun i => BitVec.ofNat 8 (Tbl.get 0 s.routes (d + i))))
  | .plost n => Tbl.get 0 s.lost n
  | .plset _ => 0
  | .none => 0

/-! ### Writes -/

/-- QTAIL (R355, R356): the tail, or the shadow in the switching states; a tail too far ahead leads to Error. -/
def qtailSet (q : Nat) (v : Word) (s : State) : State :=
  s.modQueue q fun u =>
    let t : BitVec 32 := v.setWidth 32
    let far := decide ((t - u.head).toNat > 2 ^ u.sz)
    match u.st with
    | .switchingOut => { u with shadow := t, shadowed := true }
    | .switchedOut => { u with shadow := t, shadowed := true }
    | .switchingIn => { u with shadow := t, shadowed := true }
    | .idle => { u with tail := t, st := if far then .error else .idle }
    | .running => { u with tail := t, errorNext := u.errorNext || far }
    | _ => { u with tail := t }

/-- QCTL (R354, R355, R358): the fields that the state lets through, then EN. Clearing EN of a Running or Switched out
queue aborts its launch; the queue is Disabled once the entry's progress is published (R308). -/
def qctlSet (q : Nat) (v : Word) (s : State) : State :=
  let u := s.queue q
  let sz := field v 16 5
  let prio := field v 1 2
  let u := { u with prio := prio, eprio := min u.eprio prio }
  let u := if u.st == .disabled then
      { u with sz := if 4 ≤ sz ∧ sz ≤ 20 then sz else u.sz, ctlq := v.getLsbD 7 } else u
  let s := s.modQueue q fun _ => u
  if v.getLsbD 0 then
    s.modQueue q fun u => if u.st == .disabled then { u with en := true, st := .idle } else u
  else
    match u.st with
    | .running =>
      if u.closing then s.modQueue q fun u => { u with en := false }
      else endLaunch q { status := 8 } (s.modQueue q fun u => { u with en := false })
    | .switchedOut => endLaunch q { status := 8 } (s.modQueue q fun u => { u with en := false })
    | .idle => s.modQueue q fun u => { u with en := false, st := .disabled }
    | .error => s.modQueue q fun u => { u with en := false, st := .disabled }
    | _ => s

/-- The other queue registers: the bases while Disabled (R354). -/
def queueWrite (q o : Nat) (v : Word) (s : State) : State :=
  let dis := fun (f : Queue → Queue) => s.modQueue q fun u => if u.st == .disabled then f u else u
  match o with
  | 0x00 => dis fun u => { u with base := setField 0 12 40 (field v 12 40) }
  | 0x08 => qctlSet q v s
  | 0x10 => qtailSet q v s
  | 0x28 => dis fun u => { u with rbase := setField 0 5 47 (field v 5 47) }
  | 0x30 => dis fun u => { u with paddr := setField 0 3 49 (field v 3 49) }
  | _ => s

/-- The caches lose the entries that an invalidation removes (R369). -/
def tlbiRemove (kind asid va : Nat) (s : State) : State :=
  let page := fun (t : TlbEnt) => va / 2 ^ t.size * 2 ^ t.size == t.va
  let keepT := fun (t : TlbEnt) =>
    match kind with
    | 0 => false
    | 1 => t.asid != asid || t.leaf.getLsbD 59
    | 2 => !(page t && (t.asid == asid || t.leaf.getLsbD 59))
    | _ => !page t
  let keepW := fun (w : WalkEnt) =>
    match kind with
    | 1 => w.asid != asid
    | 2 => w.asid != asid
    | _ => false
  let cores := s.cores.map (·.1)
  let cls := s.clusters.map (·.1)
  let s := cores.foldl (fun s k => s.modCore k fun c => { c with dtlb := c.dtlb.filter keepT }) s
  cls.foldl (fun s k => s.modCluster k fun c => { c with tlb := c.tlb.filter keepT, walk := c.walk.filter keepW }) s

/-- The ASID of a posted store: that of its launch, and of a line of a copy that of the copy's table (R359, R364). -/
def State.postAsid (s : State) (p : Post) : Nat :=
  match p.copy.bind fun id => s.copies.find? (·.id == id) with
  | some c => c.env.asid
  | none => (s.launch p.launch).asid

/-- Whether an access under an ASID may have used an entry that an invalidation removes; a page is taken as 2 MiB (R369)
(DEDUCED, log entry 66). -/
def usedEntry (kind asid va mine used : Nat) : Bool :=
  let own := mine == asid
  let page := used / 2 ^ 21 == va / 2 ^ 21
  match kind with
  | 0 => true
  | 1 => own
  | 2 => own && page
  | _ => page

/-- Whether a posted store with a translated place has still to be performed, and may have used such an entry (R369)
(DEDUCED, log entry 66). -/
def State.postUsed (s : State) (kind asid va : Nat) (p : Post) : Bool :=
  decide (2048 ≤ p.dest) && p.marker.isNone && (p.st == .waiting || p.st == .sent) &&
    usedEntry kind asid va (s.postAsid p) p.va.toNat

/-- Whether an invalidation still waits for an access (R369) (DEDUCED, log entry 66). -/
def State.tlbiWaits (s : State) : Bool :=
  s.posts.any (fun p => s.tlbiPosts.contains p.id && (p.st == .waiting || p.st == .sent)) ||
    s.tiles.any fun t => s.tlbiTiles.contains t.key

/-- TLBICTL (R353, R369): ASID and KIND, and GO starts an invalidation unless one is in progress
(DEDUCED, log entry 66). -/
def tlbictlSet (v : Word) (s : State) : State :=
  let s := s.setReg 0x18 (setField (setField 0 16 16 (field v 16 16)) 1 2 (field v 1 2))
  if v.getLsbD 0 && !s.tlbiBusy then
    let va := field (s.reg 0x10) 12 45 * 4096
    { (tlbiRemove (field v 1 2) (field v 16 16) va s) with
      tlbiBusy := true
      tlbiPosts := (s.posts.filter (s.postUsed (field v 1 2) (field v 16 16) va)).map (·.id)
      tlbiTiles := (s.tiles.filter fun t => usedEntry (field v 1 2) (field v 16 16) va (s.launch (s.ctx t.key).launch).asid va).map (·.key) }
  else s

/-- The copies of a line that the dies hold in E, M or O are recalled, dirty data included (R285). -/
def recallLine (line : Nat) (s : State) : State :=
  let s := askHost false line s
  let ds := [0, 1, 2, 3].filter fun d => decide (s.dieLine d line ≥ 2)
  if ds.isEmpty then s
  else
    let e := s.dirOf line
    setDir line { e with owner := none, sharers := e.holders.filter fun d => !ds.contains d }
      (cleanLine line (ds.foldl (fun s d => setDieLine d line 0 s) s))

/-- The lines that armed line-watch units watch are recalled, once no tile holds them and no request to them is in progress
(R275, R285) (DESIGN CHOICE, log entry 64). -/
def recallWatched (s : State) : State :=
  s.dies.foldl (fun s p => p.2.lwctl.foldl (fun s u =>
    let line := field (Tbl.get 0 (s.die p.1).lwaddr u.1) 7 45 * 128
    if u.2.getLsbD 0 && s.lineWatched line && !s.tileHolds line && !s.lineBusy line then recallLine line s else s) s) s

/-- LWCTL (R284, R285): EN stays 0 where the line is no HBM or far-tier line homed on the die. Copies that the dies hold
in E, M or O are recalled. -/
def lwctlSet (die u : Nat) (v : Word) (s : State) : State :=
  let line := field (Tbl.get 0 (s.die die).lwaddr u) 7 45 * 128
  let ok := homeDie line = some die ∧ (physKind line = some 0 ∨ physKind line = some 1)
  let v' := v &&& 0x13FFF#64
  let v' := if ok then v' else v' &&& ~~~1#64
  let s := s.modDie die fun d => { d with lwctl := Tbl.set 0 d.lwctl u v' }
  if v'.getLsbD 0 then recallWatched s else s

/-- LWCNT (R284): a write of 0 clears it. -/
def lwcntSet (die u : Nat) (v : Word) (s : State) : State :=
  if v = 0 then s.modDie die fun d => { d with lwcnt := Tbl.set 0 d.lwcnt u 0 } else s

/-- The slice counters (R348): a write of 0 clears; SLQHW restarts from the occupancy at the end of this clock. -/
def sliceSet (die sl o : Nat) (v : Word) (s : State) : State :=
  if v != 0 then s
  else s.modDie die fun d =>
    let e := Tbl.get {} d.slices sl
    let e := match o with
      | 0x00 => { e with req := 0 }
      | 0x08 => { e with high := 0 }
      | 0x10 => { e with full := 0 }
      | _ => e
    { d with slices := Tbl.set {} d.slices sl e }

/-- MGOV (R234): a write with W below 16, B = 0 or B above W is ignored. -/
def mgovSet (cl : Nat) (v : Word) (s : State) : State :=
  let w := field v 16 10
  let b := field v 0 10
  if w < 16 ∨ b = 0 ∨ b > w then s
  else s.modCluster cl fun c => { c with mgov := BitVec.ofNat 64 (w * 2 ^ 16 + b) }

/-- CTVEC (R384). -/
def ctvecSet (core : Nat) (v : Word) (s : State) : State :=
  s.modCore core fun k => { k with tvec := setField 0 6 51 (field v 6 51) }

/-- WADDRn (R282). -/
def waddrSet (core n : Nat) (v : Word) (s : State) : State :=
  s.modCore core fun k => { k with waddr := Tbl.set 0 k.waddr n (setField 0 0 57 (field v 0 57)) }

/-- WCTLn (R282): a SIZE of 13 to 15 makes the write ignored. -/
def wctlSet (core n : Nat) (v : Word) (s : State) : State :=
  if field v 8 4 > 12 then s
  else s.modCore core fun k => { k with wctl := Tbl.set 0 k.wctl n (v &&& 0x7FF0F07#64) }

/-- First byte and length of a gateway's area (R335). -/
def gwArea (g : Word) : Nat × Nat := (field g 0 26, field g 32 16 * 2 ^ (field g 48 4 + 7))

/-- GWRX (R335, R337): an area beyond 64 MiB, one that overlaps another gateway's of the die, or one not aligned to its
block size is ignored. READY bits, counts and the next index are cleared (DEDUCED, log entry 55). -/
def gwrxSet (core : Nat) (v : Word) (s : State) : State :=
  let v := v &&& 0x000FFFFF03FFFFFF#64
  let (o, n) := gwArea v
  let others := (s.cores.filter fun p => p.1 != core && dieOfCore p.1 == dieOfCore core).map fun p => gwArea p.2.gwrx
  if field v 48 4 > 13 ∨ o + n > 0x4000000 ∨ o % 2 ^ (field v 48 4 + 7) ≠ 0 then s
  else if others.any fun a => decide (n ≠ 0 ∧ a.2 ≠ 0 ∧ a.1 < o + n ∧ o < a.1 + a.2) then s
  else s.modCore core fun k => { k with gwrx := v, gqueue := [], gready := [], gcount := [], gnext := 0, gdone := [] }

/-- The migration engines' registers other than MGCTL's GO (R370). -/
def engineWrite (m o : Nat) (v : Word) (s : State) : State :=
  let e := Tbl.get {} s.engines m
  let e := match o with
    | 0x00 => { e with pte := setField 0 3 49 (field v 3 49) }
    | 0x08 => { e with dst := setField 0 12 40 (field v 12 40) }
    | 0x10 => { e with ctl := v &&& 0x1E#64 }
    | _ => e
  { s with engines := Tbl.set {} s.engines m e }

/-- PORTp (R380, R381): UP is read-only; a VCM of mode 3 is ignored, and one that gives mode 0 or 1 to a port that
leaves the enclosure (DEDUCED, log entry 18). -/
def portSet (p : Nat) (v : Word) (s : State) : State :=
  let off := 0x700100 + 8 * p
  let old := s.reg off
  let modes := (List.range 5).map fun i => field v (2 * i) 2
  let w := setField (setField old 15 1 (field v 15 1)) 12 3 (field v 12 3)
  let weak := modes.any (· == 3) || (v.getLsbD 15 && modes.any fun m => decide (m < 2))
  s.setReg off (if weak then w else setField w 0 10 (field v 0 10))

/-- Whether a device is judged lost (R397). -/
def State.isLost (s : State) (dev : Nat) : Bool := (Tbl.get 0 s.lost (dev / 64)).getLsbD (dev % 64)

/-- The devices that a mask of register n names. -/
def maskDevs (n : Nat) (v : Word) : List Nat := ((List.range 64).filter fun i => v.getLsbD i).map fun i => 64 * n + i

end Sys2Proof.Machine
end

