-- ==== Sys2Proof/Machine/Formats.lean ====
section
/-!
DEFINITION. The narrow formats: FP8 E4M3 (R55), KV4 (R56), the shade-hairline blocks (R57 to R59), the conversions of
R60 and R61 that reach them, the binary128 accumulator (R63 to R65) and the order of reductions (R66, R67).
-/

namespace Sys2Proof.Machine

open Sys2Proof

/-- A value decoded from an E4M3 byte; a NaN counts as quiet (R55). -/
def e4m3Decode (b : Nat) : FVal :=
  let neg := b / 128 % 2 == 1
  let e := b / 8 % 16
  let m := b % 8
  if e = 15 ∧ m = 7 then .nan false
  else if e = 0 then .fin neg m (-9)
  else .fin neg (m + 8) ((e : Int) - 10)

/-- Entry Z of R61: rounded once under the mode, then saturated (R55). -/
def e4m3Encode (mode : Nat) : FVal → Nat × Flags
  | .nan s => (0x7F, if s then flagNV else 0)
  | .inf n => ((if n then 0x80 else 0) + 0x7E, flagOF ||| flagNX)
  | .fin n m e =>
    let sign := if n then 0x80 else 0
    if m = 0 then (sign, 0)
    else
      let x := roundedExp mode n m e 4
      if x < -6 then
        let (q, inexact) := roundAt mode n m e (-9)
        (sign + q, if inexact then flagUF ||| flagNX else 0)
      else
        let (q, inexact) := roundAt mode n m e (x - 3)
        if x > 8 ∨ (x = 8 ∧ q > 14) then (sign + 0x7E, flagOF ||| flagNX)
        else (sign + (x + 7).toNat * 8 + (q - 8), if inexact then flagNX else 0)

/-- A KV4 element: q · scale, a zero always +0; a NaN or infinite scale makes a NaN (R56). -/
def kv4Value (q : Nat) (scale : Nat) : FVal :=
  let i : Int := if q % 16 < 8 then (q % 16 : Nat) else (q % 16 : Nat) - 16
  match f16.decode false scale with
  | .nan _ => .nan false
  | .inf _ => .nan false
  | .fin n m e =>
    let p := m * i.natAbs
    if p = 0 then .fin false 0 0 else .fin (n != decide (i < 0)) p e

/-- k of an SH format by its PFX.FMT code (R24, R57). -/
def shK (fmt : Nat) : Nat := if fmt = 1 then 6 else if fmt = 2 then 4 else 2

/-- Element-plane bytes of an SH block (R57). -/
def shBytes (fmt : Nat) : Nat := if fmt = 1 then 32 else if fmt = 2 then 24 else 16

/-- Δ in force: 0 selects the default of R57. -/
def shDelta (fmt d : Nat) : Nat := if d = 0 then shK fmt else d

/-- An SH element decoded (R58). -/
def shValue (k elem shade hair : Nat) : FVal :=
  if shade = 0xFF ∨ hair = 0xFF then .nan false
  else
    let m := elem % 2 ^ k
    let sel := if elem / 2 ^ k % 2 = 1 then shade else hair
    if sel = 0 ∨ m = 0 then .fin false 0 0
    else .fin (elem / 2 ^ (k + 1) % 2 == 1) m ((sel : Int) - 127 - (k - 1))

/-- Element j of an SH block's element plane, read as one little-endian number (R57). -/
def shElem (k : Nat) (plane : List Byte) (j : Nat) : Nat := leNat plane / 2 ^ ((k + 2) * j) % 2 ^ (k + 2)

/-- A block's 32 values (R58). -/
def shDecode (fmt : Nat) (plane : List Byte) (shade hair : Nat) : List FVal :=
  (List.range 32).map fun j => shValue (shK fmt) (shElem (shK fmt) plane j) shade hair

/-- a · 2^(k−1) / 2^(sc−127) rounded to an integer with RNE, for a = m·2^e (R59). -/
def shUnits (k sc m : Nat) (e : Int) : Nat × Bool :=
  roundAt 0 false m (e + k - 1 - ((sc : Int) - 127)) 0

/-- floor(log₂ (m·2^e)) of a nonzero value. -/
def floorLog2 (m : Nat) (e : Int) : Int := (bitLen m : Int) - 1 + e

/-- Whether m·2^e is below m'·2^e'. -/
def magLt (m : Nat) (e : Int) (m' : Nat) (e' : Int) : Bool :=
  let lo := min e e'
  decide (m * 2 ^ (e - lo).toNat < m' * 2 ^ (e' - lo).toNat)

/-- The quantiser of R59 on 32 binary32 patterns: the two scale bytes, the elements, and the flags. -/
def quantiseSH (xs : List Nat) (k delta : Nat) : Nat × Nat × List Nat × Flags :=
  let vs := xs.map (f32.decode false)
  if vs.any FVal.isNan then
    (0xFF, 0xFF, List.replicate 32 0, if vs.any FVal.isSig then flagNV else 0)
  else
    let satInf := vs.any fun v => match v with | .inf _ => true | _ => false
    let fins : List (Bool × Nat × Int) := vs.map fun v =>
      match v with
      | .inf n => (n, 2 ^ 24 - 1, 104)
      | .fin n m e => (n, m, e)
      | .nan _ => (false, 0, 0)
    let amax := fins.foldl (fun (a : Nat × Int) v => if magLt a.1 a.2 v.2.1 v.2.2 then (v.2.1, v.2.2) else a) (0, 0)
    let flag := fun (sat inexact : Bool) => (if sat then flagOF else 0) ||| (if sat || inexact then flagNX else 0)
    if amax.1 = 0 then (0, 0, List.replicate 32 0, 0)
    else
      let sh0 := min (max (floorLog2 amax.1 amax.2 + 127) 1) 254 |>.toNat
      let sh := if (shUnits k sh0 amax.1 amax.2).1 = 2 ^ k ∧ sh0 < 254 then sh0 + 1 else sh0
      let hl := max (sh - delta) 1
      let elems : List (Nat × Bool × Bool) := fins.map fun v =>
        let (qh, ih) := shUnits k hl v.2.1 v.2.2
        let (sel, m, sat, inexact) :=
          if qh ≤ 2 ^ k - 1 then (0, qh, false, ih)
          else
            let (qs, is) := shUnits k sh v.2.1 v.2.2
            if qs > 2 ^ k - 1 then (1, 2 ^ k - 1, true, true) else (1, qs, false, is)
        let s := if m = 0 then 0 else if v.1 then 1 else 0
        (s * 2 ^ (k + 1) + sel * 2 ^ k + m, sat, inexact)
      (sh, hl, elems.map (·.1), flag (satInf || elems.any (·.2.1)) (elems.any (·.2.2)))

/-- The element plane of 32 elements (R57). -/
def shPack (fmt : Nat) (elems : List Nat) : List Byte :=
  leBytes (shBytes fmt) (elems.foldr (fun e acc => acc * 2 ^ (shK fmt + 2) + e) 0)

/-- A value as binary32, RNE: the first half of entry Q (R61). -/
def toF32 (v : FVal) : Nat := (f32.deliver 0 false v).1

/-! ### Matrix operand formats (R221, R224) -/

/-- Block formats by PFX.FMT code: SH8, SH6, SH4 and KV4 (R221). -/
def blockFmt (fmt : Nat) : Bool := fmt == 1 || fmt == 2 || fmt == 3 || fmt == 5

/-- Element-plane bytes of a block of 32 (R221). -/
def planeBytes (fmt : Nat) : Nat := if fmt = 1 then 32 else if fmt = 2 then 24 else 16

/-- Bytes of an element of an element format: E4M3, BF16, FP16, FP32, INT8 (R221). -/
def elemBytes (fmt : Nat) : Nat :=
  if fmt = 4 then 1 else if fmt = 6 then 2 else if fmt = 7 then 2 else if fmt = 8 then 4 else 1

/-- The narrow class of R64. -/
def narrowFmt (fmt : Nat) : Bool := fmt != 6 && fmt != 7 && fmt != 8

/-- An element of an element format decoded (R55, R46, R44). -/
def elemValue (fmt v : Nat) : FVal :=
  match fmt with
  | 4 => e4m3Decode v
  | 6 => bf16.decode false v
  | 7 => f16.decode false v
  | 8 => f32.decode false v
  | _ => let i : Int := if v % 256 < 128 then (v % 256 : Nat) else (v % 256 : Nat) - 256
         .fin (decide (i < 0)) i.natAbs 0

/-- An element of a block decoded: its k + 2 bits, or four bits for KV4, and the block's two scale bytes. -/
def blockValue (fmt elem : Nat) (scale : BitVec 16) : FVal :=
  if fmt = 5 then kv4Value elem scale.toNat
  else shValue (shK fmt) elem (scale.toNat % 256) (scale.toNat / 256)

/-- Bits of a block element (R56, R57). -/
def blockBits (fmt : Nat) : Nat := if fmt = 5 then 4 else shK fmt + 2

/-! ### The binary128 accumulator (R63 to R65) -/

/-- The exact product of two operand elements, or none where it changes nothing (R65). -/
def product (a b : FVal) : Option FVal :=
  match (mulVal a b).1 with
  | .fin n m e => if m = 0 then none else some (.fin n m e)
  | v => some v

/-- One addition to an accumulator element, RNE (R64). -/
def accAdd (acc : Nat) (v : FVal) : Nat :=
  (f128.deliver 0 false (addVal 0 (f128.decode false acc) v).1).1

/-- The exact sum of a group's products (R64, narrow class); none where it is exactly zero or empty (R65). -/
def groupSum (ps : List FVal) : Option FVal :=
  match ps.foldl (fun (a : FVal) p => (addVal 0 a p).1) (.fin false 0 0) with
  | .fin n m e => if m = 0 then none else some (.fin n m e)
  | v => some v

/-- Products added to an element: in groups of 32 from the first k for the narrow class, singly otherwise (R64, R65).
Each entry of the list is one k's product, none where it changes nothing. -/
def accumulate (narrow : Bool) (acc : Nat) (groups : List (List (Option FVal))) : Nat :=
  groups.foldl (fun a g =>
    let ps := g.filterMap id
    if narrow then
      match groupSum ps with
      | some v => accAdd a v
      | none => a
    else ps.foldl accAdd a) acc

/-! ### Reductions (R66, R67) -/

/-- One round of R66: lane i with lane i + h for i below n − h. -/
def reduceRound {α : Type} (op : α → α → α) (h : Nat) (t : List (Option α)) : List (Option α) :=
  let low := t.take h
  let high := t.drop h
  (List.range h).map fun i =>
    match low.getD i none, high.getD i none with
    | some a, some b => some (op a b)
    | some a, none => some a
    | none, b => b

/-- PairwiseReduce of R66; `fuel` bounds the rounds. -/
def pairwise {α : Type} (op : α → α → α) : Nat → List (Option α) → Option α
  | 0, t => t.headD none
  | f + 1, t => if t.length ≤ 1 then t.headD none else pairwise op f (reduceRound op ((t.length + 1) / 2) t)

end Sys2Proof.Machine
end

