-- ==== Sys2Proof/Machine/Streams.lean ====
section
/-!
DEFINITION. Posted stores and their streams (07 R195 to R201), and accesses through the Tvedlon window (07 R194; 09 R265,
R266, R277; 16 R382): how they leave, what the target does with them, and how they end.
-/

namespace Sys2Proof.Machine

open Sys2Proof

/-! ### Destinations -/

/-- The destination number of a compute die of this package. -/
def dieDest (d : Nat) : Nat := 2048 + d

/-- The destination number of host uncached memory (R306). -/
def hostDest : Nat := 4096

/-- A counter's key: stream and destination (R14). -/
def streamKey (stream dest : Nat) : Nat := stream * 8192 + dest

/-- The counter of a core for a stream and destination (R14). -/
def State.stream (s : State) (core stream dest : Nat) : Stream := Tbl.get {} (s.core core).streams (streamKey stream dest)

/-- A counter changed. -/
def modStream (core stream dest : Nat) (f : Stream → Stream) (s : State) : State :=
  s.modCore core fun k =>
    { k with streams := Tbl.set {} k.streams (streamKey stream dest) (f (Tbl.get {} k.streams (streamKey stream dest))) }

/-- The number of a fresh thing: a posted store, a copy, a request. -/
def newId : M Nat := freeNext

/-- Whether traffic to a device completes at once, unanswered: it is lost, no route leads there, or the domain is off
(R194, R383, R398). -/
def State.unreachable (s : State) (dev : Nat) : Bool :=
  s.isLost dev || !s.domEn || Tbl.get 0 s.routes dev == 0xFF

/-- A message leaves for another device (DEDUCED, log entry 56). -/
def sendOut (m : Outward) (s : State) : State := { s with outbox := s.outbox ++ [m] }

/-- The destination of a posted byte at an address of an environment, where it has one (R195). -/
def State.destOf (s : State) (e : Env) (va : Nat) : Option Nat :=
  match (resolve e va 1 accWrite).run s with
  | .ok (.window a) _ => some (windowDev a)
  | .ok (.mem p mt) _ => if mt = 3 then some hostDest else (homeDie p).map dieDest
  | .ok (.bank p) _ => some (dieDest (bankDie p))
  | _ => none

/-- The address that a destination byte of a copy has now: through the block table of a view that it writes (R246). -/
def State.copyAddr (s : State) (c : Copy) (dst : Nat) : Nat :=
  if c.mode = 2 then
    match (resolve c.env ((c.table + 4 * (dst / c.bs)) % 2 ^ 57) 4 accRead).run s with
    | .ok (.mem p _) _ => viewAddr c dst (leNat (s.bytes p 4))
    | .ok (.bank p) _ => viewAddr c dst (leNat (s.bytes p 4))
    | _ => 0
  else dst % 2 ^ 57

/-- Whether a copy has still a line to send to a destination (R201). -/
def State.copySends (s : State) (c : Copy) (dest : Nat) : Bool :=
  !c.stopped && !c.astage && (List.range (c.total - c.next)).any fun i =>
    (c.line (c.next + i)).any fun q => s.destOf c.env (s.copyAddr c q.dst) == some dest

/-! ### Posting -/

/-- The place of a posted store in the order of issue: a copy's lines stand where the copy does (R201). -/
def Post.order (p : Post) : Nat := p.copy.getD p.id

/-- A posted store takes its number where the counter has room and nothing of its stream waits before it (R196). A marker
waits while a copy that its context issued earlier still has a line to send on the stream to its destination (R201). -/
def stampPost (p : Post) (s : State) : Post × State :=
  let k := s.stream p.core p.stream p.dest
  let behind := s.posts.any fun q => q.core == p.core && q.stream == p.stream && q.dest == p.dest && q.st == .waiting &&
    decide (q.order < p.order)
  let held := p.marker.isSome && s.copies.any fun c =>
    c.key == some p.key && c.stream == p.stream && decide (c.id < p.id) && s.copySends c p.dest
  if p.dest = hostDest then ({ p with st := .sent }, s)
  else if held then ({ p with st := .waiting }, s)
  else if k.unacked < 64 ∧ !behind then
    ({ p with seq := k.next, st := .sent },
      modStream p.core p.stream p.dest (fun k => { next := k.next + 1, unacked := k.unacked + 1 }) s)
  else ({ p with st := .waiting }, s)

/-- A posted store enters the list; one to an unreachable device is written off at once (R398). -/
def addPost (p : Post) : M Unit := do
  let s ← get
  if p.dest < 2048 ∧ s.unreachable p.dest then
    let q := { p with st := .lost, bytes := [], marker := none }
    let same := s.posts.any fun r => r.key == q.key && r.stream == q.stream && r.dest == q.dest && r.st == .lost
    if !same && p.copy.isNone && p.marker.isNone then set { s with posts := s.posts ++ [q] }
  else
    let (q, s) := stampPost p s
    set { s with posts := s.posts ++ [q] }

/-- Whether a marker of a `mark` still has no number on a stream to a destination: later posted stores of the core wait at
issue (R201). -/
def State.markPending (s : State) (core stream dest : Nat) : Bool :=
  s.posts.any fun q => q.core == core && q.stream == stream && q.dest == dest && q.marker.isSome && q.st == .waiting

/-- Whether a counter is full, so that a posted store waits at issue (R196). A destination that is unreachable has no
counter to wait for. -/
def State.streamFull (s : State) (core stream dest : Nat) : Bool :=
  !(decide (dest < 2048) && s.unreachable dest) &&
    (decide ((s.stream core stream dest).unacked ≥ 64) || s.markPending core stream dest ||
      s.posts.any fun q => q.core == core && q.stream == stream && q.dest == dest && q.st == .waiting)

/-- Whether an earlier posted store of a context to the same line has gone out on another stream and is unacknowledged
(R173, R280). -/
def State.otherStream (s : State) (key stream dest va place : Nat) : Bool :=
  s.posts.any fun q => q.key == key && q.dest == dest && q.stream != stream && q.marker.isNone && q.st != .lost &&
    q.copy.isNone && (if dest < 2048 then q.va.toNat / 128 == va / 128 else q.place / 128 == place / 128)

/-! ### Windows at the destination -/

/-- The key of a reorder window: the source device (2048 for this package), core and stream, and the die (R197). -/
def windowKey (dev core stream die : Nat) : Nat := ((dev * 2048 + core) * 16 + stream) * 4 + die

/-- The next number that a window expects (R198). -/
def State.expected (s : State) (k : Nat) : BitVec 12 := Tbl.get 0 s.windows k

/-- Markers that a window has committed. -/
def State.marksAt (s : State) (k : Nat) : Nat := Tbl.get 0 s.wmarks k

/-- Whether a source core's markers let a store of a stream commit: every stream has committed as many (R201). -/
def State.marksLet (s : State) (dev core stream die : Nat) : Bool :=
  (List.range 16).all fun t => decide (s.marksAt (windowKey dev core stream die) ≤ s.marksAt (windowKey dev core t die))

/-- A window moves past a number; a marker is counted. -/
def advanceWindow (k : Nat) (marker : Bool) (s : State) : State :=
  { s with windows := Tbl.set 0 s.windows k (s.expected k + 1)
           wmarks := if marker then Tbl.set 0 s.wmarks k (s.marksAt k + 1) else s.wmarks }

/-- The window key of a posted store of this package. -/
def Post.window (p : Post) (self : Nat) : Nat :=
  if p.dest < 2048 then windowKey self p.core p.stream 0 else windowKey 2048 p.core p.stream (p.dest - 2048)

/-! ### The export table -/

/-- The exported address space (R380) (DEDUCED, log entry 17). -/
def exportEnv (s : State) : Env :=
  let w := s.reg 0x700020
  { core := 0, tlb := false, launch := noLaunch, ptroot := field w 12 40 * 4096, asid := field w 0 12, priv := 0, mig := false
    pslot := 0, imageOf := none }

/-- The unit that a window address of kinds 01 to 11 names: a core, a cluster or a die (R265). -/
def unitOfCore (kind core : Nat) : Nat := if kind = 1 then core else if kind = 2 then core / 8 else core / 512

/-- Whether an export entry matches an access (R382). -/
def exportMatches (e0 e1 e2 e3 : Word) (src va n : Nat) : Bool :=
  let kind := va / 2 ^ 42 % 4
  let off := if kind = 0 then va % 2 ^ 42 else va % 2 ^ 31
  let lo := field e1 0 42
  e0.getLsbD 0 && field e0 1 2 == kind && field e0 6 10 == 0 && field e0 27 5 == 0 && field e0 43 21 == 0 &&
    field e1 42 22 == 0 && field e2 42 22 == 0 && (if kind = 0 then field e3 57 7 == 0 else field e3 11 53 == 0) &&
    decide (field e0 16 11 ≤ src ∧ src ≤ field e0 32 11) && decide (lo ≤ off ∧ off + n ≤ lo + field e2 0 42) &&
    (kind == 0 || unitOfCore kind (field e3 0 11) == unitOfCore kind (va / 2 ^ 31 % 2048))

/-- The entry that decides an access, in table order (R382): from entry `i`, `n` left (DEDUCED, log entry 17). -/
def exportFind (s : State) (src va len i : Nat) : Nat → Option (Word × Word × Word)
  | 0 => none
  | n + 1 =>
    let p := field (s.reg 0x700010) 5 47 * 32 + 32 * i
    let w := fun o => BitVec.ofNat 64 (leNat (s.bytes (p + o) 8))
    if exportMatches (w 0) (w 8) (w 16) (w 24) src va len then some (w 0, w 8, w 24)
    else exportFind s src va len (i + 1) n

/-- Where a window access of `n` bytes leads at this device, or a rejection (R266, R382). `bit` is 3 for a read, 4 for a
write, 5 for a remote atomic (DEDUCED, log entries 17 and 52). -/
def targetLoc (src va n bit : Nat) : M Loc := do
  let s ← get
  match exportFind s src va n 0 (field (s.reg 0x700018) 0 12) with
  | none => fault 6 1 0
  | some (e0, e1, e3) =>
    if !e0.getLsbD bit then fault 6 1 0
    else
      let kind := va / 2 ^ 42 % 4
      let core := va / 2 ^ 31 % 2048
      let o := va % 2 ^ 31
      if kind = 0 then
        let (pa, mt) ← translate (exportEnv s) ((field e3 0 57 + va % 2 ^ 42 - field e1 0 42) % 2 ^ 57)
          (if bit = 3 then accRead else if bit = 4 then accWrite else accAtomic)
        match ← physLoc va pa mt with
        | .mem p mt => if bit = 5 ∧ mt = 3 then fault 6 4 0 else return .mem p mt
        | _ => fault 6 1 0
      else if kind = 1 then
        let image := s.forwarded core noLaunch
        if !s.awayCore core && decide (o + n ≤ s.scratchLimit core image) then scratchLoc va core o image
        else fault 6 1 0
      else if kind = 2 then
        if o + n ≤ 0x200000 then aliveBank va (dieOfCore core) (placeCluster (clusterOfCore core) o) else fault 6 1 0
      else
        if o + n ≤ 0x4000000 then aliveBank va (dieOfCore core) (placeDie (dieOfCore core) o) else fault 6 1 0

/-- A place of a location that holds bytes. -/
def Loc.place? : Loc → Option Nat
  | .mem p _ => some p
  | .bank p => some p
  | _ => none

/-- Bytes that a window write lands in gateway areas of a die are counted; a block that they complete is on its way to the
ready queue, and later writes to it are not counted (R336). -/
def countGateway (dev p n : Nat) (s : State) : State :=
  s.cores.foldl (fun s kc =>
    let core := kc.1
    let g := (s.core core).gwrx
    let (o, len) := gwArea g
    let base := placeDie (dieOfCore core) o
    if gatewayCore core && decide (len ≠ 0 ∧ base ≤ p ∧ p + n ≤ base + len) then
      let blk := (p - base) / 2 ^ (field g 48 4 + 7)
      if Tbl.get 0 (s.core core).gready blk != 0 || (s.core core).gdone.any (·.1 == blk) then s
      else s.modCore core fun k =>
        let count := Tbl.get 0 k.gcount blk / 2048 + n
        { k with gcount := Tbl.set 0 k.gcount blk (count * 2048 + dev % 2048)
                 gdone := if count ≥ 2 ^ (field g 48 4 + 7) then k.gdone ++ [(blk, dev)] else k.gdone }
    else s) s

/-- Bytes that a store writes without a hole: their first place, the bytes, their marks, none where none is marked, and
whether they lie in host memory that is not cached (R183, R239, R306). -/
structure StoreRun where
  place : Nat
  bytes : List Byte
  marks : List Nat := []
  host : Bool := false
  deriving DecidableEq, Repr

/-- The runs of a line's bytes with their marks, each at its offset. -/
def lineRuns (skip : List Nat) (bs : List Byte) (marks : List Nat) : List StoreRun :=
  (maskRuns skip 0 bs).map fun r => { place := r.1, bytes := r.2, marks := (marks.drop r.1).take r.2.length }

/-- The places of the runs of a line that arrives at this device, each under its own check. -/
def landPlaces (src va : Nat) : List StoreRun → M (List StoreRun)
  | [] => return []
  | r :: t => do
    let l ← targetLoc src (va + r.place) r.bytes.length 4
    match l.place? with
    | some p => return { r with place := p, host := l == .mem p 3 } :: (← landPlaces src va t)
    | none => fault 6 1 0

/-- The runs of one line are written as one write (R183). -/
def State.storeRuns (s : State) (w : Source) : List (Nat × List Byte) → State
  | [(p, bs)] => s.store w p bs
  | runs => s.storeCells w (runCells runs)

/-- The runs of one line are written as one write, with their marks (R183, R239, R402). -/
def State.storeMarked (s : State) (w : Source) (runs : List StoreRun) : State :=
  runs.foldl (fun s r => s.setMarks r.place r.marks) (s.storeRuns w (runs.map fun r => (r.place, r.bytes)))

/-- A line that arrives at a gateway: its address, bytes and holes, and the marks of its bytes (R402). -/
structure Line where
  va : Nat
  bytes : List Byte
  skip : List Nat
  marks : List Nat := []
  deriving DecidableEq, Repr

/-- The places of several lines. -/
def landLines (src : Nat) : List Line → M (List (List StoreRun))
  | [] => return []
  | l :: t => do
    let r ← landPlaces src l.va (lineRuns l.skip l.bytes l.marks)
    return r :: (← landLines src t)

/-- What becomes of a store at a gateway: it is performed or rejected (R199), or it waits for the GO of stores to host
memory, by their tile (R306). -/
inductive Landing where
  | performed
  | rejected
  | sent (tile : Nat)
  deriving DecidableEq, Repr

/-- Runs in host memory that is not cached leave a gateway as stores that the host answers with GO (R306)
(DEDUCED, log entry 52). -/
def sendHostRuns (tile : Nat) : List StoreRun → M Unit
  | [] => return ()
  | r :: t => do
    let id ← newId
    addPost { id := id, key := noKey, core := 0, slot := 0, launch := noLaunch, stream := 0, dest := hostDest, seq := 0
              st := .waiting, va := 0, place := r.place, bytes := r.bytes, marks := r.marks, tile := some tile
              marker := none, copy := none, kind := 2 }
    sendHostRuns tile t

/-- Whether a store to a granule of host memory that a gateway has sent has no GO yet (R306). -/
def State.hostRunOut (s : State) (p : StoreRun → Bool) : Bool :=
  s.posts.any fun q => q.dest == hostDest && p { place := q.place, bytes := q.bytes }

/-- Whether two runs share a granule of host memory (R306). -/
def StoreRun.shares (a b : StoreRun) : Bool :=
  decide (a.place / 64 ≤ (b.place + b.bytes.length - 1) / 64 ∧ b.place / 64 ≤ (a.place + a.bytes.length - 1) / 64)

/-- A posted store of one line, or all lines of a tile, is performed at its place in this package, or refused there as a
whole (R188, R199). Bytes in host memory that is not cached go to the host first, and the store is performed once their GO
has returned (R306); `go` names those that have gone. -/
def landStore (w : Source) (src : Nat) (go : Option Nat) (lines : List Line) : M Landing := do
  let s ← get
  match (landLines src lines).run s with
  | .ok ls s' =>
    let host := ls.flatten.filter (·.host)
    let stuck := ls.flatten.filter fun r => !r.host && s'.writeWaits .home r.place
    if !stuck.isEmpty then
      modify fun s => stuck.foldl (fun s r => noteMiss .home true r.place s) s
      heldAgain
    else
      match host, go with
      | h :: hs, none =>
        if s'.hostRunOut fun q => (h :: hs).any q.shares then heldAgain
        else
          set s'
          let tile := s'.fresh
          sendHostRuns tile (h :: hs)
          return .sent tile
      | _, _ =>
        if s'.posts.any fun q => q.dest == hostDest && q.tile == go && go.isSome then heldAgain
        else
          set (ls.foldl (fun s runs => runs.foldl (fun s r => countGateway src r.place r.bytes.length s)
            (s.storeMarked w (runs.filter (!·.host)))) s')
          return .performed
  | .error (.hold _ _) _ => heldAgain
  | .error _ _ => return .rejected

/-- The runs of a posted store at their places. -/
def Post.runs (p : Post) : List StoreRun :=
  (lineRuns p.skip p.bytes p.marks).map fun r => { r with place := p.place + r.place }

/-- A posted store with a place is performed there (R195, R306). -/
def performPost (w : Source) (p : Post) (s : State) : State :=
  if p.dest = hostDest then p.runs.foldl (fun s r => putBytes r.place r.bytes r.marks s) s
  else s.storeMarked w p.runs

/-- The writer of a posted store of this package (R286): the copy engine is a caching agent of its die (R241, R349), and
other posted stores are performed at the home (R195). -/
def Post.source (p : Post) (s : State) : Source :=
  let kind := if p.copy.isSome then 1 else p.kind
  { kind := kind, dev := s.devId, die := dieOfCore p.core, cl := clusterOfCore p.core % 64
    core := if kind = 5 then 0 else p.core % 8, ctx := if kind = 0 then p.slot else 0
    via := if kind = 1 then .l2 (dieOfCore p.core) else .home }

/-- The places of the bytes of a store into the window of this device, as its gateway finds them now (R266, R382). -/
def State.gatewayPlaces (s : State) (va : Nat) (offs : List Nat) : List Nat :=
  offs.filterMap fun o =>
    match (targetLoc s.devId (va + o) 1 4).run (clearNotes s) with
    | .ok l _ => l.place?
    | .error _ _ => none

/-- Whether a posted store of a context into the window of this device is still to write one of `n` bytes from a place
(R173, R266). -/
def State.gatewayPost (s : State) (key p n : Nat) : Bool :=
  s.posts.any fun q => q.pending key && q.st != .lost && q.dest == s.devId &&
    (s.gatewayPlaces q.va.toNat ((List.range q.bytes.length).filter fun i => !q.skip.contains i)).any fun a =>
      decide (p ≤ a ∧ a < p + n)

/-- Whether a posted store of a context is still to write, by another way, one of `n` bytes in the window (R173, R266). -/
def State.windowClash (s : State) (key va n : Nat) : Bool :=
  windowDev va == s.devId && s.posts.any (·.unperformed key) &&
    (s.gatewayPlaces va (List.range n)).any fun a => s.ownPost key a 1

/-- A posted store of a context: it waits at issue while its counter is full (R196), while an earlier one of the context to
the same line on another stream is unacknowledged, and while one to the same bytes goes another way (R173, R280). -/
def postStore (stream dest va place : Nat) (bytes : List Byte) : M Unit := do
  let s ← get
  let key := s.cur
  let core := coreOfKey key
  if s.streamFull core stream dest then heldAgain
  else if s.otherStream key stream dest va place then heldAgain
  else if (if dest < 2048 then s.windowClash key va bytes.length else s.gatewayPost key place bytes.length) then heldAgain
  else
    let id ← newId
    addPost { id := id, key := key, core := core, slot := slotOfKey key, launch := (s.ctx key).launch, stream := stream,
              dest := dest, seq := 0, st := .waiting, va := BitVec.ofNat 57 va, place := place, bytes := bytes,
              marker := none, copy := none }

/-- A gateway as the writer for a remote device (R286): DEV is the remote device, and DIE, CL and CORE are 0
(DESIGN CHOICE, log entry 60). -/
def gatewaySource (dev : Nat) : Source := { kind := 2, dev := dev }

/-- A posted store of the list changed. -/
def modPost (id : Nat) (f : Post → Post) (s : State) : State :=
  { s with posts := s.posts.map fun p => if p.id == id then f p else p }

/-- StreamError in the context that issued a rejected store (R199) (DEDUCED, log entry 34). -/
def streamError (p : Post) (s : State) : State :=
  raise p.key (asyncTrap 16 p.stream (BitVec.ofNat 64 (if p.dest < 2048 then p.dest else p.dest - 2048))) s

/-! ### Lost devices -/

/-- A part of a request is over: its device has answered or is lost. -/
def WReq.partDone (r : WReq) (dev : Nat) : Bool := r.returned.contains dev || r.lost.contains dev

/-- Every part of a request is over. -/
def WReq.over (r : WReq) : Bool := r.parts.all fun p => r.partDone p.1

/-- A context's instruction completes while it waited, under its hints (R87) (DEDUCED, log entry 15). -/
def completeCtx (key : Nat) (n : Advance) (f : Ctx → Ctx) (s : State) : State :=
  s.modCtx key fun c => { (f c).advance n with fetched := none }

/-- The same with an after-completion trap that it raises, or else the Watch trap of its fetch and its accesses (R31, R283)
(DEDUCED, log entries 13 and 15). -/
def completeWith (key : Nat) (n : Advance) (t : Option Trap) (hit : Option (Nat × Va)) (f : Ctx → Ctx) (s : State) : State :=
  let c := s.ctx key
  let s := completeCtx key n f s
  match t with
  | some t => takeTrap key (s.ctx key).pc c.pc t s
  | none =>
    match firstHit c.fetched hit with
    | some w => takeTrap key (s.ctx key).pc c.pc (watchFault none w) s
    | none => s

/-- A short-form instruction goes on after its 8 bytes, without hints (R87). -/
def shortNext : Advance := { len := 8 }

/-- The watchpoints of a core that an access of a context matches, for kinds of access as a sum of 1 for reads, 2 for writes
and 4 for fetches: number and first matching address (R282, R283) (DEDUCED, log entry 33). -/
def watchKinds (s : State) (key kinds va n : Nat) : List (Nat × Va) :=
  (List.range 4).filterMap fun i =>
    let k := s.core (coreOfKey key)
    let ctl := Tbl.get 0 k.wctl i
    let size := field ctl 8 4
    let lo := (Tbl.get 0 k.waddr i).toNat / 2 ^ size * 2 ^ size
    if ctl.getLsbD (16 + slotOfKey key) && field ctl 0 3 &&& kinds != 0 &&
        decide (va < lo + 2 ^ size ∧ lo < va + n) then some (i, BitVec.ofNat 57 (max va lo)) else none

/-- The same for a read or a write. -/
def watchHits (s : State) (key : Nat) (rd wr : Bool) (va n : Nat) : List (Nat × Va) :=
  watchKinds s key ((if rd then 1 else 0) + (if wr then 2 else 0)) va n

/-- What the Watch trap of an access names (R283): of several watchpoints that match it, the lowest-numbered one, with the first
address that matched that one (DESIGN CHOICE, log entry 73). -/
def watchTrap (s : State) (key : Nat) (rd wr : Bool) (va n : Nat) : Option (Nat × Va) := (watchHits s key rd wr va n).head?

/-- What the Watch trap of several accesses of one instruction names: reads are marked true (R283). -/
def watchMany (s : State) (key : Nat) (l : List (Bool × Nat × Nat)) : Option (Nat × Va) :=
  l.foldl (fun h a => firstHit h (watchTrap s key a.1 (!a.1) a.2.1 a.2.2)) none

/-- The first of some marks, 0 for none. -/
def markIn (ms : List Nat) : Nat := ms.foldl (fun m x => if m = 0 then x else m) 0

/-- The after-completion PeerLost of a launch that enables it (R194) (DEDUCED, log entry 31). -/
def peerLost (key dev : Nat) (s : State) : Option Trap :=
  if (s.launch (s.ctx key).launch).plt then some (afterTrap 17 0 (BitVec.ofNat 64 dev)) else none

/-- A precise trap of an instruction that waited for a response. -/
def refuseReq (key sub va : Nat) (s : State) : State :=
  let pc := (s.ctx key).pc
  takeTrap key pc pc { asyncTrap 6 sub (BitVec.ofNat 64 va) with kind := .precise } (s.modCtx key Ctx.wake)

/-- The value that a load of a width function code writes (R171). -/
def loadValue (fn : Nat) (bs : List Byte) : Word :=
  let v := leNat bs
  match fn with
  | 1 => signExt 8 v
  | 3 => signExt 16 v
  | 5 => signExt 32 v
  | _ => BitVec.ofNat 64 v

/-- The gathered values summed in device order (R202), with the flags. -/
def gatherSum (ty : Nat) (g2 : BitVec 4) : List (List Byte) → Nat × Flags
  | [] => (0, 0)
  | b :: bs =>
    match ty with
    | 0 => ((bs.foldl (fun a v => a + leNat v) (leNat b)) % 2 ^ 64, 0)
    | t =>
      let f := if t = 1 then f32 else f64
      bs.foldl (fun (a : Nat × Flags) v =>
        let r := fAdd f (g2.toNat % 4) (g2.getLsbD 2) a.1 (leNat v)
        (r.1, a.2 ||| r.2)) (leNat b, 0)

/-- A row of a tile's packed local side receives the bytes that came back, with their marks (R186, R188); a member's undo log
has the old ones (R392). -/
def scatterRow (key p : Nat) (b : List Byte) (marks : List Nat) (s : State) : State :=
  ((lineCuts p b (b.length / 128 + 2)).foldl (fun s c =>
    (teamWrite key c.1 c.2.length s).store (s.sourceOf key) c.1 c.2) s).setMarks p marks

/-- An acquire of a context at a scope (R176): what has been written so far bounds its constant path from its next
`kfence` on (R139), and at `.sy` the lines that `.rc` loads placed in its core's L1 go (R178). -/
def acquireCtx (key scope : Nat) (s : State) : State :=
  if scope = 0 then s
  else
    let s := s.modCtx key fun c => { c with acq := s.wlog.length }
    if scope = 5 then s.modCore (coreOfKey key) fun k => { k with rc := [] } else s

/-- A `wait` whose test at issue has failed sleeps (R203, R341). -/
def Ctx.sleepOn (w : Wait) (c : Ctx) : Ctx :=
  if c.wait == .unit then
    { c with st := if c.st == .held then .sleeping else c.st, saved := if c.saved == .held then .sleeping else c.saved
             wait := w }
  else c

/-- A request all of whose parts are over ends its instruction (R194, R202, R266). A vector load's request stays until
the load retires. -/
def finishReq (id : Nat) (s : State) : State :=
  match s.wreqs.find? (·.id == id) with
  | none => s
  | some r =>
    if !r.over then s
    else
      let gone := fun (s : State) => { s with wreqs := s.wreqs.filter (·.id != id) }
      let bad := r.refused.foldl min 4096
      let away := r.lost.foldl min 4096
      let refusedAt := (r.va.toNat / 2 ^ 55 * 2 ^ 55 + bad * 2 ^ 44) + r.va.toNat % 2 ^ 44
      match r.kind with
      | .vector _ => s
      | .copy _ => s
      | .load fn rd next rc scope =>
        let n := (r.parts.map (·.2.2)).sum
        let hit := watchTrap s r.key true false r.va.toNat n
        if !r.refused.isEmpty then refuseReq r.key 1 r.va.toNat (gone s)
        else if !r.lost.isEmpty then
          completeWith r.key next (peerLost r.key away s) hit (·.setX rd.toNat (BitVec.allOnes 64))
            (acquireCtx r.key scope (gone s))
        else
          let bs := (Tbl.get [] r.answers 0)
          let s := completeWith r.key next none hit
            (·.setXMarked rd.toNat (loadValue fn bs) (markIn (Tbl.get [] r.amarks 0))) (acquireCtx r.key scope (gone s))
          if rc && markIn (Tbl.get [] r.amarks 0) = 0 then fillRcLine (coreOfKey r.key) r.va.toNat bs s else s
      | .poll v ne scope =>
        if !r.refused.isEmpty then refuseReq r.key 1 r.va.toNat (gone s)
        else if r.lost.isEmpty && (loadValue 0 (Tbl.get [] r.answers 0) == v) != ne then
          completeWith r.key shortNext none (watchTrap s r.key true false r.va.toNat 8) (fun c => c)
            (acquireCtx r.key scope (gone s))
        else (gone s).modCtx r.key (Ctx.sleepOn (.word r.va v ne scope))
      | .ramo _ _ rd scope =>
        let hit := watchTrap s r.key true true r.va.toNat 8
        if !r.refused.isEmpty then refuseReq r.key 4 r.va.toNat (gone s)
        else if !r.lost.isEmpty then
          completeWith r.key shortNext (peerLost r.key away s) hit (·.setX rd.toNat (BitVec.allOnes 64))
            (acquireCtx r.key scope (gone s))
        else
          completeWith r.key shortNext none hit
            (·.setXMarked rd.toNat (loadValue 0 (Tbl.get [] r.answers 0)) (markIn (Tbl.get [] r.amarks 0)))
            (acquireCtx r.key scope (gone s))
      | .ldsum ty g2 rd _ n next =>
        let hit := watchMany s r.key (r.parts.map fun p => (true, p.2.1.toNat, p.2.2))
        if !r.refused.isEmpty then refuseReq r.key 1 refusedAt (gone s)
        else if !r.lost.isEmpty then
          completeWith r.key next (peerLost r.key away s) hit (·.setX rd.toNat (BitVec.allOnes 64)) (gone s)
        else
          let v := gatherSum ty g2 ((List.range n).map fun i => Tbl.get [] r.answers i)
          let m := markIn ((List.range n).map fun i => markIn (Tbl.get [] r.amarks i))
          completeWith r.key next none hit (fun c => (c.setXMarked rd.toNat (BitVec.ofNat 64 v.1) m).orFlags v.2) (gone s)
      | .tile place next =>
        let badAt := ((r.parts.find? fun p => r.refused.contains p.1).map (·.2.1.toNat)).getD 0
        if !r.refused.isEmpty then refuseReq r.key 1 badAt (gone s)
        else if !r.lost.isEmpty then
          let far := watchMany s r.key (r.parts.map fun p => (true, p.2.1.toNat, p.2.2))
          completeWith r.key next (peerLost r.key away s) far (fun c => c) (gone s)
        else
          let n := (r.parts.map (·.2.2)).sum
          let hit := watchMany s r.key ((r.parts.map fun p => (true, p.2.1.toNat, p.2.2)) ++ [(false, r.va.toNat, n)])
          let s := ((List.range r.parts.length).foldl (fun (a : Nat × State) i =>
            let b := Tbl.get [] r.answers i
            (a.1 + b.length, scatterRow r.key a.1 b (Tbl.get [] r.amarks i) a.2)) (place, gone s)).2
          completeWith r.key next none hit (fun c => c) s

/-- A line of a copy has landed; `n` bytes of it count toward its barrier object (R212, R239, R240). A copy that a fault
stopped leaves the engine with its last line under way (R242) (DEDUCED, log entry 37). -/
def lineLanded (id n : Nat) (s : State) : State :=
  match s.copies.find? (·.id == id) with
  | none => s
  | some c =>
    let s := match c.bar with
      | some p => if n = 0 then s else
          let w : Source := { kind := 1, dev := s.devId, die := dieOfCore c.core, cl := clusterOfCore c.core % 64, core := c.core % 8 }
          s.store w p (leBytes 8 (BitVec.ofNat 64 (leNat (s.bytes p 8)) - BitVec.ofNat 64 n).toNat)
      | none => s
    let c := { c with landed := c.landed + 1 }
    { s with copies :=
        if c.stopped && decide (c.landed ≥ c.next) then s.copies.filter (·.id != id)
        else s.copies.map fun y => if y.id == id then c else y }

/-- Bytes that a posted line writes. -/
def Post.count (p : Post) : Nat := p.bytes.length - p.skip.length

/-- Every posted store to a device is written off, and its numbers are free again (R200, R398). A context that is switched
out is held a StreamError for each (R372) (DEDUCED, log entry 41). -/
def writeOff (dev : Nat) (s : State) : State :=
  let mine := s.posts.filter fun p => p.dest == dev && p.st != .lost
  let s := mine.foldl (fun s p =>
    if p.st == .waiting then s
    else modStream p.core p.stream dev (fun k => { k with unacked := k.unacked - 1 }) s) s
  let lost := mine.filter fun p => p.copy.isNone && p.marker.isNone
  let keep := lost.foldl (fun (a : List Post) p =>
    if a.any fun q => q.key == p.key && q.stream == p.stream then a else a ++ [{ p with st := .lost, bytes := [] }]) []
  let s := { s with posts := (s.posts.filter fun p => !(p.dest == dev && p.st != .lost)) ++ keep }
  let s := lost.foldl (fun s p => if (s.ctx p.key).st == .absent then streamError p s else s) s
  mine.foldl (fun s p =>
    match p.copy with
    | none => s
    | some c => lineLanded c 0 s) s

/-- A device is judged lost (R397): its bit is set, an error record of event 6 is written, its posted stores are written
off, and its part of every request is over. -/
def loseDevice (dev : Nat) (s : State) : State :=
  if s.isLost dev then s
  else
    let s := { s with lost := Tbl.set 0 s.lost (dev / 64) (Tbl.get 0 s.lost (dev / 64) ||| (1#64 <<< (dev % 64))) }
    let s := writeOff dev (logError (BitVec.ofNat 32 dev) 6 0 s)
    let ids := (s.wreqs.filter fun r => r.parts.any (·.1 == dev) && !r.partDone dev).map (·.id)
    ids.foldl (fun s id =>
      finishReq id { s with wreqs := s.wreqs.map fun r =>
        if r.id == id then { r with lost := dev :: r.lost } else r }) s

/-- A lost bit is cleared: the counters toward the peer and its windows restart at 0 (R198, R398). -/
def findDevice (dev : Nat) (s : State) : State :=
  if !s.isLost dev then s
  else
    let s := { s with lost := Tbl.set 0 s.lost (dev / 64) (Tbl.get 0 s.lost (dev / 64) &&& ~~~(1#64 <<< (dev % 64))) }
    let s := (s.cores.map (·.1)).foldl (fun s k => s.modCore k fun c =>
      { c with streams := c.streams.filter fun p => p.1 % 8192 != dev }) s
    let mine := fun (k : Nat) => k / 4 / 16 / 2048 == dev
    { s with windows := s.windows.filter fun p => !mine p.1
             wmarks := s.wmarks.filter fun p => !mine p.1
             peerPosts := s.peerPosts.filter (·.dev != dev) }

/-! ### Requests -/

/-- A request through the window is sent; the parts of unreachable devices are over at once (R194, R398). -/
def request (kind : ReqKind) (va : Nat) (parts : List (Nat × Va × Nat)) : M Unit := do
  let s ← get
  let id ← newId
  let lost := ((parts.map (·.1)).filter s.unreachable).eraseDups
  modify fun s => { s with wreqs := s.wreqs ++
    [{ id := id, key := s.cur, kind := kind, va := BitVec.ofNat 57 va, parts := parts, answers := [], lost := lost
       refused := [], returned := [] }] }

/-- The instruction waits for the response (R311: Held) (DEDUCED, log entry 13). -/
def awaitResponse {α : Type} : M α := throw (.hold .unit false)

/-- An instruction whose target is unreachable completes at once; PeerLost follows where the launch enables it (R194). -/
def unanswered (dev : Nat) : M Unit :=
  modify fun s => { s with after := peerLost s.cur dev s }

/-- Whether an earlier window access of a context to the same line awaits its response (R280). -/
def State.lineAwaited (s : State) (key va : Nat) : Bool :=
  s.wreqs.any fun r => r.key == key && r.parts.any fun p => p.2.1.toNat / 128 == va / 128

end Sys2Proof.Machine
end

