-- ==== Sys2Proof/Machine/Lanrov.lean ====
section
/-!
DEFINITION. The Lanrov controller (18 R403 to R410): soft-error counting, retirement, the mailbox commands, and the page
migration engines (16 R370, R371).
-/

namespace Sys2Proof.Machine

open Sys2Proof

/-! ### Soft errors -/

/-- A corrected error of unit `u` at second `t` is counted (R403). -/
def countError (u : BitVec 32) (pa t : Nat) (s : State) : State :=
  let e := s.eccOf u
  let win := (s.reg 0x58).toNat
  let e := { e with total := if e.total = BitVec.allOnes 32 then e.total else e.total + 1 }
  let e := if e.count = 0 ∨ t - e.start ≥ win then { e with start := t, count := 0 } else e
  let e := { e with count := min (e.count + 1) 255 }
  let s := logError u 1 pa { s with ecc := Tbl.set {} s.ecc u.toNat e }
  if e.count > (s.reg 0x50).toNat && unitRetirable u then retireUnit u 1 s else s

/-- ECC_CORRECTED (R403). -/
def execEccCorrected (unit : BitVec 32) (pa t : Nat) (s : State) : Outcome :=
  event (do
    enabled (unitListed unit)
    modify (countError unit pa t)) s

/-- A place is marked: a byte of memory, an x register, or a lane's register or slice byte of a context that holds it (R402,
R403) (DEDUCED, log entry 50). -/
def markPlace (p : Nat) (s : State) : State :=
  let m := markOf p false
  if p < 2 ^ 58 then { s with marks := Tbl.set 0 s.marks p m }
  else if p < 2 ^ 59 then
    let n := (p - 2 ^ 58) % 2 ^ 16
    s.modCtx ((p - 2 ^ 58) / 2 ^ 16) fun c => if c.live && decide (1 ≤ n ∧ n < 64) then { c with xp := Tbl.set 0 c.xp n m } else c
  else
    let o := (p - 2 ^ 59) % 2 ^ 20
    let lane := o / 4096
    s.modCtx ((p - 2 ^ 59) / 2 ^ 20) fun c =>
      if !c.live || decide (c.vl ≤ lane) then c
      else if o % 4096 < 128 then { c with vp := Tbl.set 0 c.vp (o % 4096 / 4 * 256 + lane) m }
      else if 2048 ≤ o % 4096 then { c with slp := Tbl.set 0 c.slp (lane * 2048 + o % 2048) m }
      else c

/-- ECC_UNCORRECTABLE (R402, R403): the bytes or registers are marked, a record is written, and a
retirable unit is retired. -/
def execEccUncorrectable (unit : BitVec 32) (place n _t : Nat) (s : State) : Outcome :=
  event (do
    enabled (unitListed unit)
    modify fun s =>
      let s := (List.range n).foldl (fun s i => markPlace (place + i) s) s
      let s := logError unit 2 (if place < 2 ^ 52 then place / 128 * 128 else 0) s
      if unitRetirable unit then retireUnit unit 2 s else s) s

/-- Whether the condition of a pending retirement holds (R406); `training` says that the link is being trained now
(DEDUCED, log entry 46). -/
def State.retireReady (s : State) (u : BitVec 32) : Bool :=
  let die := unitDie u
  let i := unitIndex u
  match unitKind u with
  | 1 =>
    let core := die * 512 + i
    !s.ctxs.any (fun p => coreOfKey p.1 == core && p.2.live) &&
      !s.launches.any fun p => p.2.st == .loading && p.2.cores.contains core
  | 2 =>
    let cl := die * 64 + i / 8
    -- groups are alike: one is free when a group of the pool is not granted
    decide (s.freeGroups cl > 0)
  | _ => false

/-- RETIRE (R406): a core that no context and no launch in Loading uses, or a lane group that no context holds. Slices
and lanes of links take effect at a reset or a training (DEDUCED, log entry 46). -/
def execRetire (unit : BitVec 32) (_t : Nat) (s : State) : Outcome :=
  event (do
    let s ← get
    enabled (s.repair.any (fun r => r.unit == unit && !r.act) && s.retireReady unit)
    modify (activate unit)) s

/-- POWER_LOSS (R403): the soft-error counters are lost; the repair map survives. -/
def execPowerLoss (s : State) : Outcome := event (modify fun s => { s with ecc := [] }) s

/-! ### The mailbox -/

/-- The command buffer (R408). -/
def State.lmBuf (s : State) : Nat := field (s.reg 0xC8) 0 52

/-- Whether the buffer is one that a command may use: 64-byte aligned, in HBM or the host window (R408)
(DEDUCED, log entry 51). -/
def State.lmBufOK (s : State) : Bool :=
  decide (s.lmBuf % 64 = 0) && (physKind s.lmBuf == some 0 || physKind s.lmBuf == some 2)

/-- A list of exactly `n` bytes. -/
def padTo (n : Nat) (bs : List Byte) : List Byte := bs.take n ++ List.replicate (n - bs.length) 0

/-- The signed part of the attestation report, bytes 0x040 to 0x1AF (R410). -/
def reportBody (s : State) : List Byte :=
  let nonce := s.bytes s.lmBuf 32
  let dies := (List.range 6).flatMap fun d =>
    let f := Tbl.get {} s.firmware d
    leBytes 8 f.version.toNat ++ padTo 32 f.digest
  let map := s.repair.flatMap fun r => leBytes 8 ((if r.act then 2 ^ 36 else 0) + r.cause * 2 ^ 32 + r.unit.toNat)
  let ports := (List.range 24).flatMap fun p => leBytes 8 (s.reg (0x700100 + 8 * p)).toNat
  let table := s.bytes (field (s.reg 0x700010) 5 47 * 32) (32 * field (s.reg 0x700018) 0 12)
  leBytes 4 1 ++ leBytes 4 0 ++ ((List.range 16).map Config.serial) ++ leBytes 8 (s.reg 0x700000).toNat ++ dies ++
    padTo 32 (Config.sha256 map) ++ padTo 32 (Config.sha256 (ports ++ table)) ++ nonce

/-- Command 1: attest (R410). -/
def lmAttestCmd (s : State) : State :=
  if !s.lmBufOK then { s with lmRes := 3 }
  else
    let body := reportBody s
    let s := devWrite (s.lmBuf + 0x40) body s
    { (devWrite (s.lmBuf + 0x1B0) (padTo 7856 (Config.sign (Config.sha256 body))) s) with lmRes := 0 }

/-- Command 2: stage firmware (R409). -/
def lmStageCmd (s : State) : State :=
  if !s.lmBufOK then { s with lmRes := 3 }
  else
    let b := s.lmBuf
    let header := s.bytes b 64
    let die := leNat (s.bytes b 8)
    let version := BitVec.ofNat 64 (leNat (s.bytes (b + 8) 8))
    let len := leNat (s.bytes (b + 0x10) 8)
    let digest := s.bytes (b + 0x20) 32
    let sig := s.bytes (b + 64) 7856
    if !Config.verify (Config.sha256 header) sig then { s with lmRes := 1 }
    else if die > 5 ∨ len ≥ 2 ^ 52 ∨ Config.sha256 (s.bytes (b + 64 + 7856) len) ≠ digest then { s with lmRes := 3 }
    else
      let f := Tbl.get {} s.firmware die
      if version.toNat < f.floor.toNat then { s with lmRes := 2 }
      else { s with firmware := Tbl.set {} s.firmware die { f with staged := some (version, digest) }, lmRes := 0 }

/-- Command 3: install a wrapped link key (R408) (DEDUCED, log entry 51). -/
def lmKeyCmd (s : State) : State :=
  if !s.lmBufOK then { s with lmRes := 3 }
  else match Config.unwrap (s.bytes s.lmBuf 64) with
    | some k => { s with linkKeys := if s.linkKeys.contains (k % 8) then s.linkKeys else k % 8 :: s.linkKeys, lmRes := 0 }
    | none => { s with lmRes := 3 }

/-- Command 4: write the certificate (R410). -/
def lmCertCmd (s : State) : State :=
  if !s.lmBufOK then { s with lmRes := 3 }
  else { (devWrite s.lmBuf Config.certificate s) with lmRes := 0 }

/-- A write of LMCMD (R408): the command starts, and BUSY reads 1 until it has been performed; another write is ignored
then (DEDUCED, log entry 51). -/
def lmCommand (v : Word) (s : State) : State := if s.lmCmd.isSome then s else { s with lmCmd := some v }

/-- The command in progress is performed whole (R408) (DEDUCED, log entry 51). -/
def lmPerform (cmd : Nat) (f : State → State) (s : State) : Outcome :=
  event (do
    enabled ((← get).lmCmd.any fun v => field v 0 8 == cmd)
    modify fun s => { (f s) with lmCmd := none }) s

/-- LM_ATTEST (R410). -/
def execLmAttest (s : State) : Outcome := lmPerform 1 lmAttestCmd s

/-- LM_STAGE_FIRMWARE (R409). -/
def execLmStageFirmware (s : State) : Outcome := lmPerform 2 lmStageCmd s

/-- LM_INSTALL_LINK_KEY (R408). -/
def execLmInstallLinkKey (s : State) : Outcome := lmPerform 3 lmKeyCmd s

/-- LM_WRITE_CERT (R410). -/
def execLmWriteCert (s : State) : Outcome := lmPerform 4 lmCertCmd s

/-- LM_UNKNOWN_COMMAND (R408): RES 4. -/
def execLmUnknownCommand (v : Word) (s : State) : Outcome :=
  event (do
    enabled ((field v 0 8 == 0 || decide (field v 0 8 > 4)) && (← get).lmCmd == some v)
    modify fun s => { s with lmRes := 4, lmCmd := none }) s

/-- An event of the host, which reaches the device through M0: nothing of it arrives once M0 is lost (R3, R401). -/
def hostEvent (m : M Unit) (s : State) : Outcome :=
  event (do
    enabled !((← get).die 4).dead
    m) s

/-! ### Page migration -/

/-- Bytes of a migration's frame: SIZE 0 is 4 KiB, 1 is 2 MiB (R370). -/
def frameSize (ctl : Word) : Nat := if ctl.getLsbD 1 then 0x200000 else 0x1000

/-- Whether TYPE and MGDST pass the first check of R371. -/
def migrateOK (ctl dst : Word) : Bool :=
  let t := field ctl 2 3
  let n := frameSize ctl
  decide (t ≤ 1) && decide (dst.toNat % n = 0) && physKind dst.toNat == some t &&
    physKind (dst.toNat + n - 1) == some t

/-- A migration is over with a result (R370). -/
def migrateOver (m r : Nat) (s : State) : State :=
  { s with engines := Tbl.set {} s.engines m { Tbl.get {} s.engines m with res := r, busy := false, asks := false } }

/-- The translation caches lose the entries that map a frame (R371). -/
def dropFrame (lo n : Nat) (s : State) : State :=
  let maps := fun (t : TlbEnt) =>
    let a := leafAddr t.leaf t.size t.va
    decide (a < lo + n ∧ lo < a + 2 ^ t.size)
  let s := (s.cores.map (·.1)).foldl (fun s k =>
    s.modCore k fun c => { c with dtlb := c.dtlb.filter fun t => !maps t }) s
  (s.clusters.map (·.1)).foldl (fun s k => s.modCluster k fun c => { c with tlb := c.tlb.filter fun t => !maps t }) s

/-- A migration engine reads the leaf and sets MIG in one access at its home (R305, R371): it waits while the line cannot be
written there. Then the translation caches lose the entries that map the old frame. A leaf that is lost is no valid leaf
(R401) (DEDUCED, log entry 66). -/
def migrateLeaf (m : Nat) (s : State) : State :=
  let e := Tbl.get {} s.engines m
  let p := e.pte.toNat
  let w := BitVec.ofNat 64 (leNat (s.bytes p 8))
  if s.lostPhys p then migrateOver m 1 s
  else if homed p && (s.lineWaits .home p || s.late.any fun w => lineOf w.place == lineOf p) then
    noteMiss .home true p { s with engines := Tbl.set {} s.engines m { e with busy := true, asks := true } }
  else if !w.getLsbD 0 || w.getLsbD 1 || decide (field w 9 3 > 1) || w.getLsbD 60 then migrateOver m 1 (lineWritten .home p s)
  else
    let s := s.store (deviceSource (some m) s) p (leBytes 8 (w ||| (1#64 <<< 60)).toNat)
    let n := frameSize e.ctl
    dropFrame (field w 12 40 * 4096 / n * n) n
      { s with engines := Tbl.set {} s.engines m { e with busy := true, asks := false } }

/-- The migration engines whose access to the leaf waited try it again. -/
def migrateLeaves (s : State) : State :=
  s.engines.foldl (fun s p => if (Tbl.get {} s.engines p.1).asks then migrateLeaf p.1 s else s) s

/-- A write of MGCTL with GO: the first check of R371, then the access to the leaf. -/
def migrateStart (m : Nat) (v : Word) (s : State) : State :=
  if (Tbl.get {} s.engines m).busy then s
  else
    let s := engineWrite m 0x10 v s
    let e := Tbl.get {} s.engines m
    if migrateOK e.ctl e.dst then migrateLeaf m s else migrateOver m 2 s

/-- Whether the lines of a migration's frames are free: none is pinned, busy or waits to be written, the host owns none of the
old frame, and holds none of the new one (R275, R307, R371). -/
def State.framesFree (s : State) (src dst n : Nat) : Bool :=
  let old := fun (l : Nat) => decide (src ≤ l ∧ l < src + n)
  let new := fun (l : Nat) => decide (dst ≤ l ∧ l < dst + n)
  !(s.tiles.any fun t => t.lines.any fun l => old l || new l) && !(s.reqs.any fun r => old r.line || new r.line) &&
    !(s.late.any fun w => old w.place || new w.place) &&
    !s.dir.any fun e => (old e.1 && e.2.hostOwned) || (new e.1 && e.2.hosted)

/-- The host is asked for the lines of a migration's frames that it holds: those that it owns of the old one, and all of the new
one (R307, R371). -/
def askFrames (src dst n : Nat) (s : State) : State :=
  s.dir.foldl (fun s e =>
    if dst ≤ e.1 ∧ e.1 < dst + n then askHost true e.1 s
    else if src ≤ e.1 ∧ e.1 < src + n then askHost false e.1 s else s) s

/-- Each line of the old frame is read at its home, and each of the new one written there: dirty copies are recalled, and the
new frame's copies go (R371). -/
def recallFrames (src dst n : Nat) (s : State) : State :=
  (List.range (n / 128)).foldl (fun s i => homeWrite (dst + 128 * i) (homePeek (src + 128 * i) s)) s

/-- What stands in a page of the old frame by its place follows to the new one: the image of a scratchpad, and the undo entries
of one (R379, R392) (DEDUCED, log entry 45). -/
def followFrame (src dst n : Nat) (s : State) : State :=
  let move := fun (p : Nat) => if src ≤ p ∧ p < src + n then p - src + dst else p
  { s with launches := s.launches.map fun u => (u.1, { u.2 with images := u.2.images.map fun i => (i.1, i.2.map move) })
           clusters := s.clusters.map fun c =>
             (c.1, { c.2 with undo := c.2.undo.map fun u => { u with place := move u.place } }) }

/-- A frame's bytes and marks are copied; the units that watch a line of the new frame see its write (R285, R371). The
constant path keeps no older value of the new frame. -/
def copyFrame (m src dst n : Nat) (s : State) : State :=
  let cells := Tbl.range s.mem src (src + n - 1)
  let marks := Tbl.range s.marks src (src + n - 1)
  let s := { s with
    mem := cells.foldl (fun t c => Tbl.set unlisted t (c.1 - src + dst) c.2) (Tbl.clear s.mem dst (dst + n - 1))
    marks := marks.foldl (fun t c => Tbl.set 0 t (c.1 - src + dst) c.2) (Tbl.clear s.marks dst (dst + n - 1))
    wlog := s.wlog.map fun w => if w.place < dst + n ∧ dst < w.place + w.old.length then { w with old := [] } else w }
  [0, 1, 2, 3].foldl (fun s d => (List.range 8).foldl (fun s u =>
    let k := s.die d
    let line := field (Tbl.get 0 k.lwaddr u) 7 45 * 128
    if (Tbl.get 0 k.lwctl u).getLsbD 0 && decide (dst ≤ line ∧ line < dst + n) then
      watchUnit d u (sourceId 4 0 (4 + m) 0 0 0 127 0) s
    else s) s) s

/-- MIGRATE (R371): the host's write of MGCTL with GO = 1, through M0 (R3, R401); that of a supervisor is a store
(DEDUCED, log entry 66). -/
def execMigrate (m : Nat) (v : Word) (s : State) : Outcome :=
  hostEvent (do
    enabled (decide (m < 2) && v.getLsbD 0)
    modify (migrateStart m v)) s

/-- MIGRATION_DONE (R371): once every access that used the old frame has been performed, the frame is copied and the leaf
rewritten in one access; accessors that met MIG resume. -/
def execMigrationDone (m : Nat) (s : State) : Outcome :=
  event (do
    let s ← get
    let e := Tbl.get {} s.engines m
    let p := e.pte.toNat
    let w := BitVec.ofNat 64 (leNat (s.bytes p 8))
    let n := frameSize e.ctl
    let src := field w 12 40 * 4096 / n * n
    let old := fun (l : Nat) => decide (src ≤ l ∧ l < src + n)
    enabled (e.busy && !e.asks && !s.posts.any fun p => p.st != .lost && p.marker.isNone && decide (2048 ≤ p.dest) && old p.place)
    if !s.framesFree src e.dst.toNat n then
      enabled (askFrames src e.dst.toNat n s != s)
      modify (askFrames src e.dst.toNat n)
    else if s.writeWaits .home p then waitsAt s (noteMiss .home true p s)
    else modify fun s =>
      let s := followFrame src e.dst.toNat n (copyFrame m src e.dst.toNat n (recallFrames src e.dst.toNat n s))
      let w' := setField (setField (setField w 12 40 (e.dst.toNat / 4096)) 9 3 (field e.ctl 2 3)) 60 1 0
      let s := lateWrite (some m) p (leBytes 8 w'.toNat) [] s
      { s with engines := Tbl.set {} s.engines m { e with busy := false, res := 0 } }) s

end Sys2Proof.Machine
end

