-- ==== Sys2Proof/Machine/Regs.lean ====
section
/-!
DEFINITION. A write of the register space as a whole (16 R351, R352), by the host or by supervisor code, and the register
writes of the table that have a behaviour of their own.
-/

namespace Sys2Proof.Machine

open Sys2Proof

/-- The registers of the device block (R353, R404, R405, R407, R408). `sup` marks supervisor code, which reaches only the
registers that are not the host's alone (DEDUCED, log entries 18 and 51). -/
def deviceWrite (sup : Bool) (o : Nat) (v : Word) (s : State) : State :=
  let host := fun (f : State → State) => if sup then s else f s
  match o with
  | 0x008 => host (·.setReg o (setField 0 0 32 (field v 0 32)))
  | 0x010 => s.setReg o (setField 0 12 45 (field v 12 45))
  | 0x018 => tlbictlSet v s
  | 0x040 => s.setReg o (setField 0 0 32 (field v 0 32))
  | 0x050 => host fun s => if 1 ≤ field v 0 8 ∧ field v 0 8 ≤ 254 then s.setReg o (setField 0 0 8 (field v 0 8)) else s
  | 0x058 => host fun s => if field v 0 32 = 0 then s else s.setReg o (setField 0 0 32 (field v 0 32))
  | 0x068 => s.setReg o (setField 0 0 10 (field v 0 10))
  | 0x078 => host fun s =>
      let u : BitVec 32 := v.setWidth 32
      if unitRetirable u then retireUnit u 3 s else s
  | 0x080 => host fun s =>
      let sz := field v 0 5
      let old := s.reg 0x80
      let w := setField old 12 40 (field v 12 40)
      s.setReg o (if 4 ≤ sz ∧ sz ≤ 16 then setField w 0 5 sz else w)
  | 0x0C0 => lmCommand v s
  | 0x0C8 => host (·.setReg o (setField 0 0 52 (field v 0 52)))
  | _ => s

/-- The fabric block's first registers (R380). DEVID changes only while EN = 0 (DEDUCED, log entry 18). -/
def fabricWrite (o : Nat) (v : Word) (s : State) : State :=
  match o with
  | 0x00 =>
    let old := s.reg 0x700000
    let w := if old.getLsbD 63 then old else setField old 0 11 (field v 0 11)
    s.setReg 0x700000 (setField w 63 1 (field v 63 1))
  | 0x08 => if field v 0 32 = 0 then s else s.setReg 0x700008 (setField 0 0 32 (field v 0 32))
  | 0x10 => s.setReg 0x700010 (setField 0 5 47 (field v 5 47))
  | 0x18 => s.setReg 0x700018 (setField 0 0 12 (field v 0 12))
  | 0x20 => s.setReg 0x700020 (v &&& 0xFFFFFFFFFFFFF#64)
  | _ => s

/-- Bits of a lost-peer mask are set, as if the fence timeout had passed (R198). -/
def plsetSet (n : Nat) (v : Word) (s : State) : State := (maskDevs n v).foldl (fun s d => loseDevice d s) s

/-- Bits of a lost-peer mask are cleared (R398). -/
def plostSet (n : Nat) (v : Word) (s : State) : State := (maskDevs n v).foldl (fun s d => findDevice d s) s

/-- A write at an 8-byte aligned offset of the register space (R351, R352) (DEDUCED, log entry 18; DESIGN CHOICE, log entry 64). -/
def regWrite (sup : Bool) (off : Nat) (v : Word) (s : State) : State :=
  let host := fun (f : State → State) => if sup then s else f s
  match regAt off with
  | .device o => deviceWrite sup o v s
  | .queue q o => queueWrite q o v s
  | .dlink d n =>
    host fun s => s.modDie d fun k =>
      { k with links := Tbl.set {} k.links n { Tbl.get {} k.links n with idle := BitVec.ofNat 32 (field v 32 32) } }
  -- A write of LWADDR while EN is 1 changes LINE at once, and the unit watches the new line from then on
  -- (DESIGN CHOICE, log entry 64).
  | .watch d u 0x00 => s.modDie d fun k => { k with lwaddr := Tbl.set 0 k.lwaddr u (setField 0 7 45 (field v 7 45)) }
  | .watch d u 0x08 => lwctlSet d u v s
  | .watch d u 0x18 => lwcntSet d u v s
  | .watch _ _ _ => s
  | .slice d sl o => sliceSet d sl o v s
  | .mgov cl => mgovSet cl v s
  | .rblog _ => s
  | .ctvec core => ctvecSet core v s
  | .waddr core n => waddrSet core n v s
  | .wctl core n => wctlSet core n v s
  | .gwrx core => gwrxSet core v s
  | .engine m o => if o = 0x10 ∧ v.getLsbD 0 then migrateStart m v s else engineWrite m o v s
  | .fabric o => host (fabricWrite o v)
  | .port p => host (portSet p v)
  | .route d =>
    host fun s => (List.range 8).foldl (fun s i =>
      { s with routes := Tbl.set 0 s.routes (d + i) (field v (8 * i) 8) }) s
  | .plost n => host (plostSet n v)
  | .plset n => host (plsetSet n v)
  | .none => s

/-- REGISTER_WRITE (R352): the host's aligned 8-byte write of a register. Another size or alignment has no effect. -/
def execRegisterWrite (off : Nat) (v : Word) (s : State) : Outcome :=
  hostEvent (modify fun s => if off % 8 = 0 ∧ off < 0x800000 then regWrite false off v s else s) s

/-- QTAIL_WRITE (R356). -/
def execQtailWrite (q : Nat) (v : Word) (s : State) : Outcome :=
  hostEvent (do
    enabled (decide (q < 64))
    modify (qtailSet q v)) s

/-- QCTL_WRITE (R355). -/
def execQctlWrite (q : Nat) (v : Word) (s : State) : Outcome :=
  hostEvent (do
    enabled (decide (q < 64))
    modify (qctlSet q v)) s

/-- A write of TLBICTL with GO = 1 and a KIND (R369). -/
def tlbi (kind : Nat) (v : Word) (s : State) : Outcome :=
  hostEvent (do
    enabled (v.getLsbD 0 && field v 1 2 == kind)
    modify (tlbictlSet v)) s

/-- TLBI_ALL (R369). -/
def execTlbiAll (v : Word) (s : State) : Outcome := tlbi 0 v s

/-- TLBI_ASID (R369). -/
def execTlbiAsid (v : Word) (s : State) : Outcome := tlbi 1 v s

/-- TLBI_PAGE_ASID (R369). -/
def execTlbiPageAsid (v : Word) (s : State) : Outcome := tlbi 2 v s

/-- TLBI_PAGE_ALL (R369). -/
def execTlbiPageAll (v : Word) (s : State) : Outcome := tlbi 3 v s

/-- TLBI_DONE (R369): the accesses that used removed entries have been performed. -/
def execTlbiDone (s : State) : Outcome :=
  event (do
    let s ← get
    enabled (s.tlbiBusy && !s.tlbiWaits)
    modify fun s => { s with tlbiBusy := false, tlbiPosts := [], tlbiTiles := [] }) s

/-- MGOV_WRITE (R234). -/
def execMgovWrite (cl : Nat) (v : Word) (s : State) : Outcome :=
  hostEvent (do
    enabled (decide (cl < 256))
    modify (mgovSet cl v)) s

/-- LWCTL_WRITE (R285). -/
def execLwctlWrite (die u : Nat) (v : Word) (s : State) : Outcome :=
  hostEvent (do
    enabled (decide (die < 4 ∧ u < 8))
    modify (lwctlSet die u v)) s

/-- LWCNT_CLEAR (R284). -/
def execLwcntClear (die u : Nat) (v : Word) (s : State) : Outcome :=
  hostEvent (do
    enabled (decide (die < 4 ∧ u < 8))
    modify (lwcntSet die u v)) s

/-- SLICE_COUNTER_CLEAR (R348): `reg` is 0 SLREQ, 1 SLQHW, 2 SLQFULL. -/
def execSliceCounterClear (die sl reg : Nat) (v : Word) (s : State) : Outcome :=
  hostEvent (do
    enabled (decide (die < 4 ∧ sl < 16 ∧ reg < 3))
    modify (sliceSet die sl (8 * reg) v)) s

/-- GWRX_WRITE (R335, R337). -/
def execGwrxWrite (core : Nat) (v : Word) (s : State) : Outcome :=
  hostEvent (do
    enabled (decide (core < 2048) && gatewayCore core)
    modify (gwrxSet core v)) s

/-- CTVEC_WRITE (R384). -/
def execCtvecWrite (core : Nat) (v : Word) (s : State) : Outcome :=
  hostEvent (do
    enabled (decide (core < 2048))
    modify (ctvecSet core v)) s

/-- PLSET_WRITE (R198). -/
def execPlsetWrite (n : Nat) (v : Word) (s : State) : Outcome :=
  hostEvent (do
    enabled (decide (n < 32))
    modify (plsetSet n v)) s

/-- PLOST_CLEAR (R398). -/
def execPlostClear (n : Nat) (v : Word) (s : State) : Outcome :=
  hostEvent (do
    enabled (decide (n < 32))
    modify (plostSet n v)) s

/-- PORT_WRITE (R381). -/
def execPortWrite (p : Nat) (v : Word) (s : State) : Outcome :=
  hostEvent (do
    enabled (decide (p < 24))
    modify (portSet p v)) s

/-- RMADD_WRITE (R405): the host retires a retirable unit with cause 3. -/
def execRmaddWrite (v : Word) (s : State) : Outcome := hostEvent (modify (deviceWrite false 0x078 v)) s

end Sys2Proof.Machine
end

