-- ==== Sys2Proof/Machine/Memory.lean ====
section
/-!
DEFINITION. Scalar loads and stores (07 R169 to R180, R195, R204 to R206), fences, cache maintenance (R213), and the
operations that the other memory instructions share with them: the order of a context's own accesses, watchpoints (09
R283), and releases and acquires.
-/

namespace Sys2Proof.Machine

open Sys2Proof

/-! ### Order, watchpoints, releases -/

/-- Whether a dispatched instruction reads memory. The lane-private slices are no memory (R184). -/
def VOp.memRead : VOp → Bool
  | .load fn _ => fn != 4
  | .quant _ _ => true
  | .mld _ => true
  | .wload _ => true
  | .mseq _ => true
  | _ => false

/-- Whether a dispatched instruction writes memory. -/
def VOp.memWrite : VOp → Bool
  | .store fn _ => fn != 3
  | .quant _ _ => true
  | .mseq _ => true
  | _ => false

/-- The stream on which a dispatched instruction posts what it stores outside its die (R195). -/
def VOp.stream : VOp → Option Nat
  | .store fn o => if fn != 3 then some o.str.toNat else none
  | .quant _ o => some o.str.toNat
  | .mseq _ => some 0
  | _ => none

/-- Whether an access waits for a dispatched instruction of its context: one that writes memory, one that reads it where the
access writes, and a matrix one whatever it does with a byte of memory (R173, R216) (DESIGN CHOICE, log entry 6). -/
def VOp.orders (op : VOp) (write : Bool) : Bool := op.memWrite || (op.memRead && (write || op.isMatrix))

/-- An access waits for the context's dispatched instructions that it might overlap, so that the accesses to each byte
take effect in program order (R173, R216) (DESIGN CHOICE, log entry 6). -/
def memOrder (write : Bool) : M Unit := do
  if (← curCtx).pend.any fun p => p.op.orders write then heldAgain

/-- An access of a context is noted for the Watch trap of its instruction (R283): the lowest watchpoint that matches, and
the first address that matched. -/
def noteWatchOf (key : Nat) (rd wr : Bool) (va n : Nat) (s : State) : State :=
  { s with watch := firstHit s.watch (watchTrap s key rd wr va n) }

/-- The access is noted for the Watch trap of its instruction (R283) (DEDUCED, log entry 33). -/
def noteWatch (rd wr : Bool) (va n : Nat) : M Unit := modify fun s => noteWatchOf s.cur rd wr va n s

/-- The die of this package at which a posted store is performed: for a window store that names this device, that of the
place which the export table gives (R176, R382). -/
def State.postDie (s : State) (p : Post) : Option Nat :=
  if p.dest < 2048 then
    if p.dest = s.devId then
      match (targetLoc s.devId p.va.toNat 1 4).run (clearNotes s) with
      | .ok l _ => l.place?.bind fun a => if a < 2 ^ 53 then homeDie a else some (bankDie a)
      | .error _ _ => none
    else none
  else if p.dest < hostDest then some (p.dest - 2048)
  else none

/-- Whether the destination of a posted store lies within a scope (R176): in the package for a window store that names this
device. -/
def destWithin (s : State) (scope : Nat) (p : Post) : Bool :=
  if scope = 3 then s.postDie p == some (dieOfCore p.core)
  else if scope = 4 then p.dest == s.devId || decide (2048 ≤ p.dest ∧ p.dest < hostDest)
  else scope == 5

/-- Whether a stored access of a context that a release at a scope waits for has still to be performed: a posted store whose
destination lies within the scope, or a store to host uncached memory, whose GO is due (R176, R306). A marker is no
store (R201). -/
def State.unreleased (s : State) (key scope : Nat) : Bool :=
  s.posts.any fun p => p.key == key && p.st != .lost && p.copy.isNone && p.marker.isNone &&
    (p.dest == hostDest || destWithin s scope p)

/-- A release at a scope waits until the context's earlier accesses have been performed at it (R176)
(DESIGN CHOICE, log entry 6). -/
def releaseWait (scope : Nat) : M Unit := do
  if scope != 0 then
    let s ← get
    let c := s.ctx s.cur
    if c.pend.any (fun p => p.op.memRead || p.op.memWrite) then heldAgain
    else if s.unreleased s.cur scope then heldAgain

/-- An acquire of the current context at a scope (R176, R178) (DESIGN CHOICE, log entry 6; DEDUCED, log entry 11). -/
def acquire (scope : Nat) : M Unit := modify fun s => acquireCtx s.cur scope s

/-- Bytes an access of a width function code moves: loads (R171). -/
def loadWidth (fn : Nat) : Nat := if fn = 0 then 8 else if fn ≤ 2 then 1 else if fn ≤ 4 then 2 else 4

/-- Bytes an access of a width function code moves: stores (R171). -/
def storeWidth (fn : Nat) : Nat := if fn = 0 then 8 else if fn = 1 then 1 else if fn = 2 then 2 else 4

/-- log₂ of a power of two. -/
def log2w (n : Nat) : Nat := bitLen n - 1

/-- Misaligned for a scalar access (R169). -/
def aligned (va n : Nat) : M Unit := do
  if va % n != 0 then fault 4 (log2w n) (BitVec.ofNat 64 va)

/-- The maker of the current context's accesses. -/
def curEnv : M Env := do
  let s ← get
  return s.envOf s.cur

/-- A scalar access to an aperture that takes none of its kind: space 10 gives SUB 9 (R42, R204). -/
def noAperture {α : Type} (va : Nat) : M α :=
  apertureFault (if va / 2 ^ 55 % 4 = 2 then 9 else if va / 2 ^ 55 % 4 = 1 then va / 2 ^ 52 % 8 else 10) va

/-! ### The event unit by load and store (R204 to R208) -/

/-- The context waits at the event unit; a gating load stops the core. `scope` is that of an acquire which the load makes
itself (R176). -/
def waitAt {α : Type} (cl obj : Nat) (rd : BitVec 6) (next : Advance) (scope : Nat) (gate : Bool) : M α := do
  modify fun s =>
    let w : Waiter := { key := s.cur, obj := obj, rd := rd, next := next, gate := gate, watch := s.watch,
                         served := none, scope := scope }
    let s := s.modCluster cl fun c => { c with waiters := c.waiters ++ [w] }
    if gate then gateCore (coreOfKey s.cur) s.cur s else s
  throw (.hold .unit true)

/-- A load of event line n: it consumes a set line, or waits (R205). -/
def lineLoad (cl n : Nat) (rd : BitVec 6) (next : Advance) (scope : Nat) (gate : Bool) : M Unit := do
  let l := Tbl.get {} ((← get).cluster cl).lines n
  if l.set then
    modify fun s => s.modCluster cl fun c => { c with lines := Tbl.set {} c.lines n { l with set := false } }
    acquire 4
    writeX rd l.payload
  else waitAt cl n rd next scope gate

/-- An 8-byte load of the event unit (R204). A load that gates its core, or would, uncovers the interval of a rollback team
(R391); an arrival is a release at `.cl` (R206) (DEDUCED, log entry 21). -/
def eventLoad (cl off va : Nat) (rd : BitVec 6) (next : Advance) (scope : Nat) (peer : Bool) : M Unit := do
  let s ← get
  let key := s.cur
  if off % 8 != 0 || decide (off ≥ 0x380) then noAperture va
  else if off < 0x200 then
    if !peer then modify (uncover key)
    lineLoad cl (off / 8) rd next scope (!peer)
  else if off < 0x280 then
    let b := (off - 0x200) / 8
    let k := Tbl.get {} (s.cluster cl).counters b
    if k.expect = 0 then noAperture va
    else
      releaseWait 2
      modify (uncover key)
      let k' := { k with arrived := k.arrived + 1 }
      modify fun s => s.modCluster cl fun c => { c with counters := Tbl.set {} c.counters b k' }
      if k'.arrived ≥ k.expect then
        modify (counterCheck cl b)
        acquire 2
        writeX rd ((k.round + 1).setWidth 64)
      else waitAt cl (objCounter b) rd next scope true
  else if off < 0x300 then
    let k := Tbl.get {} (s.cluster cl).counters ((off - 0x280) / 8)
    writeX rd (BitVec.ofNat 64 (k.round.toNat * 2 ^ 32 + k.arrived % 256 * 256 + k.expect % 256))
  else
    let u := (off - 0x300) / 8
    let h := Tbl.get 0 (s.cluster cl).mutexes u
    if !peer then modify (uncover key)
    if h = 0 then
      modify fun s => s.modCluster cl fun c => { c with mutexes := Tbl.set 0 c.mutexes u (key + 1) }
      acquire 2
      writeX rd 1
    else waitAt cl (objMutex u) rd next scope (!peer && !(h - 1 != key && coreOfKey (h - 1) == coreOfKey key))

/-- An 8-byte store to the event unit (R204 to R206) (DEDUCED, log entry 21). -/
def eventStore (cl off va : Nat) (v : Word) : M Unit := do
  let s ← get
  let key := s.cur
  if off % 8 != 0 || decide (off ≥ 0x380) then noAperture va
  else if off < 0x200 then
    releaseWait 4
    modify fun s => fireLine cl (off / 8) v (uncover key s)
  else if off < 0x280 then noAperture va
  else if off < 0x300 then
    let e := field v 0 8
    if e = 0 ∨ e > 88 then noAperture va
    else
      let b := (off - 0x280) / 8
      modify fun s => (uncover key s).modCluster cl fun c =>
        { c with counters := Tbl.set {} c.counters b { Tbl.get {} c.counters b with expect := e, arrived := 0 } }
  else
    let u := (off - 0x300) / 8
    if Tbl.get 0 (s.cluster cl).mutexes u != key + 1 then noAperture va
    else
      releaseWait 2
      modify fun s => mutexFree cl u (uncover key s)

/-- An access of the current context to the event unit of another die uses the link to it (R276, R400). -/
def eventLink (cl : Nat) : M Unit := do
  let s ← get
  let d := dieOfCore (coreOfKey s.cur)
  if !s.linksOpen d [dieOfCluster cl] then heldAgain
  modify (useLinks d [dieOfCluster cl])

/-! ### Parameter windows (R180) -/

/-- Through what a scalar load reaches memory: its core's L1, or for the constant path the die's L2 (R179, R270). -/
def loadVia (const : Bool) (core : Nat) : Via := if const then .l2 (dieOfCore core) else .l1 core

/-- The places of the bytes of a window from offset `o` that lie within its size, each translated, with their memory types. -/
def paramPlaces (e : Env) (base size o : Nat) : Nat → M (List (Nat × Nat))
  | 0 => return []
  | n + 1 => do
    if o < size then
      let va := (base + o) % 2 ^ 57
      let (pa, mt) ← translate e va accRead
      match ← physLoc va pa mt with
      | .mem p mt => return (p, mt) :: (← paramPlaces e base size (o + 1) n)
      | _ => fault 6 1 (BitVec.ofNat 64 va)
    else return []

/-- `n` bytes at offset `o` of window `w`, with their mark; bytes beyond its size read 0 and set SR.PW. -/
def paramRead (w o n : Nat) : M (List Byte × Nat) := do
  let s ← get
  let e := s.envOf s.cur
  let (base, size) := (s.launch e.launch).params.getD w (0, 0)
  if size = 0 then fault 9 0 (BitVec.ofNat 64 w)
  else if o % n != 0 then fault 4 (log2w n) (BitVec.ofNat 64 o)
  else
    let qs ← paramPlaces e base size o n
    readLines (loadVia true e.core) 0 ((qs.filter (·.2 != 3)).map fun q => lineOf q.1).eraseDups
    let ps := qs.map (·.1)
    let bs ← constReadCur ps
    if o + n > size then modCur fun c => { c with sr := c.sr ||| 2#64 }
    let mark := ps.foldl (fun m p => if m = 0 then s.byteMark p else m) 0
    return (bs ++ List.replicate (n - bs.length) 0, mark)

/-! ### Loads -/

/-- The context's own posted stores to a window address, newest first (R173). -/
def State.ownWindow (s : State) (key va n : Nat) : List Post :=
  (s.posts.filter fun p => p.key == key && p.dest == windowDev va && p.st != .lost && p.marker.isNone && p.copy.isNone &&
    (List.range n).any fun i => p.writes p.va.toNat (va + i)).reverse

/-- A load of a parameter window by the aperture (R180). -/
def paramLoad (fn scope va w o : Nat) (rd : BitVec 6) : M Unit := do
  let (bs, m) ← paramRead w o (loadWidth fn)
  noteWatch true false va (loadWidth fn)
  acquire scope
  modCur (·.setXMarked rd.toNat (loadValue fn bs) m)

/-- Whether an address lies in the parameter-window aperture (R262). -/
def paramAperture (va : Nat) : Bool := va / 2 ^ 55 % 4 == 1 && va / 2 ^ 52 % 8 == 5

/-- A load through the Tvedlon window (R172, R173, R194, R280): one of bytes that no posted store of the context writes does
not wait for a posted store to other bytes of the line (DEDUCED, log entries 10 and 13; DESIGN CHOICE, log entry 67). -/
def windowLoad (fn va : Nat) (rc : Bool) (scope : Nat) (rd : BitVec 6) (next : Advance) : M Unit := do
  let n := loadWidth fn
  let s ← get
  let key := s.cur
  let dev := windowDev va
  let hit := Tbl.get [] (s.core (coreOfKey key)).rc va
  match s.ownWindow key va n with
  | p :: _ =>
    if (List.range n).all fun i => p.writes p.va.toNat (va + i) then
      noteWatch true false va n
      acquire scope
      writeX rd (loadValue fn ((p.bytes.drop (va - p.va.toNat)).take n))
    else heldAgain
  | [] =>
    if s.lineAwaited key va || s.windowClash key va n then heldAgain
    else if rc && scope != 5 && decide (n ≤ hit.length) then
      noteWatch true false va n
      acquire scope
      writeX rd (loadValue fn (hit.take n))
    else if s.unreachable dev then
      noteWatch true false va n
      acquire scope
      writeX rd (BitVec.allOnes 64)
      unanswered dev
    else
      request (.load fn rd next rc scope) va [(dev, BitVec.ofNat 57 va, n)]
      awaitResponse

/-- A scalar load of a width function code (R171 to R179): `const` reads through the constant path, and `scope` makes it
an acquire (DEDUCED, log entry 10). An address that is not a multiple of the width is Misaligned before anything else but a
parameter window is looked at, the event aperture included (DESIGN CHOICE, log entry 62). -/
def load (const : Bool) (fn : Nat) (ch : BitVec 3) (scope va : Nat) (rd : BitVec 6) (next : Advance) : M Unit := do
  let n := loadWidth fn
  if !paramAperture va then aligned va n
  memOrder false
  match ← resolve (← curEnv) va n accRead with
  | .window a => windowLoad fn a (ch == 5) scope rd next
  | .regs off =>
    if n != 8 then fault 6 1 (BitVec.ofNat 64 va)
    else
      noteWatch true false va n
      acquire scope
      writeX rd (regRead (← get) off)
  | .event cl off peer =>
    if n != 8 then noAperture va
    else
      if peer then eventLink cl
      noteWatch true false va n
      eventLoad cl off va rd next scope peer
      acquire scope
  | .param w o => paramLoad fn scope va w o rd
  | .mem p mt =>
    if mt != 3 then
      let via := loadVia const (coreOfKey (← curKey))
      lineFree via p
      modify (lineRead via ch.toNat p)
    let s ← get
    if s.gatewayPost s.cur p n then heldAgain
    let bs ← (if const then constReadCur (placesFrom p n) else pure (s.ownBytes s.cur p n))
    noteWatch true false va n
    acquire scope
    modCur (·.setXMarked rd.toNat (loadValue fn bs) (s.ownMark s.cur p n))
  | .bank p =>
    let via := loadVia false (coreOfKey (← curKey))
    lineFree via p
    modify (lineRead via 0 p)
    let s ← get
    if s.gatewayPost s.cur p n then heldAgain
    noteWatch true false va n
    acquire scope
    modCur (·.setXMarked rd.toNat (loadValue fn (s.bytes p n)) (s.firstMark p n))

/-- The base register and offset of a short memory instruction (R169). -/
def memEa (o : ShM) : M Nat := do return (eaOf (← useX o.rs1.toNat) o.off).toNat

/-- The base register and offset of a long memory instruction (R169). -/
def memEaL (a : BitVec 6) (off : BitVec 20) : M Nat := do return (eaOf (← useX a.toNat) off).toNat

/-- `ld` and its width forms (07 R172). -/
def execLd (fn : BitVec 4) (o : ShM) (s : State) : Outcome :=
  short (do load false fn.toNat o.ch 0 (← memEa o) o.rd shortNext) s

/-- How a long-form instruction that a unit completes goes on (R87). -/
def longNext (o : Low) : Advance := { len := 12, yld := o.yld == 1, dly := o.dly.toNat }

/-- How an extended-form instruction that a unit completes goes on (R87). -/
def extNext (o : Low) : Advance := { len := 16, yld := o.yld == 1, dly := o.dly.toNat }

/-- The guarded loads (05 R121). -/
def execGuardedLd (fn : BitVec 6) (o : LgM) (s : State) : Outcome :=
  longI o.toLow (do
    if ← guardOn o.g1 then load false fn.toNat o.ch 0 (← memEaL o.a o.off) o.d (longNext o.toLow)) s

/-- `ldk` and its width forms (07 R179). -/
def execLdk (fn : BitVec 4) (o : ShM) (s : State) : Outcome :=
  short (do load true fn.toNat o.ch 0 (← memEa o) o.rd shortNext) s

/-- `lda` and its width forms: an acquire at its scope (07 R176). -/
def execLda (fn : BitVec 4) (o : ShM) (s : State) : Outcome :=
  short (do load false fn.toNat o.ch o.scp.toNat (← memEa o) o.rd shortNext) s

/-- An `ldp` is noted for its Watch trap at the address that its bytes have in the parameter-window aperture (R262, R283)
(DESIGN CHOICE, log entry 33). -/
def noteParam (w o : Nat) : M Unit := do
  if o < 2 ^ 48 then noteWatch true false (2 ^ 55 + 5 * 2 ^ 52 + w * 2 ^ 48 + o) 8

/-- `ldp` (07 R180) (DEDUCED, log entry 33). -/
def execLdp (fn : BitVec 4) (o : ShM) (s : State) : Outcome :=
  short (do
    let o64 := (← useX o.rs1.toNat) + o.off.signExtend 64
    memOrder false
    let (bs, m) ← paramRead fn.toNat o64.toNat 8
    noteParam fn.toNat o64.toNat
    modCur (·.setXMarked o.rd.toNat (loadValue 0 bs) m)) s

/-! ### Stores -/

/-- A scalar store into the Tvedlon window is posted (R195). -/
def windowStore (stream va : Nat) (bs : List Byte) : M Unit := do
  postStore stream (windowDev va) va 0 bs
  modify fun s => dropRc (coreOfKey s.cur) va (uncover s.cur s)

/-- Whether a posted store of `n` bytes to host uncached memory must wait for an earlier one of its context to one of the same
granules (R306). -/
def State.granuleBusy (s : State) (key p n : Nat) : Bool :=
  s.posts.any fun q => q.key == key && q.dest == hostDest &&
    decide (q.place / 64 ≤ (p + n - 1) / 64 ∧ p / 64 ≤ (q.place + q.bytes.length - 1) / 64)

/-- A store to host uncached memory: it is performed when its GO returns; another of the context to the same granule
waits for that (R306). -/
def uncachedStore (va p : Nat) (bs : List Byte) : M Unit := do
  let s ← get
  let key := s.cur
  if s.granuleBusy key p bs.length then heldAgain
  else
    modify (teamWrite key p bs.length)
    postStore 0 hostDest va p bs

/-- A coherent store at its place: an earlier posted store of the context to the same bytes comes first (R173). -/
def plainStore (p : Nat) (bs : List Byte) : M Unit := do
  let s ← get
  if s.ownPost s.cur p bs.length || s.gatewayPost s.cur p bs.length then heldAgain
  else
    lineWritable (s.sourceOf s.cur).via p
    modify fun s => (teamWrite s.cur p bs.length s).store (s.sourceOf s.cur) p bs

/-- A scalar store of a width function code (R171, R172, R174): `scope` makes it a release. -/
def store (fn : Nat) (scope stream va : Nat) (v : Word) : M Unit := do
  let n := storeWidth fn
  let bs := leBytes n v.toNat
  aligned va n
  memOrder true
  match ← resolve (← curEnv) va n accWrite with
  | .window a =>
    releaseWait scope
    windowStore stream a bs
  | .regs off =>
    if n != 8 then fault 6 2 (BitVec.ofNat 64 va)
    else
      releaseWait scope
      modify fun s => regWrite true off v (uncover s.cur s)
  | .event cl off peer =>
    if n != 8 then noAperture va
    else
      releaseWait scope
      if peer then eventLink cl
      eventStore cl off va v
  | .param _ _ => noAperture va
  | .mem p mt =>
    releaseWait scope
    if mt = 3 then uncachedStore va p bs else plainStore p bs
  | .bank p =>
    releaseWait scope
    plainStore p bs
  noteWatch false true va n

/-- `st` and its width forms (07 R172) (DESIGN CHOICE, log entry 62). -/
def execSt (fn : BitVec 4) (o : ShM) (s : State) : Outcome :=
  short (do
    let va ← memEa o
    store fn.toNat 0 o.str.toNat va (← useX o.rs2.toNat)) s

/-- The guarded stores (05 R121). -/
def execGuardedSt (fn : BitVec 6) (o : LgM) (s : State) : Outcome :=
  longI o.toLow (do
    if ← guardOn o.g1 then
      let va ← memEaL o.a o.off
      store fn.toNat 0 o.str.toNat va (← useX o.b.toNat)) s

/-- `stl` and its width forms: a release at its scope (07 R176). -/
def execStl (fn : BitVec 4) (o : ShM) (s : State) : Outcome :=
  short (do
    let va ← memEa o
    store fn.toNat o.scp.toNat o.str.toNat va (← useX o.rs2.toNat)) s

/-- `sts` and its width forms: a posted store on a stream (07 R195). Only translated addresses and the window take it; one to
an aperture uncovers the interval of a rollback team all the same (R391). -/
def execSts (fn : BitVec 4) (o : ShM) (s : State) : Outcome :=
  short (do
    let va ← memEa o
    let v ← useX o.rs2.toNat
    let n := storeWidth fn.toNat
    let bs := leBytes n v.toNat
    let stream := o.str.toNat
    aligned va n
    memOrder true
    match ← resolve (← curEnv) va n accWrite with
    | .window a => windowStore stream a bs
    | .regs off =>
      if n != 8 then fault 6 2 (BitVec.ofNat 64 va)
      else modify fun s => regWrite true off v (uncover s.cur s)
    | .mem p mt =>
      if mt = 3 then uncachedStore va p bs
      else
        match homeDie p with
        | some d =>
          postStore stream (dieDest d) va p bs
          modify fun s => uncover s.cur s
        | none => pure ()
    | _ =>
      modify fun s => uncover s.cur s
      noAperture va
    noteWatch false true va n) s

/-! ### Fences and cache maintenance -/

/-- `fence`: a release and then an acquire at its scope (07 R177). -/
def execFence (o : ShM) (s : State) : Outcome :=
  short (do
    releaseWait o.scp.toNat
    acquire o.scp.toNat) s

/-- `kfence` (05 R139): what was acquired bounds `ldk` and fetch from here on (DEDUCED, log entry 11). -/
def execKfence (_ : Sh) (s : State) : Outcome :=
  short (modCur fun c => { c with kfloor := max c.kfloor c.acq }) s

/-- The line of a maintenance instruction, under read permission: none where no cache holds the address (R213). -/
def maintLine (va : Nat) : M (Option Nat) := do
  let e ← curEnv
  let named := fun (a : Nat) => (do
    let (pa, _) ← translate e a accRead
    return if homed pa && !(← get).lostPhys pa then some (lineOf pa) else none : M (Option Nat))
  if va / 2 ^ 55 % 4 = 0 then named va
  else if va / 2 ^ 52 % 32 = 11 then
    let l := (← get).launch e.launch
    if va % 2 ^ 52 < l.psize then named (e.privateVa l (va % 2 ^ 52)) else apertureFault 3 va
  else return none

/-- The cores whose L1 a scope names (R213). -/
def maintCores (s : State) (scope core : Nat) : List Nat :=
  if scope ≤ 1 then [core]
  else if scope ≤ 3 then (List.range 8).map (clusterOfCore core * 8 + ·)
  else s.cores.map (·.1)

/-- The clusters whose victim cache a scope names (R213). -/
def maintPools (s : State) (scope core : Nat) : List Nat :=
  if scope ≤ 1 then [] else if scope ≤ 3 then [clusterOfCore core] else s.clusters.map (·.1)

/-- The dies whose L2 a scope names (R213). -/
def maintDies (scope core : Nat) : List Nat :=
  if scope = 3 then [dieOfCore core] else if scope ≥ 4 then [0, 1, 2, 3] else []

/-- Whether one of the caches that a scope names holds a line in a state that is at least `st` in an L1 or a pool, and at
least `sd` in an L2. -/
def State.maintHeld (s : State) (scope core line st sd : Nat) : Bool :=
  (maintCores s scope core).any (fun k => decide (st ≤ s.l1 k line)) ||
    (maintPools s scope core).any (fun c => decide (st ≤ (s.poolOf c line).st)) ||
    (maintDies scope core).any fun d => decide (sd ≤ s.dieLine d line)

/-- A die's dirty copy is written back to memory and kept clean: M becomes E, and O becomes S, which the directory then has
as a sharer (R213, R271, R272). -/
def writeBack (d line : Nat) (s : State) : State :=
  let e := s.dirOf line
  match s.dieLine d line with
  | 4 => setDieLine d line 2 (cleanLine line (backAtHome line s))
  | 3 => setDieLine d line 1 (setDir line { (s.dirOf line) with owner := none, sharers := e.holders }
      (cleanLine line (backAtHome line s)))
  | _ => s

/-- The dirty copies in the caches that a scope names are written back (R213): one in an L1 or a pool is the newest of its
die. -/
def writeBackAll (scope core line : Nat) (s : State) : State :=
  let dirty := fun (d : Nat) => (maintDies scope core).contains d ||
    (maintCores s scope core).any (fun k => dieOfCore k == d && s.l1 k line == 4) ||
    (maintPools s scope core).any fun c => dieOfCluster c == d && (s.poolOf c line).st == 4
  ([0, 1, 2, 3].filter dirty).foldl (fun s d => writeBack d line s) s

/-- A maintenance instruction waits for the line as a write at its home does, its request in the queue (R190, R273, R347). -/
def maintWait (line : Nat) : M Unit := do
  let s ← get
  if s.tileHolds line || !(s.accepts .home line && s.homeOpen [] line false) then
    modify (noteMiss .home false line)
    heldAgain
  else modify (dropMiss .home line)

/-- `cwb`: a dirty copy is written back and kept clean (07 R213). -/
def execCwb (o : ShM) (s : State) : Outcome :=
  short (do
    let va ← memEa o
    match ← maintLine va with
    | none => pure ()
    | some line =>
      let scope := o.scp.toNat
      let core := coreOfKey (← curKey)
      if (← get).maintHeld scope core line 4 3 then
        maintWait line
        modify (writeBackAll scope core line)) s

/-- `cinv`: a dirty copy is written back, then every copy is discarded, the `.rc` lines of a window address included (07
R213). -/
def execCinv (o : ShM) (s : State) : Outcome :=
  short (do
    let va ← memEa o
    let scope := o.scp.toNat
    let core := coreOfKey (← curKey)
    if va / 2 ^ 55 % 4 = 3 then
      modify fun s => (maintCores s scope core).foldl (fun s k => dropRc k va s) s
    else
      match ← maintLine va with
      | none => pure ()
      | some line =>
        if (← get).maintHeld scope core line 1 1 then
          maintWait line
          modify fun s =>
            let s := writeBackAll scope core line s
            let s := (maintCores s scope core).foldl (fun s k => setL1 k line 0 s) s
            let s := (maintPools s scope core).foldl (fun s c => setPool c line {} s) s
            (maintDies scope core).foldl (fun s d => if s.dieLine d line = 0 then s else homeBack d line s) s) s

/-- `cpf`: a hint with no architected effect; it never faults (07 R213). -/
def execCpf (_ : ShM) (s : State) : Outcome := short (pure ()) s

end Sys2Proof.Machine
end

