-- ==== Sys2Proof/Machine/Atomics.lean ====
section
/-!
DEFINITION. Atomics (07 R191 to R193; 09 R281): the operation once, then a meaning for each instruction.
-/

namespace Sys2Proof.Machine

open Sys2Proof

/-- The new word of an integer atomic of `w` bits (R191): m the old word, v the operand. -/
def amoWord (w fn m v : Nat) : Nat :=
  let sg := fun (x : Nat) => (if x < 2 ^ (w - 1) then (x : Int) else (x : Int) - 2 ^ w)
  match fn with
  | 0 => (m + v) % 2 ^ w
  | 1 => m &&& v
  | 2 => m ||| v
  | 3 => m ^^^ v
  | 4 => if sg v < sg m then v else m
  | 5 => if sg m < sg v then v else m
  | 6 => min m v
  | 7 => max m v
  | _ => v

/-- The new word of a float atomic (R191): RNE, never flushed, no flag. -/
def amoFloat (w m v : Nat) : Nat := (fAdd (if w = 64 then f64 else f32) 0 false m v).1

/-- The first context to touch a word with a float atomic in a deterministic launch (R193). The context is known by its
private slot, which stays with it. -/
def detCheck (p va : Nat) : M Unit := do
  let s ← get
  let c := s.ctx s.cur
  if c.det then
    let me := c.pslot + 1
    let first := Tbl.get 0 (s.launch c.launch).detWords (p / 8)
    if first != 0 && first != me then fault 14 0 (BitVec.ofNat 64 va)
    else modify fun s => s.modLaunch c.launch fun l => { l with detWords := Tbl.set 0 l.detWords (p / 8) me }

/-- How an atomic's old word enters xd (R191) (DEDUCED, log entry 16). -/
def amoOld (w : Nat) (float : Bool) (m : Nat) : Word := if w = 32 && !float then signExt 32 m else BitVec.ofNat 64 m

/-- An atomic on a word of `n` bytes in this package (R191 to R193): `op` gives the new word, `remote` makes it a
`ramo`, which runs at the home slice and leaves the line in no cache (R192, R281). A mark of the old word stays with the word and goes to xd. -/
def atomic (n : Nat) (float remote : Bool) (rfn : Nat) (op : Nat → Nat) (v : Word) (o : ShM) : M Unit := do
  let va ← memEa o
  let scope := o.scp.toNat
  aligned va n
  memOrder true
  match ← resolve (← curEnv) va n accAtomic with
  | .window a =>
    if !remote then apertureFault 10 va
    else
      releaseWait scope
      let s ← get
      if s.lineAwaited s.cur a || !(s.ownWindow s.cur a 8).isEmpty then heldAgain
      else
        modify fun s => dropRc (coreOfKey s.cur) a (uncover s.cur s)
        let dev := windowDev a
        if s.unreachable dev then
          noteWatch true true va n
          acquire scope
          writeX o.rd (BitVec.allOnes 64)
          unanswered dev
        else
          request (.ramo rfn v o.rd scope) a [(dev, BitVec.ofNat 57 a, 8)]
          awaitResponse
  | .regs _ => fault 6 4 (BitVec.ofNat 64 va)
  | .event _ _ _ => noAperture va
  | .param _ _ => noAperture va
  | l =>
    let p := l.place?.getD 0
    if (match l with | .mem _ mt => mt == 3 | _ => false) then fault 6 4 (BitVec.ofNat 64 va)
    else
      let s ← get
      if s.ownPost s.cur p n || s.gatewayPost s.cur p n then heldAgain
      else
        let w := s.sourceOf s.cur
        let w := if remote then { w with via := .home } else w
        lineWritable w.via p
        releaseWait scope
        if float then detCheck p va
        let m := leNat (s.bytes p n)
        let mark := s.firstMark p n
        modify fun s =>
          let s := (teamWrite s.cur p n s).store w p (leBytes n (op m))
          if mark = 0 then s else { s with marks := (List.range n).foldl (fun t i => Tbl.set 0 t (p + i) mark) s.marks }
        noteWatch true true va n
        acquire scope
        modCur (·.setXMarked o.rd.toNat (amoOld (8 * n) float m) mark)

/-- `amo` on a word of `w` bits (07 R191) (DEDUCED, log entry 16). -/
def amo (w fn : Nat) (o : ShM) (s : State) : Outcome :=
  short (do
    let v ← useX o.rs2.toNat
    atomic (w / 8) false false 0 (fun m => amoWord w fn m (v.toNat % 2 ^ w)) v o) s

/-- `amo.fadd` on a word of `w` bits (07 R191, R193). -/
def amoFadd (w : Nat) (o : ShM) (s : State) : Outcome :=
  short (do
    let v ← useX o.rs2.toNat
    atomic (w / 8) true false 0 (fun m => amoFloat w m (v.toNat % 2 ^ w)) v o) s

/-- `cas` on a word of `w` bits (07 R191): xd holds the expected word. -/
def casForm (w : Nat) (o : ShM) (s : State) : Outcome :=
  short (do
    let v ← useX o.rs2.toNat
    let d ← useX o.rd.toNat
    atomic (w / 8) false false 0 (fun m => if m = d.toNat % 2 ^ w then v.toNat % 2 ^ w else m) v o) s

/-- `ramo` (07 R191, R192) (DEDUCED, log entry 13). -/
def ramo (fn : Nat) (o : ShM) (s : State) : Outcome :=
  short (do
    let v ← useX o.rs2.toNat
    atomic 8 false true fn (fun m => amoWord 64 fn m v.toNat) v o) s

/-- `amo.add` (07 R191). -/
def execAmoAdd (o : ShM) (s : State) : Outcome := amo 64 0 o s

/-- `amo.add.i32` (07 R191). -/
def execAmoAddI32 (o : ShM) (s : State) : Outcome := amo 32 0 o s

/-- `ramo.add` (07 R191, R192). -/
def execRamoAdd (o : ShM) (s : State) : Outcome := ramo 0 o s

/-- `amo.and` (07 R191). -/
def execAmoAnd (o : ShM) (s : State) : Outcome := amo 64 1 o s

/-- `amo.and.i32` (07 R191). -/
def execAmoAndI32 (o : ShM) (s : State) : Outcome := amo 32 1 o s

/-- `ramo.and` (07 R191, R192). -/
def execRamoAnd (o : ShM) (s : State) : Outcome := ramo 1 o s

/-- `amo.or` (07 R191). -/
def execAmoOr (o : ShM) (s : State) : Outcome := amo 64 2 o s

/-- `amo.or.i32` (07 R191). -/
def execAmoOrI32 (o : ShM) (s : State) : Outcome := amo 32 2 o s

/-- `ramo.or` (07 R191, R192). -/
def execRamoOr (o : ShM) (s : State) : Outcome := ramo 2 o s

/-- `amo.xor` (07 R191). -/
def execAmoXor (o : ShM) (s : State) : Outcome := amo 64 3 o s

/-- `amo.xor.i32` (07 R191). -/
def execAmoXorI32 (o : ShM) (s : State) : Outcome := amo 32 3 o s

/-- `ramo.xor` (07 R191, R192). -/
def execRamoXor (o : ShM) (s : State) : Outcome := ramo 3 o s

/-- `amo.min` (07 R191). -/
def execAmoMin (o : ShM) (s : State) : Outcome := amo 64 4 o s

/-- `amo.min.i32` (07 R191). -/
def execAmoMinI32 (o : ShM) (s : State) : Outcome := amo 32 4 o s

/-- `ramo.min` (07 R191, R192). -/
def execRamoMin (o : ShM) (s : State) : Outcome := ramo 4 o s

/-- `amo.max` (07 R191). -/
def execAmoMax (o : ShM) (s : State) : Outcome := amo 64 5 o s

/-- `amo.max.i32` (07 R191). -/
def execAmoMaxI32 (o : ShM) (s : State) : Outcome := amo 32 5 o s

/-- `ramo.max` (07 R191, R192). -/
def execRamoMax (o : ShM) (s : State) : Outcome := ramo 5 o s

/-- `amo.minu` (07 R191). -/
def execAmoMinu (o : ShM) (s : State) : Outcome := amo 64 6 o s

/-- `amo.minu.i32` (07 R191). -/
def execAmoMinuI32 (o : ShM) (s : State) : Outcome := amo 32 6 o s

/-- `ramo.minu` (07 R191, R192). -/
def execRamoMinu (o : ShM) (s : State) : Outcome := ramo 6 o s

/-- `amo.maxu` (07 R191). -/
def execAmoMaxu (o : ShM) (s : State) : Outcome := amo 64 7 o s

/-- `amo.maxu.i32` (07 R191). -/
def execAmoMaxuI32 (o : ShM) (s : State) : Outcome := amo 32 7 o s

/-- `ramo.maxu` (07 R191, R192). -/
def execRamoMaxu (o : ShM) (s : State) : Outcome := ramo 7 o s

/-- `amo.swap` (07 R191). -/
def execAmoSwap (o : ShM) (s : State) : Outcome := amo 64 8 o s

/-- `amo.swap.i32` (07 R191). -/
def execAmoSwapI32 (o : ShM) (s : State) : Outcome := amo 32 8 o s

/-- `ramo.swap` (07 R191, R192). -/
def execRamoSwap (o : ShM) (s : State) : Outcome := ramo 8 o s

/-- `amo.fadd.f64` (07 R191, R193). -/
def execAmoFaddF64 (o : ShM) (s : State) : Outcome := amoFadd 64 o s

/-- `amo.fadd.f32` (07 R191, R193). -/
def execAmoFaddF32 (o : ShM) (s : State) : Outcome := amoFadd 32 o s

/-- `cas` (07 R191). -/
def execCas (o : ShM) (s : State) : Outcome := casForm 64 o s

/-- `cas.i32` (07 R191). -/
def execCasI32 (o : ShM) (s : State) : Outcome := casForm 32 o s

end Sys2Proof.Machine
end

