-- ==== Sys2Proof/Machine/Rules.lean ====
section
/-!
DEFINITION. The layouts of the words (R82, R88, R89) and the checks of steps 4 and 5 of R94 as data: for each assigned
major and function code, which fields the instruction uses and the values they take. A code without a rule is not
assigned (R98). A word that fails `legal` raises IllegalOpcode; one that fails `fieldsOK` raises ReservedField.
-/

namespace Sys2Proof

/-- Layout M of R82 in the immediate of a short word. -/
def ShM.ofSh (o : Sh) : ShM :=
  { rd := o.rd, rs1 := o.rs1, rs2 := o.rs2, ch := o.imm.extractLsb' 27 3, scp := o.imm.extractLsb' 24 3,
    str := o.imm.extractLsb' 20 4, off := o.imm.extractLsb' 0 20 }

/-- The short word that layout M packs. -/
def ShM.toSh (o : ShM) : Sh :=
  { rd := o.rd, rs1 := o.rs1, rs2 := o.rs2, imm := (0#2) ++ o.ch ++ o.scp ++ o.str ++ o.off }

/-- The memory word of R88 in bits [95:64]. -/
def LgM.ofLg (o : Lg) : LgM :=
  { toLow := o.toLow, scp := o.imm.extractLsb' 24 3, str := o.imm.extractLsb' 20 4, off := o.imm.extractLsb' 0 20 }

/-- The long word that the memory word packs. -/
def LgM.toLg (o : LgM) : Lg :=
  { toLow := o.toLow, imm := (0#5) ++ o.scp ++ o.str ++ o.off }

/-- The expression tail (R89). -/
def ExE.ofTail (lo : Low) (tail : BitVec 64) : ExE :=
  { toLow := lo, kbf := tail.extractLsb' 0 16, tok := tail.extractLsb' 16 48 }

/-- The bits of the expression tail. -/
def ExE.tailBits (o : ExE) : BitVec 64 := o.tok ++ o.kbf

/-- The matrix tail (R89). -/
def ExM.ofTail (lo : Low) (tail : BitVec 64) : ExM :=
  { toLow := lo, acc := tail.extractLsb' 0 2, slot := tail.extractLsb' 2 3, mm1 := tail.extractLsb' 5 10,
    nm1 := tail.extractLsb' 15 10, kg := tail.extractLsb' 25 11, fmta := tail.extractLsb' 36 4,
    aoff := tail.extractLsb' 40 6 }

/-- The bits of the matrix tail. -/
def ExM.tailBits (o : ExM) : BitVec 64 :=
  (0#18) ++ o.aoff ++ o.fmta ++ o.kg ++ o.nm1 ++ o.mm1 ++ o.slot ++ o.acc

/-- The copy tail (R89). -/
def ExC.ofTail (lo : Low) (tail : BitVec 64) : ExC :=
  { toLow := lo, val := tail.extractLsb' 0 6, cw := tail.extractLsb' 6 1, bar := tail.extractLsb' 7 6,
    be := tail.extractLsb' 13 1, fe := tail.extractLsb' 14 1, fol := tail.extractLsb' 15 3,
    str := tail.extractLsb' 18 4, ast := tail.extractLsb' 22 1, pool := tail.extractLsb' 23 6,
    ring := tail.extractLsb' 29 6, bsz := tail.extractLsb' 35 4 }

/-- The bits of the copy tail. -/
def ExC.tailBits (o : ExC) : BitVec 64 :=
  (0#25) ++ o.bsz ++ o.ring ++ o.pool ++ o.ast ++ o.str ++ o.fol ++ o.fe ++ o.be ++ o.bar ++ o.cw ++ o.val

/-- A tail kept whole. -/
def ExT.ofTail (lo : Low) (tail : BitVec 64) : ExT := { toLow := lo, tail := tail }

/-- The bits of a tail kept whole. -/
def ExT.tailBits (o : ExT) : BitVec 64 := o.tail

/-- What a register field of a long or extended word holds: nothing (it must be 0), an x register or a small number,
a v register (v0 to v31, even under ty 100, R85), or a mask-quad number 1 to 7 (R146). -/
inductive Fld where
  | zero
  | reg
  | vec
  | quad
  deriving DecidableEq, Repr

/-- What g2 holds (R86): nothing, the rounding nibble, a mask code, or the rounding nibble under a float ty only. -/
inductive G2 where
  | zero
  | round
  | mask
  | floatRound
  deriving DecidableEq, Repr

/-- Whether a short memory instruction takes a scope (R92, R170). -/
inductive ScopeRule where
  | zero
  | req
  | opt
  deriving DecidableEq, Repr

/-- The field rules of one instruction. -/
inductive Rule where
  /-- A short word: the register fields used, the immediate bits used, and any further limit. -/
  | short (o : Sh) (rd rs1 rs2 : Bool) (mask : BitVec 32) (limit : Bool)
  /-- A short memory word: the register fields used, the highest cache code, the scope rule, whether a stream and an
  offset are accepted, and whether the bits that layout M reserves are 0. -/
  | shortMem (o : ShM) (rd rs1 rs2 : Bool) (ch : Nat) (scp : ScopeRule) (str off top : Bool)
  /-- A long or extended word: whether its code is listed, the five register fields, the guard, g2, the element types,
  the highest cache code, and any further limit. -/
  | long (o : Low) (code : Bool) (d a b c e : Fld) (guard : Bool) (g2 : G2) (tys : List Nat) (ch : Nat) (limit : Bool)
  deriving DecidableEq, Repr

/-- Bit position of `ext`, `extz`, `ins` (R118). -/
def Sh.pos (o : Sh) : BitVec 6 := o.imm.extractLsb' 0 6

/-- Width less one of `ext`, `extz`, `ins` (R118). -/
def Sh.wm1 (o : Sh) : BitVec 6 := o.imm.extractLsb' 6 6

/-- Stream mask of `sfence` (R200). -/
def Sh.streams (o : Sh) : BitVec 16 := o.imm.extractLsb' 0 16

/-- Scope of `sfence` and `mark` (R200, R201). -/
def Sh.scope24 (o : Sh) : BitVec 3 := o.imm.extractLsb' 24 3

/-- R126: formats 4 and 6 to 9 have neither a scale plane nor Δ, format 5 has no Δ. -/
def fmtFieldsOK (f : BitVec 4) (o : Sh) : Bool :=
  decide (1 ≤ f.toNat ∧ f.toNat ≤ 9) &&
    (if f.toNat ≤ 3 then true else if f == 5 then o.imm == 0 else o.imm == 0 && o.rs1 == 0)

/-- The twelve tokens of an expression, t0 first (R89). -/
def tokenList (tok : BitVec 48) : List Nat :=
  (List.range 12).map fun j => (tok.extractLsb' (4 * j) 4).toNat

/-- How many values a token pops (R90). -/
def tokenPops (t : Nat) : Nat :=
  if t ≤ 5 then 0 else if t == 9 then 3 else if t ≤ 11 then 2 else 1

/-- R91 read from a token onward: `depth` values on the stack, `ops` operators so far. -/
def tokensFrom : List Nat → Nat → Nat → Bool
  | [], depth, ops => depth == 1 && decide (ops ≤ 7)
  | t :: ts, depth, ops =>
    if t == 0 then ts.all (· == 0) && depth == 1 && decide (ops ≤ 7)
    else
      decide (tokenPops t ≤ depth) && decide (depth - tokenPops t + 1 ≤ 4) &&
        tokensFrom ts (depth - tokenPops t + 1) (if t ≥ 6 then ops + 1 else ops)

/-- A well-formed token sequence (R91). -/
def tokensOK (tok : BitVec 48) : Bool :=
  (tokenList tok).head? != some 0 && tokensFrom (tokenList tok) 0 0

/-- R160: an input register that no token names is 0, and so is KBF without token 5. -/
def exprFieldsOK (o : ExE) : Bool :=
  let ts := tokenList o.tok
  (ts.contains 1 || o.a == 0) && (ts.contains 2 || o.b == 0) && (ts.contains 3 || o.c == 0) &&
    (ts.contains 4 || o.e == 0) && (ts.contains 5 || o.kbf == 0)

/-- The tail fields of the matrix class. -/
inductive MField where
  | acc
  | slot
  | mm1
  | nm1
  | kg
  | fmta
  | aoff
  deriving DecidableEq, Repr

/-- Every matrix tail field but those listed is 0 (R218). -/
def ExM.only (o : ExM) (fs : List MField) : Bool :=
  (fs.contains .acc || o.acc == 0) && (fs.contains .slot || o.slot == 0) && (fs.contains .mm1 || o.mm1 == 0) &&
    (fs.contains .nm1 || o.nm1 == 0) && (fs.contains .kg || o.kg == 0) && (fs.contains .fmta || o.fmta == 0) &&
    (fs.contains .aoff || o.aoff == 0)

/-- FMTA 1 to 9 (R89, R218). -/
def ExM.fmtaOK (o : ExM) : Bool := decide (1 ≤ o.fmta.toNat ∧ o.fmta.toNat ≤ 9)

/-- Limits of `mma` and `mfol`: M, N ≤ 128 and K ≤ 4,096 (R218). -/
def ExM.mmaOK (o : ExM) : Bool := decide (o.mm1.toNat < 128 ∧ o.nm1.toNat < 128 ∧ o.kg.toNat < 128)

/-- Limits of `mseq`: under ty 000, M and N ≤ 128 (R218, R228). -/
def ExM.mseqOK (o : ExM) : Bool := o.ty != 0 || decide (o.mm1.toNat < 128 ∧ o.nm1.toNat < 128)


/-- Whether a field's value is one its rule allows (R85, R146) (DEDUCED, log entry 55). -/
def Fld.ok (k : Fld) (ty : BitVec 3) (v : BitVec 6) : Bool :=
  match k with
  | .zero => v == 0
  | .reg => true
  | .vec => decide (v.toNat < 32) && (ty != 4 || v.toNat % 2 == 0)
  | .quad => decide (1 ≤ v.toNat ∧ v.toNat ≤ 7)

/-- Whether g2 holds a value its rule allows (R86). -/
def G2.ok (k : G2) (ty : BitVec 3) (g2 : BitVec 4) : Bool :=
  match k with
  | .zero => g2 == 0
  | .round => decide (g2.toNat < 8)
  | .mask => true
  | .floatRound => if decide (1 ≤ ty.toNat ∧ ty.toNat ≤ 4) then decide (g2.toNat < 8) else g2 == 0

/-- Step 4 of R94 but for the code itself: guard code 8, an element type the row does not accept, a mask code 8, or an
ill-formed token sequence. -/
def Rule.legal : Rule → Bool
  | .short .. => true
  | .shortMem .. => true
  | .long o code _ _ _ _ _ _ g2 tys _ _ =>
    code && o.g1 != 8 && tys.contains o.ty.toNat && (g2 != .mask || o.g2 != 8)

/-- Step 5 of R94: reserved fields are 0 and field values lie within the instruction's limits. -/
def Rule.fieldsOK : Rule → Bool
  | .short o rd rs1 rs2 mask limit =>
    (rd || o.rd == 0) && (rs1 || o.rs1 == 0) && (rs2 || o.rs2 == 0) && (o.imm &&& ~~~mask) == 0 && limit
  | .shortMem o rd rs1 rs2 ch scp str off top =>
    top && (rd || o.rd == 0) && (rs1 || o.rs1 == 0) && (rs2 || o.rs2 == 0) && decide (o.ch.toNat ≤ ch) &&
      (match scp with
        | .zero => o.scp == 0
        | .req => decide (1 ≤ o.scp.toNat ∧ o.scp.toNat ≤ 5)
        | .opt => decide (o.scp.toNat ≤ 5)) &&
      (str || o.str == 0) && (off || o.off == 0)
  | .long o _ d a b c e guard g2 _ ch limit =>
    d.ok o.ty o.d && a.ok o.ty o.a && b.ok o.ty o.b && c.ok o.ty o.c && e.ok o.ty o.e && (guard || o.g1 == 0) &&
      g2.ok o.ty o.g2 && decide (o.ch.toNat ≤ ch) && limit

/-- Field rules of the short-form map (R95, R113, R122, R124 to R126, R170). -/
def ruleShort (opc fn : Nat) (o : Sh) : Option Rule :=
  match opc with
  | 0x01 =>
    match fn with
    | 0 => some (.short o false false false 0 true)
    | 1 => some (.short o false false false 0 true)
    | 2 => some (.short o false false false 0xFFFFFFFF true)
    | 3 => some (.short o false false false 0 true)
    | 4 => some (.short o false false false 0 true)
    | 10 => some (.short o false false false 0 true)
    | 5 => some (.short o true false false 0xFF true)
    | 6 => some (.short o false true false 0xFF true)
    | 7 => some (.short o true false false 0xFF true)
    | 8 => some (.short o false true false 0 true)
    | 9 => some (.short o true true false 0 true)
    | _ => none
  | 0x02 =>
    match fn with
    | 0 => some (.short o true true false 0xFFFFFFFF true)
    | 1 => some (.short o true true false 0xFFFFFFFF true)
    | _ => none
  | 0x03 =>
    match fn with
    | 0 => some (.short o true true false 0 true)
    | 1 => some (.short o true false false 0 true)
    | _ => none
  | 0x04 => if 1 ≤ fn ∧ fn ≤ 9 then some (.short o false true false 0xF (fmtFieldsOK (BitVec.ofNat 4 fn) o)) else none
  | 0x08 =>
    match fn with
    | 0 => some (.short o true true true 0 true)
    | 1 => some (.short o true true true 0 true)
    | 2 => some (.short o true true true 0 true)
    | 3 => some (.short o true true true 0 true)
    | 4 => some (.short o true true true 0 true)
    | 5 => some (.short o true true true 0 true)
    | 6 => some (.short o true true true 0 true)
    | 7 => some (.short o true true true 0 true)
    | 8 => some (.short o true true true 0 true)
    | 9 => some (.short o true true true 0 true)
    | 10 => some (.short o true true true 0 true)
    | 11 => some (.short o true true true 0 true)
    | 12 => some (.short o true true true 0 true)
    | 13 => some (.short o true true true 0 true)
    | 14 => some (.short o true true true 0 true)
    | 15 => some (.short o true true true 0 true)
    | _ => none
  | 0x09 =>
    match fn with
    | 0 => some (.short o true true false 0xFFFFFFFF true)
    | 1 => some (.short o true true false 0xFFFFFFFF true)
    | 2 => some (.short o true true false 0xFFFFFFFF true)
    | 3 => some (.short o true true false 0xFFFFFFFF true)
    | 4 => some (.short o true true false 0xFFFFFFFF true)
    | 5 => some (.short o true true false 0x3F true)
    | 6 => some (.short o true true false 0x3F true)
    | 7 => some (.short o true true false 0x3F true)
    | 8 => some (.short o true true false 0xFFFFFFFF true)
    | 9 => some (.short o true true false 0xFFFFFFFF true)
    | 10 => some (.short o true true false 0xFFFFFFFF true)
    | 11 => some (.short o true true false 0xFFFFFFFF true)
    | 12 => some (.short o true true false 0xFFFFFFFF true)
    | 13 => some (.short o true true false 0xFFFFFFFF true)
    | 14 => some (.short o true true false 0xFFFFFFFF true)
    | 15 => some (.short o true true false 0xFFFFFFFF true)
    | _ => none
  | 0x0a =>
    match fn with
    | 0 => some (.short o true true true 0 true)
    | 1 => some (.short o true true true 0 true)
    | 2 => some (.short o true true true 0 true)
    | 3 => some (.short o true true true 0 true)
    | 4 => some (.short o true true true 0 true)
    | 5 => some (.short o true true true 0 true)
    | 6 => some (.short o true true true 0 true)
    | 7 => some (.short o true true true 0 true)
    | 8 => some (.short o true true true 0 true)
    | 9 => some (.short o true true true 0 true)
    | 10 => some (.short o true true true 0 true)
    | 11 => some (.short o true true true 0 true)
    | 12 => some (.short o true true true 0 true)
    | 13 => some (.short o true true true 0 true)
    | _ => none
  | 0x0b =>
    match fn with
    | 0 => some (.short o true true false 0xFFFFFFFF true)
    | 1 => some (.short o true true false 0xFFFFFFFF true)
    | 2 => some (.short o true true false 0xFFFFFFFF true)
    | 3 => some (.short o true true false 0xFFFFFFFF true)
    | 4 => some (.short o true true false 0xFFFFFFFF true)
    | 5 => some (.short o true true false 0xFFFFFFFF true)
    | 6 => some (.short o true true false 0xFFFFFFFF true)
    | 7 => some (.short o true true false 0xFFFFFFFF true)
    | 8 => some (.short o true true false 0xFFFFFFFF true)
    | 9 => some (.short o true true false 0xFFFFFFFF true)
    | 10 => some (.short o true true false 0xFFFFFFFF true)
    | 11 => some (.short o true true false 0xFFFFFFFF true)
    | 12 => some (.short o true true false 0x3F true)
    | 13 => some (.short o true true false 0x3F true)
    | _ => none
  | 0x0c =>
    match fn with
    | 0 => some (.short o true true false 0 true)
    | 1 => some (.short o true true false 0 true)
    | 2 => some (.short o true true false 0 true)
    | 3 => some (.short o true true false 0 true)
    | 4 => some (.short o true true false 0 true)
    | 5 => some (.short o true true false 0 true)
    | 6 => some (.short o true true false 0 true)
    | 7 => some (.short o true true false 0 true)
    | 8 => some (.short o true true false 0 true)
    | 9 => some (.short o true true false 0 true)
    | 10 => some (.short o true true false 0 true)
    | _ => none
  | 0x0d =>
    match fn with
    | 0 => some (.short o true true false 0xFFF (decide (o.pos.toNat + o.wm1.toNat < 64)))
    | 1 => some (.short o true true false 0xFFF (decide (o.pos.toNat + o.wm1.toNat < 64)))
    | 2 => some (.short o true true false 0xFFF (decide (o.pos.toNat + o.wm1.toNat < 64)))
    | _ => none
  | 0x0e =>
    match fn with
    | 0 => some (.short o true false false 0xFFFFFFFF true)
    | 1 => some (.short o true false false 0xFFFFFFFF true)
    | _ => none
  | 0x10 =>
    match fn with
    | 0 => some (.short o false true true 0xFFFFFFFF true)
    | 1 => some (.short o false true true 0xFFFFFFFF true)
    | 2 => some (.short o false true true 0xFFFFFFFF true)
    | 3 => some (.short o false true true 0xFFFFFFFF true)
    | 4 => some (.short o false true true 0xFFFFFFFF true)
    | 5 => some (.short o false true true 0xFFFFFFFF true)
    | _ => none
  | 0x11 =>
    match fn with
    | 0 => some (.short o false false false 0xFFFFFFFF true)
    | 1 => some (.short o true false false 0xFFFFFFFF true)
    | 2 => some (.short o false true false 0xFFFFFFFF true)
    | 3 => some (.short o true true false 0xFFFFFFFF true)
    | _ => none
  | 0x18 => if fn < 7 then some (.shortMem (.ofSh o) true true false 5 .zero false true (o.imm.extractLsb' 30 2 == 0)) else none
  | 0x19 => if fn < 4 then some (.shortMem (.ofSh o) false true true 4 .zero true true (o.imm.extractLsb' 30 2 == 0)) else none
  | 0x1a => if fn < 7 then some (.shortMem (.ofSh o) true true false 0 .zero false true (o.imm.extractLsb' 30 2 == 0)) else none
  | 0x1b => if fn < 16 then some (.shortMem (.ofSh o) true true false 0 .zero false true (o.imm.extractLsb' 30 2 == 0)) else none
  | 0x1c => if fn < 7 then some (.shortMem (.ofSh o) true true false 5 .req false true (o.imm.extractLsb' 30 2 == 0)) else none
  | 0x1d => if fn < 4 then some (.shortMem (.ofSh o) false true true 4 .req true true (o.imm.extractLsb' 30 2 == 0)) else none
  | 0x1e =>
    match fn with
    | 0 => some (.shortMem (.ofSh o) false false false 0 .req false false (o.imm.extractLsb' 30 2 == 0))
    | _ => none
  | 0x1f => if fn < 4 then some (.shortMem (.ofSh o) false true true 4 .zero true true (o.imm.extractLsb' 30 2 == 0)) else none
  | 0x20 =>
    match fn with
    | 0 => some (.shortMem (.ofSh o) true true true 4 .opt false true (o.imm.extractLsb' 30 2 == 0))
    | 1 => some (.shortMem (.ofSh o) true true true 4 .opt false true (o.imm.extractLsb' 30 2 == 0))
    | 2 => some (.shortMem (.ofSh o) true true true 4 .opt false true (o.imm.extractLsb' 30 2 == 0))
    | 3 => some (.shortMem (.ofSh o) true true true 4 .opt false true (o.imm.extractLsb' 30 2 == 0))
    | 4 => some (.shortMem (.ofSh o) true true true 4 .opt false true (o.imm.extractLsb' 30 2 == 0))
    | 5 => some (.shortMem (.ofSh o) true true true 4 .opt false true (o.imm.extractLsb' 30 2 == 0))
    | 6 => some (.shortMem (.ofSh o) true true true 4 .opt false true (o.imm.extractLsb' 30 2 == 0))
    | 7 => some (.shortMem (.ofSh o) true true true 4 .opt false true (o.imm.extractLsb' 30 2 == 0))
    | 8 => some (.shortMem (.ofSh o) true true true 4 .opt false true (o.imm.extractLsb' 30 2 == 0))
    | 10 => some (.shortMem (.ofSh o) true true true 4 .opt false true (o.imm.extractLsb' 30 2 == 0))
    | _ => none
  | 0x21 =>
    match fn with
    | 0 => some (.shortMem (.ofSh o) true true true 4 .opt false true (o.imm.extractLsb' 30 2 == 0))
    | 1 => some (.shortMem (.ofSh o) true true true 4 .opt false true (o.imm.extractLsb' 30 2 == 0))
    | 2 => some (.shortMem (.ofSh o) true true true 4 .opt false true (o.imm.extractLsb' 30 2 == 0))
    | 3 => some (.shortMem (.ofSh o) true true true 4 .opt false true (o.imm.extractLsb' 30 2 == 0))
    | 4 => some (.shortMem (.ofSh o) true true true 4 .opt false true (o.imm.extractLsb' 30 2 == 0))
    | 5 => some (.shortMem (.ofSh o) true true true 4 .opt false true (o.imm.extractLsb' 30 2 == 0))
    | 6 => some (.shortMem (.ofSh o) true true true 4 .opt false true (o.imm.extractLsb' 30 2 == 0))
    | 7 => some (.shortMem (.ofSh o) true true true 4 .opt false true (o.imm.extractLsb' 30 2 == 0))
    | 8 => some (.shortMem (.ofSh o) true true true 4 .opt false true (o.imm.extractLsb' 30 2 == 0))
    | 9 => some (.shortMem (.ofSh o) true true true 4 .opt false true (o.imm.extractLsb' 30 2 == 0))
    | _ => none
  | 0x22 =>
    match fn with
    | 0 => some (.shortMem (.ofSh o) true true true 4 .opt false true (o.imm.extractLsb' 30 2 == 0))
    | 1 => some (.shortMem (.ofSh o) true true true 4 .opt false true (o.imm.extractLsb' 30 2 == 0))
    | _ => none
  | 0x23 =>
    match fn with
    | 0 => some (.shortMem (.ofSh o) true true true 4 .opt false true (o.imm.extractLsb' 30 2 == 0))
    | 1 => some (.shortMem (.ofSh o) true true true 4 .opt false true (o.imm.extractLsb' 30 2 == 0))
    | 2 => some (.shortMem (.ofSh o) true true true 4 .opt false true (o.imm.extractLsb' 30 2 == 0))
    | 3 => some (.shortMem (.ofSh o) true true true 4 .opt false true (o.imm.extractLsb' 30 2 == 0))
    | 4 => some (.shortMem (.ofSh o) true true true 4 .opt false true (o.imm.extractLsb' 30 2 == 0))
    | 5 => some (.shortMem (.ofSh o) true true true 4 .opt false true (o.imm.extractLsb' 30 2 == 0))
    | 6 => some (.shortMem (.ofSh o) true true true 4 .opt false true (o.imm.extractLsb' 30 2 == 0))
    | 7 => some (.shortMem (.ofSh o) true true true 4 .opt false true (o.imm.extractLsb' 30 2 == 0))
    | 8 => some (.shortMem (.ofSh o) true true true 4 .opt false true (o.imm.extractLsb' 30 2 == 0))
    | _ => none
  | 0x24 =>
    match fn with
    | 0 => some (.shortMem (.ofSh o) false true true 0 .opt false true (o.imm.extractLsb' 30 2 == 0))
    | 1 => some (.shortMem (.ofSh o) false true true 0 .opt false true (o.imm.extractLsb' 30 2 == 0))
    | _ => none
  | 0x25 =>
    match fn with
    | 0 => some (.short o false false false 0xFF true)
    | 1 => some (.short o false false false 0xFF true)
    | 2 => some (.short o false false false 0xFF true)
    | 3 => some (.short o false false false 0xFF true)
    | _ => none
  | 0x26 =>
    match fn with
    | 0 => some (.short o true false false 0x3F true)
    | 1 => some (.short o false false false 0x3F true)
    | _ => none
  | 0x27 =>
    match fn with
    | 0 => some (.short o false true true 0xFFF (decide (o.imm.toNat / 256 ≤ 10)))
    | 1 => some (.short o true false false 0 true)
    | _ => none
  | 0x28 =>
    match fn with
    | 0 => some (.short o true true false 0xFF true)
    | 1 => some (.short o true false false 0xFF true)
    | 2 => some (.short o true false false 0xFF true)
    | _ => none
  | 0x29 =>
    match fn with
    | 0 => some (.shortMem (.ofSh o) false true false 4 .opt false true (o.imm.extractLsb' 30 2 == 0))
    | 1 => some (.shortMem (.ofSh o) false true false 4 .opt false true (o.imm.extractLsb' 30 2 == 0))
    | 2 => some (.shortMem (.ofSh o) false true false 4 .zero false true (o.imm.extractLsb' 30 2 == 0))
    | _ => none
  | 0x2a =>
    match fn with
    | 0 => some (.short o true false false 0x0700FFFF (o.streams != 0 && (o.scope24 == 4 || o.scope24 == 5)))
    | 1 => some (.short o false true false 0x07000000 (o.scope24 == 4 || o.scope24 == 5))
    | _ => none
  | 0x2b =>
    match fn with
    | 0 => some (.short o true true true 7 true)
    | 1 => some (.short o true true true 7 true)
    | 2 => some (.short o true true true 7 true)
    | 3 => some (.short o true true true 7 true)
    | 4 => some (.short o true true false 7 true)
    | 5 => some (.short o true true true 4 true)
    | 6 => some (.short o true true true 4 true)
    | 7 => some (.short o true true true 4 true)
    | 8 => some (.short o true true true 4 true)
    | 9 => some (.short o true true true 4 true)
    | 10 => some (.short o true true false 0 true)
    | 11 => some (.short o true true false 0 true)
    | _ => none
  | 0x2c =>
    match fn with
    | 0 => some (.short o true true true 7 true)
    | 1 => some (.short o true true true 7 true)
    | 2 => some (.short o true true true 7 true)
    | 3 => some (.short o true true true 7 true)
    | 4 => some (.short o true true false 7 true)
    | 5 => some (.short o true true true 4 true)
    | 6 => some (.short o true true true 4 true)
    | 7 => some (.short o true true true 4 true)
    | 8 => some (.short o true true true 4 true)
    | 9 => some (.short o true true true 4 true)
    | 10 => some (.short o true true false 0 true)
    | 11 => some (.short o true true false 0 true)
    | _ => none
  | 0x2d =>
    match fn with
    | 0 => some (.short o true true false 7 true)
    | 1 => some (.short o true true false 7 true)
    | 2 => some (.short o true true false 7 true)
    | 3 => some (.short o true true false 7 true)
    | 4 => some (.short o true true false 7 true)
    | 5 => some (.short o true true false 7 true)
    | 6 => some (.short o true true false 7 true)
    | 7 => some (.short o true true false 7 true)
    | 8 => some (.short o true true false 7 true)
    | 9 => some (.short o true true false 7 true)
    | _ => none
  | _ => none

/-- Field rules of the long-form map (R96, R113, R120, R146, R181, R186, R202). -/
def ruleLong (opc fn : Nat) (o : Lg) : Option Rule :=
  match opc with
  | 0x01 =>
    match fn with
    | 0 => some (.long o.toLow true .zero .zero .zero .zero .zero false .zero [0] 0 (o.imm == 0 && o.yld == 0 && o.dly == 0))
    | _ => none
  | 0x02 => if fn < 16 then some (.long o.toLow true .reg .reg .reg .zero .zero true .zero [0] 0 (o.imm == 0)) else none
  | 0x03 => if fn < 16 then some (.long o.toLow true .reg .reg .zero .zero .zero true .zero [0] 0 (!(decide (5 ≤ fn ∧ fn ≤ 7)) || decide (o.imm.toNat < 64))) else none
  | 0x04 => if fn < 14 then some (.long o.toLow true .reg .reg .reg .zero .zero true .zero [0] 0 (o.imm == 0)) else none
  | 0x05 => if fn < 14 then some (.long o.toLow true .reg .reg .zero .zero .zero true .zero [0] 0 (!(decide (12 ≤ fn ∧ fn ≤ 13)) || decide (o.imm.toNat < 64))) else none
  | 0x06 => if fn < 7 then some (.long o.toLow true .reg .reg .zero .zero .zero true .zero [0] 5 (o.imm.extractLsb' 24 8 == 0 && o.imm.extractLsb' 20 4 == 0)) else none
  | 0x07 => if fn < 4 then some (.long o.toLow true .zero .reg .reg .zero .zero true .zero [0] 4 (o.imm.extractLsb' 24 8 == 0)) else none
  | 0x08 =>
    match fn with
    | 0 => some (.long o.toLow true .reg .reg .reg .reg .zero true .round [1, 4] 0 (o.imm == 0))
    | 1 => some (.long o.toLow true .reg .reg .reg .zero .reg true .zero [0] 0 (o.imm == 0 && (o.d != o.e || o.d == 0)))
    | 2 => some (.long o.toLow true .reg .reg .reg .zero .reg true .zero [0] 0 (o.imm == 0 && (o.d != o.e || o.d == 0)))
    | 3 => some (.long o.toLow true .reg .reg .reg .zero .zero true .mask [0] 0 (o.imm == 0))
    | _ => none
  | 0x10 =>
    match fn with
    | 0 => some (.long o.toLow true .vec .vec .vec .zero .zero true .zero [0, 5, 6] 0 (o.imm == 0))
    | 1 => some (.long o.toLow true .vec .vec .vec .zero .zero true .zero [0, 5, 6] 0 (o.imm == 0))
    | 2 => some (.long o.toLow true .vec .vec .vec .zero .zero true .zero [0, 5, 6] 0 (o.imm == 0))
    | 3 => some (.long o.toLow true .vec .vec .vec .zero .zero true .zero [0, 5, 6] 0 (o.imm == 0))
    | 4 => some (.long o.toLow true .vec .vec .vec .zero .zero true .zero [0, 5, 6] 0 (o.imm == 0))
    | 5 => some (.long o.toLow true .vec .vec .vec .zero .zero true .zero [0, 5, 6] 0 (o.imm == 0))
    | 6 => some (.long o.toLow true .vec .vec .vec .zero .zero true .zero [0, 5, 6] 0 (o.imm == 0))
    | 7 => some (.long o.toLow true .vec .vec .vec .zero .zero true .zero [0, 5, 6] 0 (o.imm == 0))
    | 8 => some (.long o.toLow true .vec .vec .vec .zero .zero true .zero [0, 5, 6] 0 (o.imm == 0))
    | 9 => some (.long o.toLow true .vec .vec .vec .zero .zero true .zero [0, 5, 6] 0 (o.imm == 0))
    | 10 => some (.long o.toLow true .vec .vec .vec .zero .zero true .zero [0, 5, 6] 0 (o.imm == 0))
    | 11 => some (.long o.toLow true .vec .vec .vec .zero .zero true .zero [0, 5, 6] 0 (o.imm == 0))
    | 12 => some (.long o.toLow true .vec .vec .vec .zero .zero true .zero [0, 5, 6] 0 (o.imm == 0))
    | 13 => some (.long o.toLow true .vec .vec .vec .zero .zero true .zero [0, 5, 6] 0 (o.imm == 0))
    | 14 => some (.long o.toLow true .vec .vec .vec .zero .zero true .zero [0, 5, 6] 0 (o.imm == 0))
    | 15 => some (.long o.toLow true .vec .vec .zero .zero .zero true .zero [0, 5, 6] 0 (o.imm == 0))
    | 16 => some (.long o.toLow true .vec .vec .zero .zero .zero true .zero [0, 5, 6] 0 (o.imm == 0))
    | 17 => some (.long o.toLow true .vec .vec .vec .zero .zero true .zero [0, 5, 6] 0 (o.imm == 0))
    | 18 => some (.long o.toLow true .vec .vec .vec .zero .zero true .zero [0, 5, 6] 0 (o.imm == 0))
    | 19 => some (.long o.toLow true .vec .vec .vec .zero .zero true .zero [0, 5, 6] 0 (o.imm == 0))
    | 20 => some (.long o.toLow true .vec .vec .vec .zero .zero true .zero [0, 5, 6] 0 (o.imm == 0))
    | 21 => some (.long o.toLow true .vec .vec .zero .zero .zero true .zero [0, 5, 6] 0 (o.imm == 0))
    | 22 => some (.long o.toLow true .vec .vec .zero .zero .zero true .zero [0, 5, 6] 0 (o.imm == 0))
    | _ => none
  | 0x11 =>
    match fn with
    | 0 => some (.long o.toLow true .vec .vec .vec .zero .zero true .round [1, 2, 3, 4] 0 (o.imm == 0))
    | 1 => some (.long o.toLow true .vec .vec .vec .zero .zero true .round [1, 2, 3, 4] 0 (o.imm == 0))
    | 2 => some (.long o.toLow true .vec .vec .vec .zero .zero true .round [1, 2, 3, 4] 0 (o.imm == 0))
    | 3 => some (.long o.toLow true .vec .vec .vec .zero .zero true .round [1, 2, 3, 4] 0 (o.imm == 0))
    | 4 => some (.long o.toLow true .vec .vec .zero .zero .zero true .round [1, 2, 3, 4] 0 (o.imm == 0))
    | 5 => some (.long o.toLow true .vec .vec .vec .zero .zero true .zero [1, 2, 3, 4] 0 (o.imm == 0))
    | 6 => some (.long o.toLow true .vec .vec .vec .zero .zero true .zero [1, 2, 3, 4] 0 (o.imm == 0))
    | 7 => some (.long o.toLow true .vec .vec .zero .zero .zero true .zero [1, 2, 3, 4] 0 (o.imm == 0))
    | 8 => some (.long o.toLow true .vec .vec .zero .zero .zero true .zero [1, 2, 3, 4] 0 (o.imm == 0))
    | 9 => some (.long o.toLow true .vec .vec .vec .vec .zero true .round [1, 2, 3, 4] 0 (o.imm == 0))
    | 10 => some (.long o.toLow true .vec .vec .vec .vec .zero true .round [1, 2, 3, 4] 0 (o.imm == 0))
    | 11 => some (.long o.toLow true .vec .vec .vec .vec .zero true .round [1, 2, 3, 4] 0 (o.imm == 0))
    | 12 => some (.long o.toLow true .vec .vec .zero .zero .zero true .round [1, 2, 3] 0 (o.imm == 0))
    | 13 => some (.long o.toLow true .vec .vec .zero .zero .zero true .round [1, 2, 3] 0 (o.imm == 0))
    | 14 => some (.long o.toLow true .vec .vec .zero .zero .zero true .round [1, 2, 3] 0 (o.imm == 0))
    | 15 => some (.long o.toLow true .vec .vec .zero .zero .zero true .round [1, 2, 3] 0 (o.imm == 0))
    | 16 => some (.long o.toLow true .vec .vec .vec .zero .zero true .zero [1, 2, 3, 4] 0 (o.imm == 0))
    | _ => none
  | 0x12 =>
    match fn with
    | 0 => some (.long o.toLow true .quad .vec .vec .zero .zero true .zero [0, 5, 6, 1, 2, 3, 4] 0 (o.imm == 0))
    | 1 => some (.long o.toLow true .quad .vec .vec .zero .zero true .zero [0, 5, 6, 1, 2, 3, 4] 0 (o.imm == 0))
    | 2 => some (.long o.toLow true .quad .vec .vec .zero .zero true .zero [0, 5, 6, 1, 2, 3, 4] 0 (o.imm == 0))
    | 3 => some (.long o.toLow true .quad .vec .vec .zero .zero true .zero [0, 5, 6, 1, 2, 3, 4] 0 (o.imm == 0))
    | 4 => some (.long o.toLow true .quad .vec .vec .zero .zero true .zero [0, 5, 6, 1, 2, 3, 4] 0 (o.imm == 0))
    | 5 => some (.long o.toLow true .quad .vec .vec .zero .zero true .zero [0, 5, 6, 1, 2, 3, 4] 0 (o.imm == 0))
    | 6 => some (.long o.toLow true .quad .vec .vec .zero .zero true .zero [0, 5, 6] 0 (o.imm == 0))
    | 7 => some (.long o.toLow true .quad .vec .vec .zero .zero true .zero [0, 5, 6] 0 (o.imm == 0))
    | 8 => some (.long o.toLow true .quad .vec .vec .zero .zero true .zero [0, 5, 6] 0 (o.imm == 0))
    | 9 => some (.long o.toLow true .quad .vec .vec .zero .zero true .zero [0, 5, 6] 0 (o.imm == 0))
    | _ => none
  | 0x13 =>
    match fn with
    | 0 => some (.long o.toLow true .vec .vec .vec .zero .zero true .mask [0] 0 (o.imm == 0))
    | 1 => some (.long o.toLow true .quad .reg .zero .zero .zero false .zero [0] 0 (o.imm == 0))
    | 6 => some (.long o.toLow true .reg .quad .zero .zero .zero false .zero [0] 0 (o.imm == 0))
    | 2 => some (.long o.toLow true .vec .reg .zero .zero .zero true .zero [0, 1, 4] 0 (o.a == 0 || o.imm == 0))
    | 3 => some (.long o.toLow true .vec .vec .zero .zero .zero true .zero [0, 1, 4] 0 (o.imm == 0))
    | 4 => some (.long o.toLow true .reg .vec .reg .zero .zero true .zero [0, 1, 4] 0 (o.imm == 0))
    | 5 => some (.long o.toLow true .vec .reg .reg .zero .zero true .zero [0, 1, 4] 0 (o.imm == 0))
    | _ => none
  | 0x14 =>
    match fn with
    | 0 => some (.long o.toLow true .vec .vec .vec .zero .zero true .zero [0] 0 (o.imm == 0))
    | 1 => some (.long o.toLow true .vec .vec .reg .zero .zero true .zero [0] 0 (o.imm == 0))
    | 2 => some (.long o.toLow true .vec .vec .quad .zero .zero true .zero [0] 0 (o.imm == 0))
    | 3 => some (.long o.toLow true .vec .vec .quad .zero .zero true .zero [0] 0 (o.imm == 0))
    | _ => none
  | 0x15 =>
    match fn with
    | 0 => some (.long o.toLow true .vec .vec .reg .zero .zero true .round [0] 0 (o.imm == 0 && decide (o.b.toNat < 1)))
    | 1 => some (.long o.toLow true .vec .vec .reg .zero .zero true .round [0] 0 (o.imm == 0 && decide (o.b.toNat < 1)))
    | 2 => some (.long o.toLow true .vec .vec .reg .zero .zero true .round [0] 0 (o.imm == 0 && decide (o.b.toNat < 1)))
    | 3 => some (.long o.toLow true .vec .vec .reg .zero .zero true .round [0] 0 (o.imm == 0 && decide (o.b.toNat < 1)))
    | 4 => some (.long o.toLow true .vec .vec .reg .zero .zero true .round [0] 0 (o.imm == 0 && decide (o.b.toNat < 2)))
    | 5 => some (.long o.toLow true .vec .vec .reg .zero .zero true .round [0] 0 (o.imm == 0 && decide (o.b.toNat < 2)))
    | 6 => some (.long o.toLow true .vec .vec .reg .zero .zero true .round [0] 0 (o.imm == 0 && decide (o.b.toNat < 2)))
    | 7 => some (.long o.toLow true .vec .vec .reg .zero .zero true .round [0] 0 (o.imm == 0 && decide (o.b.toNat < 2)))
    | 8 => some (.long o.toLow true .vec .vec .reg .zero .zero true .round [0] 0 (o.imm == 0 && decide (o.b.toNat < 4)))
    | 9 => some (.long o.toLow true .vec .vec .reg .zero .zero true .round [0] 0 (o.imm == 0 && decide (o.b.toNat < 4)))
    | 10 => some (.long o.toLow true .vec .vec .reg .zero .zero true .round [0] 0 (o.imm == 0 && decide (o.b.toNat < 1) && o.d.toNat % 2 == 0))
    | 11 => some (.long o.toLow true .vec .vec .reg .zero .zero true .round [0] 0 (o.imm == 0 && decide (o.b.toNat < 1) && o.a.toNat % 2 == 0))
    | 12 => some (.long o.toLow true .vec .vec .reg .zero .zero true .round [0] 0 (o.imm == 0 && decide (o.b.toNat < 1) && o.d.toNat % 2 == 0))
    | 13 => some (.long o.toLow true .vec .vec .reg .zero .zero true .round [0] 0 (o.imm == 0 && decide (o.b.toNat < 1) && o.a.toNat % 2 == 0))
    | 14 => some (.long o.toLow true .vec .vec .reg .zero .zero true .round [0] 0 (o.imm == 0 && decide (o.b.toNat < 1)))
    | 15 => some (.long o.toLow true .vec .vec .reg .zero .zero true .round [0] 0 (o.imm == 0 && decide (o.b.toNat < 1)))
    | _ => none
  | 0x16 =>
    match fn with
    | 0 => some (.long o.toLow true .reg .vec .zero .zero .zero true .floatRound [0, 5, 6, 1, 2, 3, 4] 0 (o.imm == 0))
    | 1 => some (.long o.toLow true .reg .vec .zero .zero .zero true .zero [0, 5, 6, 1, 2, 3, 4] 0 (o.imm == 0))
    | 2 => some (.long o.toLow true .reg .vec .zero .zero .zero true .zero [0, 5, 6, 1, 2, 3, 4] 0 (o.imm == 0))
    | 3 => some (.long o.toLow true .reg .vec .zero .zero .zero true .zero [0, 5, 6] 0 (o.imm == 0))
    | 4 => some (.long o.toLow true .reg .vec .zero .zero .zero true .zero [0, 5, 6] 0 (o.imm == 0))
    | 5 => some (.long o.toLow true .reg .vec .zero .zero .zero true .zero [0, 5, 6] 0 (o.imm == 0))
    | 6 => some (.long o.toLow true .reg .vec .zero .zero .zero true .zero [0, 5, 6] 0 (o.imm == 0))
    | 7 => some (.long o.toLow true .reg .vec .zero .zero .zero true .zero [0, 5, 6] 0 (o.imm == 0))
    | 8 => some (.long o.toLow true .vec .vec .zero .zero .zero true .floatRound [0, 5, 6, 1, 2, 3, 4] 0 (o.imm == 0))
    | 9 => some (.long o.toLow true .vec .vec .zero .zero .zero true .zero [0, 5, 6, 1, 2, 3, 4] 0 (o.imm == 0))
    | 10 => some (.long o.toLow true .vec .vec .zero .zero .zero true .zero [0, 5, 6, 1, 2, 3, 4] 0 (o.imm == 0))
    | _ => none
  | 0x17 =>
    match fn with
    | 0 => some (.long o.toLow true .zero .reg .vec .zero .zero true .zero [0] 4 (o.imm.extractLsb' 24 8 == 0))
    | 1 => some (.long o.toLow true .vec .reg .zero .zero .zero true .zero [0] 5 (o.imm.extractLsb' 24 8 == 0 && o.imm.extractLsb' 20 4 == 0))
    | 2 => some (.long o.toLow true .zero .reg .vec .zero .zero true .round [0] 4 (o.imm.extractLsb' 24 8 == 0))
    | _ => none
  | 0x20 =>
    match fn with
    | 0 => some (.long o.toLow true .vec .reg .zero .zero .zero true .zero [0, 1, 2, 3, 4, 5, 6] 5 (o.imm.extractLsb' 24 8 == 0 && o.imm.extractLsb' 20 4 == 0))
    | 1 => some (.long o.toLow true .vec .reg .reg .zero .zero true .zero [0, 1, 2, 3, 4, 5, 6] 5 (o.imm.extractLsb' 24 8 == 0 && o.imm.extractLsb' 20 4 == 0))
    | 2 => some (.long o.toLow true .vec .reg .vec .zero .zero true .zero [0, 1, 2, 3, 4, 5, 6] 5 (o.imm.extractLsb' 24 8 == 0 && o.imm.extractLsb' 20 4 == 0))
    | 3 => some (.long o.toLow true .vec .reg .zero .zero .zero true .zero [1, 2, 3] 5 (o.imm.extractLsb' 24 8 == 0 && o.imm.extractLsb' 20 4 == 0))
    | 4 => some (.long o.toLow true .vec .reg .vec .zero .zero true .zero [0, 1, 2, 3, 4, 5, 6] 0 (o.imm.extractLsb' 24 8 == 0 && o.imm.extractLsb' 20 4 == 0))
    | _ => none
  | 0x21 =>
    match fn with
    | 0 => some (.long o.toLow true .zero .reg .zero .vec .zero true .zero [0, 1, 2, 3, 4, 5, 6] 4 (o.imm.extractLsb' 24 8 == 0))
    | 1 => some (.long o.toLow true .zero .reg .reg .vec .zero true .zero [0, 1, 2, 3, 4, 5, 6] 4 (o.imm.extractLsb' 24 8 == 0))
    | 2 => some (.long o.toLow true .zero .reg .vec .vec .zero true .zero [0, 1, 2, 3, 4, 5, 6] 4 (o.imm.extractLsb' 24 8 == 0))
    | 3 => some (.long o.toLow true .zero .reg .vec .vec .zero true .zero [0, 1, 2, 3, 4, 5, 6] 0 (o.imm.extractLsb' 24 8 == 0 && o.imm.extractLsb' 20 4 == 0))
    | _ => none
  | 0x24 =>
    match fn with
    | 0 => some (.long o.toLow true .zero .reg .reg .reg .zero false .zero [0] 5 (o.imm.extractLsb' 24 8 == 0 && o.imm.extractLsb' 20 4 == 0 && o.imm.extractLsb' 0 20 == 0))
    | 1 => some (.long o.toLow true .zero .reg .reg .reg .zero false .zero [0] 4 (o.imm.extractLsb' 24 8 == 0 && o.imm.extractLsb' 0 20 == 0))
    | 2 => some (.long o.toLow true .zero .reg .reg .reg .zero false .zero [0] 5 (o.imm.extractLsb' 24 8 == 0 && o.imm.extractLsb' 20 4 == 0 && o.imm.extractLsb' 0 20 == 0))
    | 3 => some (.long o.toLow true .zero .reg .reg .reg .zero false .zero [0] 4 (o.imm.extractLsb' 24 8 == 0 && o.imm.extractLsb' 0 20 == 0))
    | _ => none
  | 0x28 =>
    match fn with
    | 0 => some (.long o.toLow true .reg .reg .reg .reg .zero false .floatRound [0, 1, 4] 0 (o.imm.extractLsb' 24 8 == 0 && o.imm.extractLsb' 20 4 == 0))
    | _ => none
  | _ => none

/-- Field rules of the extended-form map (R97, R160, R218, R236, R248, R255). In a copy, VAL and e with CW = 0, BAR with
BE = 0 and FOL with FE = 0 may hold any value; `cpyt.cow` has no use for AST (R246) (DESIGN CHOICE, log entry 58). -/
def ruleExt (opc fn : Nat) (lo : Low) (tail : BitVec 64) : Option Rule :=
  match opc with
  | 0x01 =>
    match fn with
    | 0 => some (.long lo true .zero .zero .zero .zero .zero false .zero [0] 0 ((ExT.ofTail lo tail).tail == 0 && (ExT.ofTail lo tail).yld == 0 && (ExT.ofTail lo tail).dly == 0))
    | _ => none
  | 0x10 =>
    match fn with
    | 0 => some (.long lo (tokensOK (ExE.ofTail lo tail).tok) .vec .vec .vec .vec .vec true .round [1, 2, 3] 0 (exprFieldsOK (ExE.ofTail lo tail)))
    | _ => none
  | 0x20 =>
    match fn with
    | 0 => some (.long lo true .reg .zero .zero .zero .zero false .zero [0] 0 (decide ((ExT.ofTail lo tail).tail.toNat < 16)))
    | 1 => some (.long lo true .zero .zero .zero .zero .zero false .zero [0] 0 (decide ((ExT.ofTail lo tail).tail.toNat < 16)))
    | 2 => some (.long lo true .zero .zero .zero .zero .zero false .zero [0] 0 (decide ((ExT.ofTail lo tail).tail.toNat < 4)))
    | _ => none
  | 0x21 =>
    match fn with
    | 0 => some (.long lo true .zero .reg .reg .zero .zero false .zero [0] 0 ((ExM.ofTail lo tail).only [.aoff, .fmta] && (ExM.ofTail lo tail).fmtaOK && tail.extractLsb' 46 18 == 0))
    | 1 => some (.long lo true .zero .reg .reg .zero .zero false .zero [0] 0 ((ExM.ofTail lo tail).only [.slot] && tail.extractLsb' 46 18 == 0))
    | _ => none
  | 0x22 =>
    match fn with
    | 0 => some (.long lo true .zero .zero .zero .zero .zero false .zero [0] 0 ((ExM.ofTail lo tail).fmtaOK && (ExM.ofTail lo tail).mmaOK && tail.extractLsb' 46 18 == 0))
    | _ => none
  | 0x23 =>
    match fn with
    | 0 => some (.long lo true .zero .reg .zero .zero .zero false .round [0, 1, 3, 4] 0 ((ExM.ofTail lo tail).fmtaOK && (ExM.ofTail lo tail).mseqOK && tail.extractLsb' 46 18 == 0))
    | _ => none
  | 0x24 =>
    match fn with
    | 0 => some (.long lo true .vec .reg .zero .reg .zero true .round [0, 1, 2, 3, 4, 5] 0 ((ExM.ofTail lo tail).only [.acc] && ((ExM.ofTail lo tail).ty == 5 || (ExM.ofTail lo tail).c == 0) && tail.extractLsb' 46 18 == 0))
    | 1 => some (.long lo true .zero .reg .vec .zero .zero true .zero [0, 1, 2, 3, 4] 0 ((ExM.ofTail lo tail).only [.acc] && tail.extractLsb' 46 18 == 0))
    | _ => none
  | 0x25 =>
    match fn with
    | 0 => some (.long lo true .reg .zero .zero .zero .zero false .zero [0] 0 ((ExM.ofTail lo tail).fmtaOK && (ExM.ofTail lo tail).mmaOK && decide ((ExM.ofTail lo tail).d.toNat < 8) && tail.extractLsb' 46 18 == 0))
    | _ => none
  | 0x30 =>
    match fn with
    | 0 => some (.long lo true .reg .reg .reg .reg .reg false .zero [0] 4 ((ExC.ofTail lo tail).bsz == 0 && (ExC.ofTail lo tail).ring == 0 && (ExC.ofTail lo tail).pool == 0 && tail.extractLsb' 39 25 == 0))
    | 1 => some (.long lo true .reg .reg .zero .zero .zero false .zero [0] 0 ((ExT.ofTail lo tail).tail == 0))
    | _ => none
  | 0x31 =>
    match fn with
    | 0 => some (.long lo true .reg .reg .reg .reg .reg false .zero [0] 4 ((ExC.ofTail lo tail).ring == 0 && tail.extractLsb' 39 25 == 0))
    | 1 => some (.long lo true .reg .reg .reg .reg .reg false .zero [0] 4 ((ExC.ofTail lo tail).ast == 0 && tail.extractLsb' 39 25 == 0))
    | _ => none
  | 0x38 =>
    match fn with
    | 0 => some (.long lo true .reg .zero .zero .zero .zero false .zero [0] 0 (decide ((ExT.ofTail lo tail).tail.toNat ≤ 6)))
    | 1 => some (.long lo true .reg .reg .zero .zero .zero false .zero [0] 0 ((ExT.ofTail lo tail).tail == 0))
    | 2 => some (.long lo true .zero .reg .zero .zero .zero false .zero [0] 0 ((ExT.ofTail lo tail).tail == 0))
    | _ => none
  | 0x3c =>
    match fn with
    | 0 => some (.long lo true .reg .reg .zero .zero .zero false .zero [0] 0 (decide (tail.toNat ≤ 1)))
    | _ => none
  | _ => none

/-- The field rules of a word taken apart; none where its major and function code are not assigned (R98). -/
def Raw.rule : Raw → Option Rule
  | .short opc fn o => ruleShort opc.toNat fn.toNat o
  | .long opc fn o => ruleLong opc.toNat fn.toNat o
  | .ext opc fn lo tail => ruleExt opc.toNat fn.toNat lo tail

end Sys2Proof
end

