-- ==== Sys2Proof/WellFormed.lean ====
section
/-!
DEFINITION. The words of an instruction, and what makes an instruction well formed: some word encodes it, and that word
passes steps 4 and 5 of R94.
-/

namespace Sys2Proof

/-- The words of an instruction before they are packed: its form, major, function code and fields (R81, R83, R89).
An event of the device or of the host has no words. -/
def Instr.raw : Instr → Option Raw
  | .nop o => some (.short 0x01 0 o)
  | .nopLong o => some (.long 0x01 0 o)
  | .nopExt o => some (.ext 0x01 0 o.toLow o.tailBits)
  | .brk o => some (.short 0x01 1 o)
  | .trap o => some (.short 0x01 2 o)
  | .eret o => some (.short 0x01 3 o)
  | .hend o => some (.short 0x01 4 o)
  | .kfence o => some (.short 0x01 10 o)
  | .mfsr o => some (.short 0x01 5 o)
  | .mtsr o => some (.short 0x01 6 o)
  | .mtsrSr o => some (.short 0x01 6 o)
  | .mtsrCsplit o => some (.short 0x01 6 o)
  | .mtsrVgrp o => some (.short 0x01 6 o)
  | .mtsrMgstall o => some (.short 0x01 6 o)
  | .mtsrDridx o => some (.short 0x01 6 o)
  | .mtsrDrrpl o => some (.short 0x01 6 o)
  | .rid o => some (.short 0x01 7 o)
  | .hjoin o => some (.short 0x01 8 o)
  | .gaddr o => some (.short 0x01 9 o)
  | .hstart o => some (.short 0x02 0 o)
  | .hstartM o => some (.short 0x02 1 o)
  | .vclaim o => some (.short 0x03 0 o)
  | .vrenew o => some (.short 0x03 1 o)
  | .fmt f o => some (.short 0x04 f o)
  | .add o => some (.short 0x08 0 o)
  | .addImm o => some (.short 0x09 0 o)
  | .sub o => some (.short 0x08 1 o)
  | .subImm o => some (.short 0x09 1 o)
  | .and o => some (.short 0x08 2 o)
  | .andImm o => some (.short 0x09 2 o)
  | .or o => some (.short 0x08 3 o)
  | .orImm o => some (.short 0x09 3 o)
  | .xor o => some (.short 0x08 4 o)
  | .xorImm o => some (.short 0x09 4 o)
  | .shl o => some (.short 0x08 5 o)
  | .shlImm o => some (.short 0x09 5 o)
  | .shr o => some (.short 0x08 6 o)
  | .shrImm o => some (.short 0x09 6 o)
  | .sra o => some (.short 0x08 7 o)
  | .sraImm o => some (.short 0x09 7 o)
  | .mul o => some (.short 0x08 8 o)
  | .mulImm o => some (.short 0x09 8 o)
  | .mulh o => some (.short 0x08 9 o)
  | .mulhImm o => some (.short 0x09 9 o)
  | .mulhu o => some (.short 0x08 10 o)
  | .mulhuImm o => some (.short 0x09 10 o)
  | .div o => some (.short 0x08 11 o)
  | .divImm o => some (.short 0x09 11 o)
  | .divu o => some (.short 0x08 12 o)
  | .divuImm o => some (.short 0x09 12 o)
  | .rem o => some (.short 0x08 13 o)
  | .remImm o => some (.short 0x09 13 o)
  | .remu o => some (.short 0x08 14 o)
  | .remuImm o => some (.short 0x09 14 o)
  | .andn o => some (.short 0x08 15 o)
  | .andnImm o => some (.short 0x09 15 o)
  | .slt o => some (.short 0x0a 0 o)
  | .sltImm o => some (.short 0x0b 0 o)
  | .sltu o => some (.short 0x0a 1 o)
  | .sltuImm o => some (.short 0x0b 1 o)
  | .min o => some (.short 0x0a 2 o)
  | .minImm o => some (.short 0x0b 2 o)
  | .minu o => some (.short 0x0a 3 o)
  | .minuImm o => some (.short 0x0b 3 o)
  | .max o => some (.short 0x0a 4 o)
  | .maxImm o => some (.short 0x0b 4 o)
  | .maxu o => some (.short 0x0a 5 o)
  | .maxuImm o => some (.short 0x0b 5 o)
  | .addSat o => some (.short 0x0a 6 o)
  | .addSatImm o => some (.short 0x0b 6 o)
  | .subSat o => some (.short 0x0a 7 o)
  | .subSatImm o => some (.short 0x0b 7 o)
  | .adduSat o => some (.short 0x0a 8 o)
  | .adduSatImm o => some (.short 0x0b 8 o)
  | .subuSat o => some (.short 0x0a 9 o)
  | .subuSatImm o => some (.short 0x0b 9 o)
  | .mulSat o => some (.short 0x0a 10 o)
  | .mulSatImm o => some (.short 0x0b 10 o)
  | .muluSat o => some (.short 0x0a 11 o)
  | .muluSatImm o => some (.short 0x0b 11 o)
  | .rol o => some (.short 0x0a 12 o)
  | .rolImm o => some (.short 0x0b 12 o)
  | .ror o => some (.short 0x0a 13 o)
  | .rorImm o => some (.short 0x0b 13 o)
  | .guardedAluReg fn o => some (.long 0x02 fn o)
  | .guardedAluImm fn o => some (.long 0x03 fn o)
  | .guardedAlu2Reg fn o => some (.long 0x04 fn o)
  | .guardedAlu2Imm fn o => some (.long 0x05 fn o)
  | .pop o => some (.short 0x0c 0 o)
  | .clz o => some (.short 0x0c 1 o)
  | .ctz o => some (.short 0x0c 2 o)
  | .brev o => some (.short 0x0c 3 o)
  | .bswap o => some (.short 0x0c 4 o)
  | .sext8 o => some (.short 0x0c 5 o)
  | .sext16 o => some (.short 0x0c 6 o)
  | .sext32 o => some (.short 0x0c 7 o)
  | .zext8 o => some (.short 0x0c 8 o)
  | .zext16 o => some (.short 0x0c 9 o)
  | .zext32 o => some (.short 0x0c 10 o)
  | .ext o => some (.short 0x0d 0 o)
  | .extz o => some (.short 0x0d 1 o)
  | .ins o => some (.short 0x0d 2 o)
  | .movl o => some (.short 0x0e 0 o)
  | .movh o => some (.short 0x0e 1 o)
  | .beq o => some (.short 0x10 0 o)
  | .bne o => some (.short 0x10 1 o)
  | .blt o => some (.short 0x10 2 o)
  | .bge o => some (.short 0x10 3 o)
  | .bltu o => some (.short 0x10 4 o)
  | .bgeu o => some (.short 0x10 5 o)
  | .j o => some (.short 0x11 0 o)
  | .call o => some (.short 0x11 1 o)
  | .jr o => some (.short 0x11 2 o)
  | .callr o => some (.short 0x11 3 o)
  | .ld fn o => some (.short 0x18 fn o.toSh)
  | .st fn o => some (.short 0x19 fn o.toSh)
  | .guardedLd fn o => some (.long 0x06 fn o.toLg)
  | .guardedSt fn o => some (.long 0x07 fn o.toLg)
  | .ldk fn o => some (.short 0x1a fn o.toSh)
  | .ldp fn o => some (.short 0x1b fn o.toSh)
  | .lda fn o => some (.short 0x1c fn o.toSh)
  | .stl fn o => some (.short 0x1d fn o.toSh)
  | .fence o => some (.short 0x1e 0 o.toSh)
  | .sts fn o => some (.short 0x1f fn o.toSh)
  | .amoAdd o => some (.short 0x20 0 o.toSh)
  | .amoAnd o => some (.short 0x20 1 o.toSh)
  | .amoOr o => some (.short 0x20 2 o.toSh)
  | .amoXor o => some (.short 0x20 3 o.toSh)
  | .amoMin o => some (.short 0x20 4 o.toSh)
  | .amoMax o => some (.short 0x20 5 o.toSh)
  | .amoMinu o => some (.short 0x20 6 o.toSh)
  | .amoMaxu o => some (.short 0x20 7 o.toSh)
  | .amoSwap o => some (.short 0x20 8 o.toSh)
  | .amoFaddF64 o => some (.short 0x20 10 o.toSh)
  | .amoAddI32 o => some (.short 0x21 0 o.toSh)
  | .amoAndI32 o => some (.short 0x21 1 o.toSh)
  | .amoOrI32 o => some (.short 0x21 2 o.toSh)
  | .amoXorI32 o => some (.short 0x21 3 o.toSh)
  | .amoMinI32 o => some (.short 0x21 4 o.toSh)
  | .amoMaxI32 o => some (.short 0x21 5 o.toSh)
  | .amoMinuI32 o => some (.short 0x21 6 o.toSh)
  | .amoMaxuI32 o => some (.short 0x21 7 o.toSh)
  | .amoSwapI32 o => some (.short 0x21 8 o.toSh)
  | .amoFaddF32 o => some (.short 0x21 9 o.toSh)
  | .cas o => some (.short 0x22 0 o.toSh)
  | .casI32 o => some (.short 0x22 1 o.toSh)
  | .ramoAdd o => some (.short 0x23 0 o.toSh)
  | .ramoAnd o => some (.short 0x23 1 o.toSh)
  | .ramoOr o => some (.short 0x23 2 o.toSh)
  | .ramoXor o => some (.short 0x23 3 o.toSh)
  | .ramoMin o => some (.short 0x23 4 o.toSh)
  | .ramoMax o => some (.short 0x23 5 o.toSh)
  | .ramoMinu o => some (.short 0x23 6 o.toSh)
  | .ramoMaxu o => some (.short 0x23 7 o.toSh)
  | .ramoSwap o => some (.short 0x23 8 o.toSh)
  | .waitEq o => some (.short 0x24 0 o.toSh)
  | .waitNe o => some (.short 0x24 1 o.toSh)
  | .waitRetest _ => none
  | .waitPoll _ => none
  | .bar o => some (.short 0x25 0 o)
  | .bara o => some (.short 0x25 1 o)
  | .barw o => some (.short 0x25 2 o)
  | .bard o => some (.short 0x25 3 o)
  | .bardArrival _ => none
  | .evw o => some (.short 0x26 0 o)
  | .evs o => some (.short 0x26 1 o)
  | .gatedLoadComplete _ => none
  | .send o => some (.short 0x27 0 o)
  | .recv o => some (.short 0x27 1 o)
  | .role o => some (.short 0x28 0 o)
  | .gsize o => some (.short 0x28 1 o)
  | .grank o => some (.short 0x28 2 o)
  | .cinv o => some (.short 0x29 0 o.toSh)
  | .cwb o => some (.short 0x29 1 o.toSh)
  | .cpf o => some (.short 0x29 2 o.toSh)
  | .sfence o => some (.short 0x2a 0 o)
  | .mark o => some (.short 0x2a 1 o)
  | .markStamp _ _ => none
  | .fadd o => some (.short 0x2b 0 o)
  | .fsub o => some (.short 0x2b 1 o)
  | .fmul o => some (.short 0x2b 2 o)
  | .fdiv o => some (.short 0x2b 3 o)
  | .fsqrt o => some (.short 0x2b 4 o)
  | .fmin o => some (.short 0x2b 5 o)
  | .fmax o => some (.short 0x2b 6 o)
  | .feq o => some (.short 0x2b 7 o)
  | .flt o => some (.short 0x2b 8 o)
  | .fle o => some (.short 0x2b 9 o)
  | .fneg o => some (.short 0x2b 10 o)
  | .fabs o => some (.short 0x2b 11 o)
  | .faddF32 o => some (.short 0x2c 0 o)
  | .fsubF32 o => some (.short 0x2c 1 o)
  | .fmulF32 o => some (.short 0x2c 2 o)
  | .fdivF32 o => some (.short 0x2c 3 o)
  | .fsqrtF32 o => some (.short 0x2c 4 o)
  | .fminF32 o => some (.short 0x2c 5 o)
  | .fmaxF32 o => some (.short 0x2c 6 o)
  | .feqF32 o => some (.short 0x2c 7 o)
  | .fltF32 o => some (.short 0x2c 8 o)
  | .fleF32 o => some (.short 0x2c 9 o)
  | .fnegF32 o => some (.short 0x2c 10 o)
  | .fabsF32 o => some (.short 0x2c 11 o)
  | .cvtF64I64 o => some (.short 0x2d 0 o)
  | .cvtF64N64 o => some (.short 0x2d 1 o)
  | .cvtI64F64 o => some (.short 0x2d 2 o)
  | .cvtN64F64 o => some (.short 0x2d 3 o)
  | .cvtF32I64 o => some (.short 0x2d 4 o)
  | .cvtF32N64 o => some (.short 0x2d 5 o)
  | .cvtI64F32 o => some (.short 0x2d 6 o)
  | .cvtN64F32 o => some (.short 0x2d 7 o)
  | .cvtF32F64 o => some (.short 0x2d 8 o)
  | .cvtF64F32 o => some (.short 0x2d 9 o)
  | .fma o => some (.long 0x08 0 o)
  | .mulWide o => some (.long 0x08 1 o)
  | .muluWide o => some (.long 0x08 2 o)
  | .csel o => some (.long 0x08 3 o)
  | .vaddInt o => some (.long 0x10 0 o)
  | .vsubInt o => some (.long 0x10 1 o)
  | .vmulInt o => some (.long 0x10 2 o)
  | .vmulh o => some (.long 0x10 3 o)
  | .vmulhu o => some (.long 0x10 4 o)
  | .vminInt o => some (.long 0x10 5 o)
  | .vminu o => some (.long 0x10 6 o)
  | .vmaxInt o => some (.long 0x10 7 o)
  | .vmaxu o => some (.long 0x10 8 o)
  | .vand o => some (.long 0x10 9 o)
  | .vor o => some (.long 0x10 10 o)
  | .vxor o => some (.long 0x10 11 o)
  | .vshl o => some (.long 0x10 12 o)
  | .vshr o => some (.long 0x10 13 o)
  | .vsra o => some (.long 0x10 14 o)
  | .vabsInt o => some (.long 0x10 15 o)
  | .vnegInt o => some (.long 0x10 16 o)
  | .vaddSat o => some (.long 0x10 17 o)
  | .vsubSat o => some (.long 0x10 18 o)
  | .vadduSat o => some (.long 0x10 19 o)
  | .vsubuSat o => some (.long 0x10 20 o)
  | .vpop o => some (.long 0x10 21 o)
  | .vclz o => some (.long 0x10 22 o)
  | .vaddF o => some (.long 0x11 0 o)
  | .vsubF o => some (.long 0x11 1 o)
  | .vmulF o => some (.long 0x11 2 o)
  | .vdiv o => some (.long 0x11 3 o)
  | .vsqrt o => some (.long 0x11 4 o)
  | .vminF o => some (.long 0x11 5 o)
  | .vmaxF o => some (.long 0x11 6 o)
  | .vabsF o => some (.long 0x11 7 o)
  | .vnegF o => some (.long 0x11 8 o)
  | .vfma o => some (.long 0x11 9 o)
  | .vfms o => some (.long 0x11 10 o)
  | .vfnma o => some (.long 0x11 11 o)
  | .vrcp o => some (.long 0x11 12 o)
  | .vrsqrt o => some (.long 0x11 13 o)
  | .vex2 o => some (.long 0x11 14 o)
  | .vlg2 o => some (.long 0x11 15 o)
  | .vcopysign o => some (.long 0x11 16 o)
  | .vcmpEq o => some (.long 0x12 0 o)
  | .vcmpNe o => some (.long 0x12 1 o)
  | .vcmpLt o => some (.long 0x12 2 o)
  | .vcmpLe o => some (.long 0x12 3 o)
  | .vcmpGt o => some (.long 0x12 4 o)
  | .vcmpGe o => some (.long 0x12 5 o)
  | .vcmpLtu o => some (.long 0x12 6 o)
  | .vcmpLeu o => some (.long 0x12 7 o)
  | .vcmpGtu o => some (.long 0x12 8 o)
  | .vcmpGeu o => some (.long 0x12 9 o)
  | .vsel o => some (.long 0x13 0 o)
  | .vmkl o => some (.long 0x13 1 o)
  | .vmpop o => some (.long 0x13 6 o)
  | .vbcast o => some (.long 0x13 2 o)
  | .vmov o => some (.long 0x13 3 o)
  | .vget o => some (.long 0x13 4 o)
  | .vput o => some (.long 0x13 5 o)
  | .vperm o => some (.long 0x14 0 o)
  | .vrot o => some (.long 0x14 1 o)
  | .vcompress o => some (.long 0x14 2 o)
  | .vexpand o => some (.long 0x14 3 o)
  | .vcvtF32I32 o => some (.long 0x15 0 o)
  | .vcvtF32N32 o => some (.long 0x15 1 o)
  | .vcvtI32F32 o => some (.long 0x15 2 o)
  | .vcvtN32F32 o => some (.long 0x15 3 o)
  | .vcvtF16F32 o => some (.long 0x15 4 o)
  | .vcvtBf16F32 o => some (.long 0x15 5 o)
  | .vcvtF32F16 o => some (.long 0x15 6 o)
  | .vcvtF32Bf16 o => some (.long 0x15 7 o)
  | .vcvtE4m3F32 o => some (.long 0x15 8 o)
  | .vcvtF32E4m3 o => some (.long 0x15 9 o)
  | .vcvtF64F32 o => some (.long 0x15 10 o)
  | .vcvtF32F64 o => some (.long 0x15 11 o)
  | .vcvtF64I32 o => some (.long 0x15 12 o)
  | .vcvtI32F64 o => some (.long 0x15 13 o)
  | .vcvtF16Bf16 o => some (.long 0x15 14 o)
  | .vcvtBf16F16 o => some (.long 0x15 15 o)
  | .vredAdd o => some (.long 0x16 0 o)
  | .vredMin o => some (.long 0x16 1 o)
  | .vredMax o => some (.long 0x16 2 o)
  | .vredAnd o => some (.long 0x16 3 o)
  | .vredOr o => some (.long 0x16 4 o)
  | .vredXor o => some (.long 0x16 5 o)
  | .vredMinu o => some (.long 0x16 6 o)
  | .vredMaxu o => some (.long 0x16 7 o)
  | .vscanAdd o => some (.long 0x16 8 o)
  | .vscanMin o => some (.long 0x16 9 o)
  | .vscanMax o => some (.long 0x16 10 o)
  | .vexpr o => some (.ext 0x10 0 o.toLow o.tailBits)
  | .vqsh o => some (.long 0x17 0 o.toLg)
  | .vdqsh o => some (.long 0x17 1 o.toLg)
  | .vbaq o => some (.long 0x17 2 o.toLg)
  | .vld o => some (.long 0x20 0 o.toLg)
  | .vlds o => some (.long 0x20 1 o.toLg)
  | .vgather o => some (.long 0x20 2 o.toLg)
  | .vldw o => some (.long 0x20 3 o.toLg)
  | .vldl o => some (.long 0x20 4 o.toLg)
  | .vst o => some (.long 0x21 0 o.toLg)
  | .vsts o => some (.long 0x21 1 o.toLg)
  | .vscatter o => some (.long 0x21 2 o.toLg)
  | .vstl o => some (.long 0x21 3 o.toLg)
  | .vectorRetire _ => none
  | .tld o => some (.long 0x24 0 o.toLg)
  | .tst o => some (.long 0x24 1 o.toLg)
  | .tldSplit o => some (.long 0x24 2 o.toLg)
  | .tstSplit o => some (.long 0x24 3 o.toLg)
  | .tileLineGrant _ => none
  | .ldsum o => some (.long 0x28 0 o.toLg)
  | .mclaim o => some (.ext 0x20 0 o.toLow o.tailBits)
  | .mrel o => some (.ext 0x20 1 o.toLow o.tailBits)
  | .macz o => some (.ext 0x20 2 o.toLow o.tailBits)
  | .mld o => some (.ext 0x21 0 o.toLow o.tailBits)
  | .wload o => some (.ext 0x21 1 o.toLow o.tailBits)
  | .mma o => some (.ext 0x22 0 o.toLow o.tailBits)
  | .mseq o => some (.ext 0x23 0 o.toLow o.tailBits)
  | .matrixQueueEntry _ => none
  | .matrixStep _ => none
  | .mseqStep _ => none
  | .macrd o => some (.ext 0x24 0 o.toLow o.tailBits)
  | .macwr o => some (.ext 0x24 1 o.toLow o.tailBits)
  | .mfol o => some (.ext 0x25 0 o.toLow o.tailBits)
  | .cpy o => some (.ext 0x30 0 o.toLow o.tailBits)
  | .cpyq o => some (.ext 0x30 1 o.toLow o.tailBits)
  | .cpyt o => some (.ext 0x31 0 o.toLow o.tailBits)
  | .cpytCow o => some (.ext 0x31 1 o.toLow o.tailBits)
  | .copyLine _ => none
  | .copyComplete _ => none
  | .lvrd o => some (.ext 0x38 0 o.toLow o.tailBits)
  | .lvnb o => some (.ext 0x38 1 o.toLow o.tailBits)
  | .lvnext o => some (.ext 0x38 2 o.toLow o.tailBits)
  | .gwqTake o => some (.ext 0x3c 0 o.toLow o.tailBits)
  | .gwqCount o => some (.ext 0x3c 0 o.toLow o.tailBits)
  | .trapEntry _ => none
  | .rollback _ => none
  | .yieldExpiry _ => none
  | .delayExpiry _ => none
  | .migrationCheck _ => none
  | .helperArrival _ => none
  | .streamSend _ => none
  | .streamCommit _ => none
  | .streamAck _ => none
  | .windowAccessAtTarget _ => none
  | .windowResponse _ _ _ _ => none
  | .fenceTimeout _ => none
  | .routeLossTimeout _ => none
  | .blockDispatch _ _ => none
  | .levelNotice _ _ _ _ _ => none
  | .levelStall _ _ => none
  | .graphNode _ _ => none
  | .gatewayBlockReady _ _ _ => none
  | .rds _ _ => none
  | .rdx _ _ => none
  | .upg _ _ => none
  | .wb _ _ => none
  | .fwds _ _ => none
  | .fwdx _ _ => none
  | .inv _ _ => none
  | .invack _ _ => none
  | .data _ _ => none
  | .binv _ _ => none
  | .binvack _ _ => none
  | .snoopTimeout _ _ => none
  | .linkRetrainDone _ _ _ => none
  | .linkIdleSleep _ _ => none
  | .linkWake _ _ => none
  | .memrd _ _ => none
  | .memwr _ _ => none
  | .meminv _ _ => none
  | .birsp _ _ => none
  | .cxlGo _ => none
  | .qtailWrite _ _ => none
  | .qctlWrite _ _ => none
  | .queuePromotion _ => none
  | .queueEntryStart => none
  | .launch _ => none
  | .launchEnd _ => none
  | .graph _ => none
  | .copy _ => none
  | .eventSignal _ => none
  | .eventWait _ => none
  | .vacate _ => none
  | .switchOut _ => none
  | .switchIn _ => none
  | .tlbiAll _ => none
  | .tlbiAsid _ => none
  | .tlbiPageAsid _ => none
  | .tlbiPageAll _ => none
  | .tlbiDone => none
  | .migrate _ _ => none
  | .migrationDone _ => none
  | .mgovWrite _ _ => none
  | .lwctlWrite _ _ _ => none
  | .lwcntClear _ _ _ => none
  | .sliceCounterClear _ _ _ _ => none
  | .gwrxWrite _ _ => none
  | .ctvecWrite _ _ => none
  | .plsetWrite _ _ => none
  | .plostClear _ _ => none
  | .portWrite _ _ => none
  | .rmaddWrite _ => none
  | .lmAttest => none
  | .lmStageFirmware => none
  | .lmInstallLinkKey => none
  | .lmWriteCert => none
  | .lmUnknownCommand _ => none
  | .registerWrite _ _ => none
  | .eccCorrected _ _ _ => none
  | .eccUncorrectable _ _ _ _ => none
  | .retire _ _ => none
  | .packageReset => none
  | .powerLoss => none
  | .illegalOpcode => none
  | .hostSnoop _ _ => none
  | .portTrained _ => none
  | .portLinkDown _ => none
  | .gwqTakeTimeout _ => none
  | .hostResume _ => none

/-- The row of the special-register number, where an instruction's name fixes one (R41, R128), and of the gateway
immediate (R255). -/
def Instr.numberOK : Instr → Bool
  | .mtsr o => !([0, 7, 8, 10, 17, 24] : List Nat).contains (o.imm.toNat % 256)
  | .mtsrSr o => o.imm.toNat % 256 == 0
  | .mtsrCsplit o => o.imm.toNat % 256 == 7
  | .mtsrVgrp o => o.imm.toNat % 256 == 8
  | .mtsrMgstall o => o.imm.toNat % 256 == 10
  | .mtsrDridx o => o.imm.toNat % 256 == 17
  | .mtsrDrrpl o => o.imm.toNat % 256 == 24
  | .gwqTake o => o.tail == 0
  | .gwqCount o => o.tail == 1
  | _ => true

/-- The checks of steps 4 and 5 of R94 on a word taken apart. -/
def Raw.ok (r : Raw) : Bool :=
  match r.rule with
  | some k => k.legal && k.fieldsOK
  | none => false

/-- A well-formed instruction. -/
def Instr.wf (i : Instr) : Bool :=
  match i.raw with
  | some r => r.ok && i.numberOK
  | none => false

end Sys2Proof
end

