-- ==== Sys2Proof/Decode.lean ====
section
/-!
DEFINITION. The decoder, total on any 128 bits, and the encoder. Field positions are those of R81 (short form), R83
(long form) and R89 (extended form); the three maps are R95, R96 and R97. `build` and what rests on it carry no code:
a type of more than 244 constructors with fields has no run-time form, so the machine itself dispatches on the word
taken apart (Machine/Issue.lean) and never builds an `Instr`.
-/

namespace Sys2Proof

/-- `mtsr` by special-register number (R41, R128). -/
def mtsrOf (o : Sh) : Instr :=
  match o.imm.toNat % 256 with
  | 0 => .mtsrSr o
  | 7 => .mtsrCsplit o
  | 8 => .mtsrVgrp o
  | 10 => .mtsrMgstall o
  | 17 => .mtsrDridx o
  | 24 => .mtsrDrrpl o
  | _ => .mtsr o

/-- The short-form map of R95. -/
def buildShort (opc fn : Nat) (o : Sh) : Option Instr :=
  match opc with
  | 0x01 =>
    match fn with
    | 0 => some (.nop o)
    | 1 => some (.brk o)
    | 2 => some (.trap o)
    | 3 => some (.eret o)
    | 4 => some (.hend o)
    | 10 => some (.kfence o)
    | 5 => some (.mfsr o)
    | 6 => some (mtsrOf o)
    | 7 => some (.rid o)
    | 8 => some (.hjoin o)
    | 9 => some (.gaddr o)
    | _ => none
  | 0x02 =>
    match fn with
    | 0 => some (.hstart o)
    | 1 => some (.hstartM o)
    | _ => none
  | 0x03 =>
    match fn with
    | 0 => some (.vclaim o)
    | 1 => some (.vrenew o)
    | _ => none
  | 0x04 => if 1 ≤ fn ∧ fn ≤ 9 then some (.fmt (BitVec.ofNat 4 fn) o) else none
  | 0x08 =>
    match fn with
    | 0 => some (.add o)
    | 1 => some (.sub o)
    | 2 => some (.and o)
    | 3 => some (.or o)
    | 4 => some (.xor o)
    | 5 => some (.shl o)
    | 6 => some (.shr o)
    | 7 => some (.sra o)
    | 8 => some (.mul o)
    | 9 => some (.mulh o)
    | 10 => some (.mulhu o)
    | 11 => some (.div o)
    | 12 => some (.divu o)
    | 13 => some (.rem o)
    | 14 => some (.remu o)
    | 15 => some (.andn o)
    | _ => none
  | 0x09 =>
    match fn with
    | 0 => some (.addImm o)
    | 1 => some (.subImm o)
    | 2 => some (.andImm o)
    | 3 => some (.orImm o)
    | 4 => some (.xorImm o)
    | 5 => some (.shlImm o)
    | 6 => some (.shrImm o)
    | 7 => some (.sraImm o)
    | 8 => some (.mulImm o)
    | 9 => some (.mulhImm o)
    | 10 => some (.mulhuImm o)
    | 11 => some (.divImm o)
    | 12 => some (.divuImm o)
    | 13 => some (.remImm o)
    | 14 => some (.remuImm o)
    | 15 => some (.andnImm o)
    | _ => none
  | 0x0a =>
    match fn with
    | 0 => some (.slt o)
    | 1 => some (.sltu o)
    | 2 => some (.min o)
    | 3 => some (.minu o)
    | 4 => some (.max o)
    | 5 => some (.maxu o)
    | 6 => some (.addSat o)
    | 7 => some (.subSat o)
    | 8 => some (.adduSat o)
    | 9 => some (.subuSat o)
    | 10 => some (.mulSat o)
    | 11 => some (.muluSat o)
    | 12 => some (.rol o)
    | 13 => some (.ror o)
    | _ => none
  | 0x0b =>
    match fn with
    | 0 => some (.sltImm o)
    | 1 => some (.sltuImm o)
    | 2 => some (.minImm o)
    | 3 => some (.minuImm o)
    | 4 => some (.maxImm o)
    | 5 => some (.maxuImm o)
    | 6 => some (.addSatImm o)
    | 7 => some (.subSatImm o)
    | 8 => some (.adduSatImm o)
    | 9 => some (.subuSatImm o)
    | 10 => some (.mulSatImm o)
    | 11 => some (.muluSatImm o)
    | 12 => some (.rolImm o)
    | 13 => some (.rorImm o)
    | _ => none
  | 0x0c =>
    match fn with
    | 0 => some (.pop o)
    | 1 => some (.clz o)
    | 2 => some (.ctz o)
    | 3 => some (.brev o)
    | 4 => some (.bswap o)
    | 5 => some (.sext8 o)
    | 6 => some (.sext16 o)
    | 7 => some (.sext32 o)
    | 8 => some (.zext8 o)
    | 9 => some (.zext16 o)
    | 10 => some (.zext32 o)
    | _ => none
  | 0x0d =>
    match fn with
    | 0 => some (.ext o)
    | 1 => some (.extz o)
    | 2 => some (.ins o)
    | _ => none
  | 0x0e =>
    match fn with
    | 0 => some (.movl o)
    | 1 => some (.movh o)
    | _ => none
  | 0x10 =>
    match fn with
    | 0 => some (.beq o)
    | 1 => some (.bne o)
    | 2 => some (.blt o)
    | 3 => some (.bge o)
    | 4 => some (.bltu o)
    | 5 => some (.bgeu o)
    | _ => none
  | 0x11 =>
    match fn with
    | 0 => some (.j o)
    | 1 => some (.call o)
    | 2 => some (.jr o)
    | 3 => some (.callr o)
    | _ => none
  | 0x18 => if fn < 7 then some (.ld (BitVec.ofNat 4 fn) (.ofSh o)) else none
  | 0x19 => if fn < 4 then some (.st (BitVec.ofNat 4 fn) (.ofSh o)) else none
  | 0x1a => if fn < 7 then some (.ldk (BitVec.ofNat 4 fn) (.ofSh o)) else none
  | 0x1b => if fn < 16 then some (.ldp (BitVec.ofNat 4 fn) (.ofSh o)) else none
  | 0x1c => if fn < 7 then some (.lda (BitVec.ofNat 4 fn) (.ofSh o)) else none
  | 0x1d => if fn < 4 then some (.stl (BitVec.ofNat 4 fn) (.ofSh o)) else none
  | 0x1e =>
    match fn with
    | 0 => some (.fence (.ofSh o))
    | _ => none
  | 0x1f => if fn < 4 then some (.sts (BitVec.ofNat 4 fn) (.ofSh o)) else none
  | 0x20 =>
    match fn with
    | 0 => some (.amoAdd (.ofSh o))
    | 1 => some (.amoAnd (.ofSh o))
    | 2 => some (.amoOr (.ofSh o))
    | 3 => some (.amoXor (.ofSh o))
    | 4 => some (.amoMin (.ofSh o))
    | 5 => some (.amoMax (.ofSh o))
    | 6 => some (.amoMinu (.ofSh o))
    | 7 => some (.amoMaxu (.ofSh o))
    | 8 => some (.amoSwap (.ofSh o))
    | 10 => some (.amoFaddF64 (.ofSh o))
    | _ => none
  | 0x21 =>
    match fn with
    | 0 => some (.amoAddI32 (.ofSh o))
    | 1 => some (.amoAndI32 (.ofSh o))
    | 2 => some (.amoOrI32 (.ofSh o))
    | 3 => some (.amoXorI32 (.ofSh o))
    | 4 => some (.amoMinI32 (.ofSh o))
    | 5 => some (.amoMaxI32 (.ofSh o))
    | 6 => some (.amoMinuI32 (.ofSh o))
    | 7 => some (.amoMaxuI32 (.ofSh o))
    | 8 => some (.amoSwapI32 (.ofSh o))
    | 9 => some (.amoFaddF32 (.ofSh o))
    | _ => none
  | 0x22 =>
    match fn with
    | 0 => some (.cas (.ofSh o))
    | 1 => some (.casI32 (.ofSh o))
    | _ => none
  | 0x23 =>
    match fn with
    | 0 => some (.ramoAdd (.ofSh o))
    | 1 => some (.ramoAnd (.ofSh o))
    | 2 => some (.ramoOr (.ofSh o))
    | 3 => some (.ramoXor (.ofSh o))
    | 4 => some (.ramoMin (.ofSh o))
    | 5 => some (.ramoMax (.ofSh o))
    | 6 => some (.ramoMinu (.ofSh o))
    | 7 => some (.ramoMaxu (.ofSh o))
    | 8 => some (.ramoSwap (.ofSh o))
    | _ => none
  | 0x24 =>
    match fn with
    | 0 => some (.waitEq (.ofSh o))
    | 1 => some (.waitNe (.ofSh o))
    | _ => none
  | 0x25 =>
    match fn with
    | 0 => some (.bar o)
    | 1 => some (.bara o)
    | 2 => some (.barw o)
    | 3 => some (.bard o)
    | _ => none
  | 0x26 =>
    match fn with
    | 0 => some (.evw o)
    | 1 => some (.evs o)
    | _ => none
  | 0x27 =>
    match fn with
    | 0 => some (.send o)
    | 1 => some (.recv o)
    | _ => none
  | 0x28 =>
    match fn with
    | 0 => some (.role o)
    | 1 => some (.gsize o)
    | 2 => some (.grank o)
    | _ => none
  | 0x29 =>
    match fn with
    | 0 => some (.cinv (.ofSh o))
    | 1 => some (.cwb (.ofSh o))
    | 2 => some (.cpf (.ofSh o))
    | _ => none
  | 0x2a =>
    match fn with
    | 0 => some (.sfence o)
    | 1 => some (.mark o)
    | _ => none
  | 0x2b =>
    match fn with
    | 0 => some (.fadd o)
    | 1 => some (.fsub o)
    | 2 => some (.fmul o)
    | 3 => some (.fdiv o)
    | 4 => some (.fsqrt o)
    | 5 => some (.fmin o)
    | 6 => some (.fmax o)
    | 7 => some (.feq o)
    | 8 => some (.flt o)
    | 9 => some (.fle o)
    | 10 => some (.fneg o)
    | 11 => some (.fabs o)
    | _ => none
  | 0x2c =>
    match fn with
    | 0 => some (.faddF32 o)
    | 1 => some (.fsubF32 o)
    | 2 => some (.fmulF32 o)
    | 3 => some (.fdivF32 o)
    | 4 => some (.fsqrtF32 o)
    | 5 => some (.fminF32 o)
    | 6 => some (.fmaxF32 o)
    | 7 => some (.feqF32 o)
    | 8 => some (.fltF32 o)
    | 9 => some (.fleF32 o)
    | 10 => some (.fnegF32 o)
    | 11 => some (.fabsF32 o)
    | _ => none
  | 0x2d =>
    match fn with
    | 0 => some (.cvtF64I64 o)
    | 1 => some (.cvtF64N64 o)
    | 2 => some (.cvtI64F64 o)
    | 3 => some (.cvtN64F64 o)
    | 4 => some (.cvtF32I64 o)
    | 5 => some (.cvtF32N64 o)
    | 6 => some (.cvtI64F32 o)
    | 7 => some (.cvtN64F32 o)
    | 8 => some (.cvtF32F64 o)
    | 9 => some (.cvtF64F32 o)
    | _ => none
  | _ => none

/-- The long-form map of R96. -/
noncomputable def buildLong (opc fn : Nat) (o : Lg) : Option Instr :=
  match opc with
  | 0x01 =>
    match fn with
    | 0 => some (.nopLong o)
    | _ => none
  | 0x02 => if fn < 16 then some (.guardedAluReg (BitVec.ofNat 6 fn) o) else none
  | 0x03 => if fn < 16 then some (.guardedAluImm (BitVec.ofNat 6 fn) o) else none
  | 0x04 => if fn < 14 then some (.guardedAlu2Reg (BitVec.ofNat 6 fn) o) else none
  | 0x05 => if fn < 14 then some (.guardedAlu2Imm (BitVec.ofNat 6 fn) o) else none
  | 0x06 => if fn < 7 then some (.guardedLd (BitVec.ofNat 6 fn) (.ofLg o)) else none
  | 0x07 => if fn < 4 then some (.guardedSt (BitVec.ofNat 6 fn) (.ofLg o)) else none
  | 0x08 =>
    match fn with
    | 0 => some (.fma o)
    | 1 => some (.mulWide o)
    | 2 => some (.muluWide o)
    | 3 => some (.csel o)
    | _ => none
  | 0x10 =>
    match fn with
    | 0 => some (.vaddInt o)
    | 1 => some (.vsubInt o)
    | 2 => some (.vmulInt o)
    | 3 => some (.vmulh o)
    | 4 => some (.vmulhu o)
    | 5 => some (.vminInt o)
    | 6 => some (.vminu o)
    | 7 => some (.vmaxInt o)
    | 8 => some (.vmaxu o)
    | 9 => some (.vand o)
    | 10 => some (.vor o)
    | 11 => some (.vxor o)
    | 12 => some (.vshl o)
    | 13 => some (.vshr o)
    | 14 => some (.vsra o)
    | 15 => some (.vabsInt o)
    | 16 => some (.vnegInt o)
    | 17 => some (.vaddSat o)
    | 18 => some (.vsubSat o)
    | 19 => some (.vadduSat o)
    | 20 => some (.vsubuSat o)
    | 21 => some (.vpop o)
    | 22 => some (.vclz o)
    | _ => none
  | 0x11 =>
    match fn with
    | 0 => some (.vaddF o)
    | 1 => some (.vsubF o)
    | 2 => some (.vmulF o)
    | 3 => some (.vdiv o)
    | 4 => some (.vsqrt o)
    | 5 => some (.vminF o)
    | 6 => some (.vmaxF o)
    | 7 => some (.vabsF o)
    | 8 => some (.vnegF o)
    | 9 => some (.vfma o)
    | 10 => some (.vfms o)
    | 11 => some (.vfnma o)
    | 12 => some (.vrcp o)
    | 13 => some (.vrsqrt o)
    | 14 => some (.vex2 o)
    | 15 => some (.vlg2 o)
    | 16 => some (.vcopysign o)
    | _ => none
  | 0x12 =>
    match fn with
    | 0 => some (.vcmpEq o)
    | 1 => some (.vcmpNe o)
    | 2 => some (.vcmpLt o)
    | 3 => some (.vcmpLe o)
    | 4 => some (.vcmpGt o)
    | 5 => some (.vcmpGe o)
    | 6 => some (.vcmpLtu o)
    | 7 => some (.vcmpLeu o)
    | 8 => some (.vcmpGtu o)
    | 9 => some (.vcmpGeu o)
    | _ => none
  | 0x13 =>
    match fn with
    | 0 => some (.vsel o)
    | 1 => some (.vmkl o)
    | 6 => some (.vmpop o)
    | 2 => some (.vbcast o)
    | 3 => some (.vmov o)
    | 4 => some (.vget o)
    | 5 => some (.vput o)
    | _ => none
  | 0x14 =>
    match fn with
    | 0 => some (.vperm o)
    | 1 => some (.vrot o)
    | 2 => some (.vcompress o)
    | 3 => some (.vexpand o)
    | _ => none
  | 0x15 =>
    match fn with
    | 0 => some (.vcvtF32I32 o)
    | 1 => some (.vcvtF32N32 o)
    | 2 => some (.vcvtI32F32 o)
    | 3 => some (.vcvtN32F32 o)
    | 4 => some (.vcvtF16F32 o)
    | 5 => some (.vcvtBf16F32 o)
    | 6 => some (.vcvtF32F16 o)
    | 7 => some (.vcvtF32Bf16 o)
    | 8 => some (.vcvtE4m3F32 o)
    | 9 => some (.vcvtF32E4m3 o)
    | 10 => some (.vcvtF64F32 o)
    | 11 => some (.vcvtF32F64 o)
    | 12 => some (.vcvtF64I32 o)
    | 13 => some (.vcvtI32F64 o)
    | 14 => some (.vcvtF16Bf16 o)
    | 15 => some (.vcvtBf16F16 o)
    | _ => none
  | 0x16 =>
    match fn with
    | 0 => some (.vredAdd o)
    | 1 => some (.vredMin o)
    | 2 => some (.vredMax o)
    | 3 => some (.vredAnd o)
    | 4 => some (.vredOr o)
    | 5 => some (.vredXor o)
    | 6 => some (.vredMinu o)
    | 7 => some (.vredMaxu o)
    | 8 => some (.vscanAdd o)
    | 9 => some (.vscanMin o)
    | 10 => some (.vscanMax o)
    | _ => none
  | 0x17 =>
    match fn with
    | 0 => some (.vqsh (.ofLg o))
    | 1 => some (.vdqsh (.ofLg o))
    | 2 => some (.vbaq (.ofLg o))
    | _ => none
  | 0x20 =>
    match fn with
    | 0 => some (.vld (.ofLg o))
    | 1 => some (.vlds (.ofLg o))
    | 2 => some (.vgather (.ofLg o))
    | 3 => some (.vldw (.ofLg o))
    | 4 => some (.vldl (.ofLg o))
    | _ => none
  | 0x21 =>
    match fn with
    | 0 => some (.vst (.ofLg o))
    | 1 => some (.vsts (.ofLg o))
    | 2 => some (.vscatter (.ofLg o))
    | 3 => some (.vstl (.ofLg o))
    | _ => none
  | 0x24 =>
    match fn with
    | 0 => some (.tld (.ofLg o))
    | 1 => some (.tst (.ofLg o))
    | 2 => some (.tldSplit (.ofLg o))
    | 3 => some (.tstSplit (.ofLg o))
    | _ => none
  | 0x28 =>
    match fn with
    | 0 => some (.ldsum (.ofLg o))
    | _ => none
  | _ => none

/-- The extended-form map of R97. -/
noncomputable def buildExt (opc fn : Nat) (lo : Low) (tail : BitVec 64) : Option Instr :=
  match opc with
  | 0x01 =>
    match fn with
    | 0 => some (.nopExt (.ofTail lo tail))
    | _ => none
  | 0x10 =>
    match fn with
    | 0 => some (.vexpr (.ofTail lo tail))
    | _ => none
  | 0x20 =>
    match fn with
    | 0 => some (.mclaim (.ofTail lo tail))
    | 1 => some (.mrel (.ofTail lo tail))
    | 2 => some (.macz (.ofTail lo tail))
    | _ => none
  | 0x21 =>
    match fn with
    | 0 => some (.mld (.ofTail lo tail))
    | 1 => some (.wload (.ofTail lo tail))
    | _ => none
  | 0x22 =>
    match fn with
    | 0 => some (.mma (.ofTail lo tail))
    | _ => none
  | 0x23 =>
    match fn with
    | 0 => some (.mseq (.ofTail lo tail))
    | _ => none
  | 0x24 =>
    match fn with
    | 0 => some (.macrd (.ofTail lo tail))
    | 1 => some (.macwr (.ofTail lo tail))
    | _ => none
  | 0x25 =>
    match fn with
    | 0 => some (.mfol (.ofTail lo tail))
    | _ => none
  | 0x30 =>
    match fn with
    | 0 => some (.cpy (.ofTail lo tail))
    | 1 => some (.cpyq (.ofTail lo tail))
    | _ => none
  | 0x31 =>
    match fn with
    | 0 => some (.cpyt (.ofTail lo tail))
    | 1 => some (.cpytCow (.ofTail lo tail))
    | _ => none
  | 0x38 =>
    match fn with
    | 0 => some (.lvrd (.ofTail lo tail))
    | 1 => some (.lvnb (.ofTail lo tail))
    | 2 => some (.lvnext (.ofTail lo tail))
    | _ => none
  | 0x3c =>
    match fn with
    | 0 => some (if tail == 1 then .gwqCount (.ofTail lo tail) else .gwqTake (.ofTail lo tail))
    | _ => none
  | _ => none

/-- The instruction of a word taken apart, or none where no map lists its major and function code (R98). -/
noncomputable def build : Raw → Option Instr
  | .short opc fn o => buildShort opc.toNat fn.toNat o
  | .long opc fn o => buildLong opc.toNat fn.toNat o
  | .ext opc fn lo tail => buildExt opc.toNat fn.toNat lo tail

/-- Bits [63:16] of a long or extended word (R83). -/
def lowOf (w : BitVec 128) : Low :=
  { d := w.extractLsb' 16 6, a := w.extractLsb' 22 6, b := w.extractLsb' 28 6, c := w.extractLsb' 34 6,
    e := w.extractLsb' 40 6, g1 := w.extractLsb' 46 4, g2 := w.extractLsb' 50 4, ty := w.extractLsb' 54 3,
    ch := w.extractLsb' 57 3, yld := w.extractLsb' 60 1, dly := w.extractLsb' 61 3 }

/-- Bits [63:16] of a long or extended word, packed. -/
def Low.bits (o : Low) : BitVec 48 :=
  o.dly ++ o.yld ++ o.ch ++ o.ty ++ o.g2 ++ o.g1 ++ o.e ++ o.c ++ o.b ++ o.a ++ o.d

/-- A word taken apart by its length code, bits [1:0] (R78); length code 11 is no instruction. -/
def takeApart (w : BitVec 128) : Option Raw :=
  let opc := w.extractLsb' 2 8
  match (w.extractLsb' 0 2).toNat with
  | 0 => some (.short opc (w.extractLsb' 28 4)
      { rd := w.extractLsb' 10 6, rs1 := w.extractLsb' 16 6, rs2 := w.extractLsb' 22 6, imm := w.extractLsb' 32 32 })
  | 1 => some (.long opc (w.extractLsb' 10 6) { toLow := lowOf w, imm := w.extractLsb' 64 32 })
  | 2 => some (.ext opc (w.extractLsb' 10 6) (lowOf w) (w.extractLsb' 64 64))
  | _ => none

/-- A word put together, zero above the instruction's length. -/
def Raw.word : Raw → BitVec 128
  | .short opc fn o => (0#64) ++ o.imm ++ fn ++ o.rs2 ++ o.rs1 ++ o.rd ++ opc ++ (0#2)
  | .long opc fn o => (0#32) ++ o.imm ++ o.toLow.bits ++ fn ++ opc ++ (1#2)
  | .ext opc fn lo tail => tail ++ lo.bits ++ fn ++ opc ++ (2#2)

/-- Length in bytes of a word, by its length code (R78): 8, 12 or 16. Length code 11 is no instruction; it takes the
eight bytes that IllegalOpcode reports (R42). -/
def lengthOf (w : BitVec 128) : Nat :=
  match (w.extractLsb' 0 2).toNat with
  | 1 => 12
  | 2 => 16
  | _ => 8

/-- Why the decoder refuses a word: IllegalOpcode (steps 2 and 4 of R94) or ReservedField (step 5). -/
inductive Reject where
  | illegalOpcode
  | reservedField
  deriving DecidableEq, Repr

/-- What the decoder makes of a word. -/
inductive Decoded where
  | instr (i : Instr)
  | reject (r : Reject)
  deriving DecidableEq, Repr

/-- Steps 2, 4 and 5 of R94, in that order, on a word taken apart. -/
def checkRaw (w : BitVec 128) : Except Reject Raw :=
  match takeApart w with
  | none => .error .illegalOpcode
  | some r =>
    match r.rule with
    | none => .error .illegalOpcode
    | some k =>
      if k.legal then
        if k.fieldsOK then .ok r else .error .reservedField
      else .error .illegalOpcode

/-- The decoder. -/
noncomputable def decode (w : BitVec 128) : Decoded :=
  match checkRaw w with
  | .error r => .reject r
  | .ok r =>
    match build r with
    | some i => .instr i
    | none => .reject .illegalOpcode

/-- The words of an instruction: its bits and its length in bytes; none for an event. -/
def encode (i : Instr) : Option (BitVec 128 × Nat) :=
  i.raw.map fun r => (r.word, lengthOf r.word)

/-- The word of sixteen bytes as they stand in memory, byte 0 in bits [7:0] (R5, R78). -/
def wordOfBytes : List (BitVec 8) → BitVec 128
  | [] => 0
  | b :: bs => (b.setWidth 128) ||| (wordOfBytes bs <<< 8)

/-- The bytes of a word, lowest first. -/
def bytesOfWord (w : BitVec 128) (n : Nat) : List (BitVec 8) :=
  (List.range n).map fun j => w.extractLsb' (8 * j) 8

/-- The instruction that the decoder reads from an instruction whose bits are `w`: its bytes in memory order, handed to
the decoder. Bits at and above the instruction's own length are not part of it. -/
noncomputable def decodeTableWord (nbits w : Nat) : Option Instr :=
  let v := BitVec.ofNat 128 (w % 2 ^ nbits)
  let word := wordOfBytes (bytesOfWord v (lengthOf v))
  match decode word with
  | .instr i => some i
  | .reject _ => none

end Sys2Proof
end

