-- ==== Sys2Proof/Machine/Sync.lean ====
section
/-!
DEFINITION. Waiting and group synchronisation: `wait` (07 R203; 12 R341), event lines (R209), group barriers (R210, R211)
with the checkpoints of rollback teams (18 R390), roles and messages (08 R252 to R254), `sfence` and `mark` (07 R200, R201).
-/

namespace Sys2Proof.Machine

open Sys2Proof

/-- A part of a meaning is run for a context other than the current one. -/
def asKey {α : Type} (key : Nat) (m : M α) : M α := do
  let old := (← get).cur
  modify fun s => { s with cur := key }
  let r ← m
  modify fun s => { s with cur := old }
  return r

/-! ### wait -/

/-- The word that a `wait` tests, where it lies in this package: it is read as a load reads it (R173, R203). -/
def waitWord (va : Nat) : M Word := do
  match ← resolve (← curEnv) va 8 accRead with
  | .mem p mt =>
    if mt != 3 then
      let via := loadVia false (coreOfKey (← curKey))
      lineFree via p
      modify (lineRead via 0 p)
    let s ← get
    if s.gatewayPost s.cur p 8 then heldAgain
    return BitVec.ofNat 64 (leNat (s.ownBytes s.cur p 8))
  | .bank p =>
    let via := loadVia false (coreOfKey (← curKey))
    lineFree via p
    modify (lineRead via 0 p)
    let s ← get
    if s.gatewayPost s.cur p 8 then heldAgain
    return BitVec.ofNat 64 (leNat (s.bytes p 8))
  | .regs off => return regRead (← get) off
  | _ => noAperture va

/-- A `wait` sleeps until its word is written again (R203, R341). -/
def sleepOn (va : Nat) (v : Word) (ne : Bool) (scope : Nat) : M Unit := do
  modify fun s => s.modCtx s.cur fun c => { c with tested := s.wlog.length }
  throw (.hold (.word (BitVec.ofNat 57 va) v ne scope) true)

/-- `wait.eq` and `wait.ne` (07 R203): tested at issue, and the context sleeps where the test fails. A window address is
read by a request, whose answer is the test at issue: until it is there the context is Held (DEDUCED, log entry 13). Where its
device is judged lost, the context sleeps at once, with no test and no PeerLost, until the answer of a later poll: R194 and
R398 do not list `wait` (DESIGN CHOICE, log entry 74). -/
def waitForm (ne : Bool) (o : ShM) (s : State) : Outcome :=
  short (do
    let va ← memEa o
    let v ← useX o.rs2.toNat
    let scope := o.scp.toNat
    aligned va 8
    memOrder false
    if va / 2 ^ 55 % 4 = 3 then
      let s ← get
      let dev := windowDev va
      if !(s.ownWindow s.cur va 8).isEmpty || s.lineAwaited s.cur va then heldAgain
      else
        if s.unreachable dev then sleepOn va v ne scope
        else
          request (.poll v ne scope) va [(dev, BitVec.ofNat 57 va, 8)]
          awaitResponse
    else
      let w ← waitWord va
      if (w == v) != ne then
        noteWatch true false va 8
        acquire scope
      else sleepOn va v ne scope) s

/-- `wait.eq` (07 R203). -/
def execWaitEq (o : ShM) (s : State) : Outcome := waitForm false o s

/-- `wait.ne` (07 R203). -/
def execWaitNe (o : ShM) (s : State) : Outcome := waitForm true o s

/-- Whether a context sleeps in a `wait`, its core gated or not. -/
def Ctx.inWait (c : Ctx) : Bool := c.st == .sleeping || (c.st == .gated && c.saved == .sleeping)

/-- Whether a write to the line of a sleeping `wait`'s word has been made since its last test (R341). Where the word lies in no
memory, its accesses have no side, so that it is tested all the time; where its translation fails now, any write counts
(DEDUCED, log entry 13). -/
def State.lineRewritten (s : State) (key va : Nat) : Bool :=
  let since := s.wlog.filter fun w => decide ((s.ctx key).tested < w.n)
  match (asKey key (do resolve (← curEnv) va 8 accRead)).run s with
  | .ok (.mem p _) _ => since.any fun w => !w.old.isEmpty && decide (lineOf w.place ≤ lineOf p ∧ p < lineOf (w.place + w.old.length - 1) + 128)
  | .ok _ _ => true
  | .error _ _ => !since.isEmpty

/-- The word of a sleeping `wait` is read again and tested (R341). -/
def retest (key va : Nat) (v : Word) (ne : Bool) (scope : Nat) (s : State) : State :=
  match (asKey key (waitWord va)).run s with
  | .ok w s =>
    if (w == v) != ne then
      acquireCtx key scope (completeWith key shortNext none (watchTrap s key true false va 8) (fun c => c) s)
    else s.modCtx key fun c => { c with tested := s.wlog.length }
  | .error (.trap t) s' =>
    let s := { s' with cur := s.cur }
    let pc := (s.ctx key).pc
    takeTrap key pc pc t (s.modCtx key Ctx.wake)
  | .error _ s' => keepMisses s s'

/-- WAIT_RETEST (R341): after a write to its line, a sleeping `wait` on a translated address or a local aperture tests
again (DEDUCED, log entry 13). -/
def execWaitRetest (key : Nat) (s : State) : Outcome :=
  event (do
    let c := (← get).ctx key
    match c.wait with
    | .word va v ne scope =>
      enabled (c.inWait && decide (va.toNat / 2 ^ 55 % 4 < 2) && (← get).lineRewritten key va.toNat)
      modify (retest key va.toNat v ne scope)
    | _ => enabled false) s

/-- WAIT_POLL (R203): a `wait` on a peer aperture reads its word, one on the window sends a request. -/
def execWaitPoll (key : Nat) (s : State) : Outcome :=
  event (do
    let s ← get
    let c := s.ctx key
    match c.wait with
    | .word va v ne scope =>
      enabled (c.inWait && decide (2 ≤ va.toNat / 2 ^ 55 % 4))
      if va.toNat / 2 ^ 55 % 4 = 2 then modify (retest key va.toNat v ne scope)
      else
        let dev := windowDev va.toNat
        if !(s.unreachable dev || s.lineAwaited key va.toNat) then
          asKey key (request (.poll v ne scope) va.toNat [(dev, va, 8)])
    | _ => enabled false) s

/-! ### Event lines -/

/-- `evw`: the load of a line of the cluster's own unit, which sleeps only the issuing context (07 R209). -/
def execEvw (o : Sh) (s : State) : Outcome :=
  short (do
    let cl := clusterOfCore (coreOfKey (← curKey))
    lineLoad cl (o.imm.toNat % 64) o.rd shortNext 0 false) s

/-- `evs`: a store of payload 0 to a line of the cluster's own unit (07 R209). -/
def execEvs (o : Sh) (s : State) : Outcome :=
  short (do
    releaseWait 4
    modify fun s => fireLine (clusterOfCore (coreOfKey s.cur)) (o.imm.toNat % 64) 0 (uncover s.cur s)) s

/-- GATED_LOAD_COMPLETE (R208): a gating load that has been served completes, and its core's contexts resume. -/
def execGatedLoadComplete (core : Nat) (s : State) : Outcome :=
  event (do
    let s ← get
    match s.clusters.findSome? fun p => (p.2.waiters.find? fun w => w.gate && w.served.isSome && coreOfKey w.key == core).map
        fun w => (p.1, w) with
    | some (cl, w) => modify fun s => completeWaiter w (w.served.getD 0) (dropWaiter cl w.key s)
    | none => enabled false) s

/-! ### Group barriers -/

/-- The role that a context runs as in a group (R252): its home core's place among the members
(DEDUCED, log entry 20). -/
def State.roleOf (s : State) (key : Nat) (g : Group) : Option Nat :=
  let c := s.ctx key
  let r := g.members.idxOf c.homeCore
  if r < g.members.length then some r else none

/-- Arrivals of a role that a `bard` has recorded and the hardware has not yet made. -/
def State.deferred (s : State) (l g r : Nat) : Nat :=
  (s.bards.filter fun b => b.launch == l && b.group == g && b.role == r).length

/-- Arrivals of a role, deferred ones included (R211). -/
def State.arrivals (s : State) (l g r : Nat) : Nat := Tbl.get 0 (s.launch l).arrivals (bindKey g r)

/-- How many phases of a group have completed: the fewest arrivals made by any role (R211). -/
def State.phases (s : State) (l : Nat) (g : Group) : Nat :=
  match (List.range g.members.length).map fun r => s.arrivals l g.g r - s.deferred l g.g r with
  | [] => 0
  | a :: t => t.foldl min a

/-- A team's checkpoint (R390): each member's state as it is when its `bar` returns. Its log entries go, and the interval
is covered again. -/
def teamCheckpoint (l : Nat) (g : Group) (s : State) : State :=
  if !g.rb then s
  else
    let s := (s.teamMembers l g).foldl (fun s k =>
      s.modCtx k fun c =>
        let arr := s.arrivals l g.g ((s.roleOf k g).getD 0)
        let c' := if c.barred.isSome then { c with pc := c.pc + 8 } else c
        { c with check := some (c'.checkpoint arr) }) s
    let s := s.modLaunch l fun u => { u with uncovered := u.uncovered.filter (· != g.g) }
    (s.clusters.map (·.1)).foldl (fun s cl => s.modCluster cl fun c =>
      { c with undo := c.undo.filter fun e => !(e.launch == l && e.team == g.g), ovf := c.ovf.filter (· != (l, g.g)) }) s

/-- An arrival of a role is recorded. -/
def addArrival (l g r : Nat) (s : State) : State :=
  s.modLaunch l fun u => { u with arrivals := Tbl.set 0 u.arrivals (bindKey g r) (Tbl.get 0 u.arrivals (bindKey g r) + 1) }

/-- What follows an arrival that has been made: a checkpoint where a phase of a team completed. -/
def afterArrival (l : Nat) (g : Group) (before : Nat) (s : State) : State :=
  if s.phases l g > before then teamCheckpoint l g s else s

/-- An instruction of 8 bytes whose group is checked with the limits of its fields, before the prefix (R94). -/
def groupForm {α : Type} (check : M α) (body : α → M Unit) (s : State) : Outcome :=
  outcome (do
    if (← get).mayIssue s.cur then
      let a ← check
      instr false 0 (do body a; nextPc 8)
    else throw (.refuse .noContext)) s

/-- The group that a barrier names: one of the core's groups, and in a team only `bar` is accepted (R210, R390)
(DEDUCED, log entry 20). -/
def barGroup (o : Sh) (plain : Bool) : M (Nat × Group × Nat) := do
  let s ← get
  let c := s.ctx s.cur
  let g := o.imm.toNat % 256
  match (s.launch c.launch).group g with
  | none => reserved
  | some gr =>
    if !c.grp.contains g || (gr.rb && !plain) then reserved
    else match s.roleOf s.cur gr with
      | none => reserved
      | some r => return (c.launch, gr, r)

/-- A renegotiation that would change the grant waits for the vector instructions in flight (R137), and while lanes that a
trap removed are still to be spilled (R20). -/
def grantQuiet : M Unit := do
  let s ← get
  if (s.ctx s.cur).spillDue then heldAgain
  else if (s.ctx s.cur).pend.any (fun p => !p.op.isMatrix) && renegotiated s.cur s != (s.ctx s.cur).grant then heldAgain

/-- A renegotiation point (R18). -/
def renegotiateCur : M Unit := modify fun s => renegotiate s.cur s

/-- `bara`: one arrival; it waits only while the role is a phase ahead (07 R211). A context that waits so is Sleeping, as in
`bar`: R311 names no state for it (DESIGN CHOICE, log entry 63). -/
def execBara (o : Sh) (s : State) : Outcome :=
  groupForm (barGroup o false) (fun (l, g, r) => do
    grantQuiet
    let s ← get
    if s.arrivals l g.g r > s.phases l g then sleepAgain
    else
      releaseWait 4
      let n := s.phases l g
      modify fun s => afterArrival l g n (addArrival l g.g r s)
      renegotiateCur) s

/-- The phase that a `barw` of a group waits for: that of the role's latest arrival when it issued, the same when it runs
again (R211, R413). -/
def Ctx.barwPhase (c : Ctx) (g latest : Nat) : Nat :=
  match c.barw.find? fun b => b.1 == c.priv && b.2.1 == c.pc && b.2.2.1 == g with
  | some b => b.2.2.2
  | none => latest

/-- `barw`: waits until the phase of the role's latest arrival has completed (07 R211). -/
def execBarw (o : Sh) (s : State) : Outcome :=
  groupForm (barGroup o false) (fun (l, g, r) => do
    let s ← get
    let c := s.ctx s.cur
    let k := c.barwPhase g.g (s.arrivals l g.g r)
    modCur fun c => { c with barw := (c.priv, c.pc, g.g, k) :: c.barw.filter fun b => b.1 != c.priv }
    grantQuiet
    if s.phases l g < k then sleepAgain
    else
      acquire 4
      renegotiateCur) s

/-- `bar`: `bara` and then `barw` (07 R211). The arrival is made once; the wait for its phase goes on until it
completes. -/
def execBar (o : Sh) (s : State) : Outcome :=
  groupForm (barGroup o true) (fun (l, g, r) => do
    grantQuiet
    let s ← get
    match (s.ctx s.cur).barred with
    | some (_, k) =>
      if s.phases l g < k then sleepAgain
      else
        modCur fun c => { c with barred := none }
        acquire 4
        renegotiateCur
    | none =>
      if s.arrivals l g.g r > s.phases l g then sleepAgain
      else
        releaseWait 4
        let n := s.phases l g
        let k := s.arrivals l g.g r + 1
        modify fun s =>
          afterArrival l g n (addArrival l g.g r (s.modCtx s.cur fun c => { c with barred := some (g.g, k) }))
        if (← get).phases l g < k then sleepAgain
        else
          modCur fun c => { c with barred := none }
          acquire 4
          renegotiateCur) s

/-- `bard`: an arrival that the hardware makes when the copies that the context issued before it have landed (07 R211; 08
R240). -/
def execBard (o : Sh) (s : State) : Outcome :=
  groupForm (barGroup o false) (fun (l, g, r) => do
    grantQuiet
    let id ← newId
    modify fun s =>
      let ids := (s.copies.filter fun c => c.key == some s.cur).map (·.id)
      { (addArrival l g.g r s) with
        bards := s.bards ++ [{ id := id, launch := l, group := g.g, role := r, key := s.cur, copies := ids }] }
    renegotiateCur) s

/-- BARD_ARRIVAL (R240): every bound copy has completed or faulted, and the context's earlier accesses are performed. -/
def execBardArrival (id : Nat) (s : State) : Outcome :=
  event (do
    let s ← get
    match s.bards.find? (·.id == id) with
    | none => enabled false
    | some b =>
      enabled (!s.copies.any (fun c => b.copies.contains c.id && !c.faulted) &&
        !s.posts.any (fun p => p.key == b.key && decide (p.id < b.id) && p.st != .lost && p.copy.isNone &&
          p.marker.isNone && (p.dest == hostDest || destWithin s 4 p)) &&
        !(s.ctx b.key).pend.any fun p => p.op.memRead || p.op.memWrite)
      match (s.launch b.launch).group b.group with
      | none => modify fun s => { s with bards := s.bards.filter (·.id != id) }
      | some g =>
        let n := s.phases b.launch g
        modify fun s => afterArrival b.launch g n { s with bards := s.bards.filter (·.id != id) }) s

/-! ### Roles and messages -/

/-- The group that an instruction names in SEL[7:0]; one that the launch does not define raises ReservedField (R252). -/
def namedGroup (o : Sh) : M (Nat × Group) := do
  let s ← get
  let l := (s.ctx s.cur).launch
  match (s.launch l).group (o.imm.toNat % 256) with
  | none => reserved
  | some g => return (l, g)

/-- `role`: the package core that a role is bound to; all ones for a role beyond the group (08 R252). -/
def execRole (o : Sh) (s : State) : Outcome :=
  groupForm (namedGroup o) (fun (l, g) => do
    let r ← useX o.rs1.toNat
    let s ← get
    writeX o.rd (if r.toNat < g.members.length then
        match (s.launch l).place g.g r.toNat with
        | some k => BitVec.ofNat 64 (coreOfKey k)
        | none => BitVec.allOnes 64
      else BitVec.allOnes 64)) s

/-- `gsize` (08 R252). -/
def execGsize (o : Sh) (s : State) : Outcome :=
  groupForm (namedGroup o) (fun (_, g) => writeX o.rd (BitVec.ofNat 64 g.members.length)) s

/-- `grank`: the role that the context runs as; all ones where it is no member (08 R252). -/
def execGrank (o : Sh) (s : State) : Outcome :=
  groupForm (namedGroup o) (fun (_, g) => do
    let s ← get
    writeX o.rd (match s.roleOf s.cur g with
      | some r => BitVec.ofNat 64 r
      | none => BitVec.allOnes 64)) s

/-- The slot that a message to context `c` of a role reaches: the role's own context for 0, else the helper of that
number, wherever it runs, or the slot of that number (R253, R318, R379) (DEDUCED, log entry 20). -/
def State.mailTarget (s : State) (place c : Nat) : Nat :=
  if c = 0 then place
  else
    match s.ctxs.find? fun p => p.2.live && p.2.owner == some place && p.2.number == c with
    | some p => p.1
    | none =>
      match s.ctxs.find? fun p => p.2.live && p.2.home == some (keyOf (coreOfKey place) c) with
      | some p => p.1
      | none => keyOf (coreOfKey place) c

/-- Whether the overflow store of its die holds a message for a context (R253). -/
def State.parkedFor (s : State) (key : Nat) : Bool := (s.die (dieOfCore (coreOfKey key))).parked.any (·.key == key)

/-- `send` (08 R253). -/
def execSend (o : Sh) (s : State) : Outcome :=
  groupForm (namedGroup o) (fun (l, g) => do
    let v ← useX o.rs1.toNat
    let r ← useX o.rs2.toNat
    let c := o.imm.toNat / 256 % 16
    if r.toNat ≥ g.members.length then reserved
    else
      releaseWait 4
      let s ← get
      match (s.launch l).place g.g r.toNat with
      | none => reserved
      | some place =>
        let key := s.mailTarget place c
        let t := s.ctx key
        let die := dieOfCore (coreOfKey key)
        if t.st == .absent || t.st == .migrating then
          if (s.die die).parked.length ≥ 4096 then sleepAgain
          else
            modify fun s => uncover s.cur (s.modDie die fun d => { d with parked := d.parked ++ [{ key := key, v := v }] })
            if t.st == .absent && (s.launch l).mat then
              modify fun s => { s with after := some (afterTrap 18 c (BitVec.ofNat 64 (g.g * 65536 + r.toNat))) }
        else if decide (t.mail.length ≥ 8) || s.parkedFor key then sleepAgain
        else modify fun s => uncover s.cur (s.modCtx key fun t => { t with mail := t.mail ++ [v] })) s

/-- Parked messages for a context that is present are delivered in send order, as far as its mailbox has room: when it is
present again, and whenever it removes one (R253, R254, R318, R376). -/
def deliverParked (key : Nat) (s : State) : State :=
  let die := dieOfCore (coreOfKey key)
  let (mine, rest) := (s.die die).parked.partition (·.key == key)
  let room := 8 - (s.ctx key).mail.length
  let s := s.modCtx key fun c => { c with mail := c.mail ++ (mine.take room).map (·.v) }
  s.modDie die fun d => { d with parked := mine.drop room ++ rest }

/-- `recv` (08 R254). -/
def execRecv (o : Sh) (s : State) : Outcome :=
  short (do
    match (← curCtx).mail with
    | [] => sleepAgain
    | v :: t =>
      modCur fun c => { (c.setX o.rd.toNat v) with mail := t }
      modify fun s => deliverParked s.cur s
      acquire 4) s

/-! ### sfence and mark -/

/-- `sfence` (07 R200): the status is 0, or names the lowest lost device of a store on the streams. The dispatched
instructions that store on a named stream are earlier stores too, and their lines are posted only as they act. -/
def execSfence (o : Sh) (s : State) : Outcome :=
  short (do
    let s ← get
    let key := s.cur
    let mine := s.posts.filter fun p => p.key == key && o.streams.getLsbD p.stream && p.copy.isNone && p.marker.isNone &&
      p.dest != hostDest && destWithin s o.scope24.toNat p
    if (s.ctx key).pend.any fun p => p.op.stream.any fun n => o.streams.getLsbD n then heldAgain
    else if mine.any (·.st != .lost) then heldAgain
    else
      let lost := mine.map (·.dest)
      modify fun s => { s with posts := s.posts.filter fun p => !(mine.any fun q => q.id == p.id) }
      match lost with
      | [] => writeX o.rd 0
      | _ =>
        let d := lost.foldl min 4096
        writeX o.rd (BitVec.ofNat 64 (2 ^ 63 + d))
        unanswered d) s

/-- The destination that an address names for `mark` (R201): none where nothing is sent. -/
def markDest (va : Nat) : M (Option Nat) := do
  let s ← get
  let e := s.envOf s.cur
  let space := va / 2 ^ 55 % 4
  let named := fun (va : Nat) => (do
    let (pa, mt) ← translate e va accWrite
    return if mt = 3 ∨ mt = 4 then none else (homeDie pa).map dieDest : M (Option Nat))
  if space = 3 then return some (windowDev va)
  else if space = 0 then named va
  else if space = 1 ∧ va / 2 ^ 52 % 8 = 3 then
    let l := s.launch e.launch
    if va % 2 ^ 52 < l.psize then named (e.privateVa l (va % 2 ^ 52)) else noAperture va
  else noAperture va

/-- `mark`: a marker on each of the sixteen streams to a destination (07 R201). It waits for the context's dispatched
instructions that store, whose lines come before the markers. -/
def execMark (o : Sh) (s : State) : Outcome :=
  short (do
    let x ← useX o.rs1.toNat
    let va := x.toNat % 2 ^ 57
    match ← markDest va with
    | none => pure ()
    | some dest =>
      let s ← get
      let key := s.cur
      let core := coreOfKey key
      if (s.ctx key).pend.any fun p => p.op.stream.isSome then heldAgain
      else if !(decide (dest < 2048) && s.unreachable dest) &&
          (List.range 16).any fun t => decide ((s.stream core t dest).unacked ≥ 64) || s.markPending core t dest then heldAgain
      else
        let m ← newId
        for t in List.range 16 do
          let id ← newId
          addPost { id := id, key := key, core := core, slot := slotOfKey key, launch := (s.ctx key).launch, stream := t,
                    dest := dest, seq := 0, st := .waiting, va := BitVec.ofNat 57 va, place := 0, bytes := [],
                    marker := some m, copy := none }) s

/-- A waiting posted line or marker takes its number and is sent, where nothing holds it (R196, R201). -/
def sendPost (id : Nat) : M Unit := do
  let s ← get
  match s.posts.find? (·.id == id) with
  | none => enabled false
  | some p =>
    let (q, s') := stampPost p s
    enabled (p.st == .waiting && q.st == .sent)
    set (modPost id (fun _ => q) s')

/-- STREAM_SEND (R196). -/
def execStreamSend (id : Nat) (s : State) : Outcome := event (sendPost id) s

/-- MARK_STAMP (R201): the marker of `mark` number `id` on a stream is stamped behind the last line of the copies that
come before it. -/
def execMarkStamp (id stream : Nat) (s : State) : Outcome :=
  event (do
    let s ← get
    match s.posts.find? fun p => p.marker == some id && p.stream == stream && p.st == .waiting with
    | none => enabled false
    | some p => sendPost p.id) s

end Sys2Proof.Machine
end

