-- ==== Sys2Proof/Machine/Level.lean ====
section
/-!
DEFINITION. Level-gated blocks (11 R323 to R332; 08 R248 to R251): the level table as it lies in memory, the order of its
blocks, the start of contexts (11 R313, R321; 16 R361, R362), the block scheduler of a die, and the level instructions.
-/

namespace Sys2Proof.Machine

open Sys2Proof

/-! ### The level table -/

/-- A unit that acts for a launch, at privilege 1 and without a translation cache. -/
def State.launchEnv (s : State) (l : Nat) : Env :=
  let u := s.launch l
  { core := 0, tlb := false, launch := l, ptroot := u.ptroot, asid := u.asid, priv := 1, mig := false, pslot := 0
    imageOf := none }

/-- The place of a device-virtual address of a launch, for a kind of access. -/
def State.launchPlace (s : State) (l va kind : Nat) : Option Nat :=
  match (do physLoc va (← translate (s.launchEnv l) (va % 2 ^ 57) kind).1 0).run s with
  | .ok (.mem p _) _ => some p
  | _ => none

/-- Bytes at a device-virtual address of a launch, each where its page lies; 0 for those that cannot be read
(DEDUCED, log entry 27). -/
def State.launchBytes (s : State) (l va n : Nat) : List Byte :=
  (linePieces (n / 128 + 2) (va % 2 ^ 57) n).flatMap fun q =>
    match s.launchPlace l q.1 accRead with
    | some p => s.bytes p q.2
    | none => List.replicate q.2 0

/-- `n` bytes at a device-virtual address of a launch, as a number. -/
def State.launchNat (s : State) (l va n : Nat) : Nat := leNat (s.launchBytes l va n)

/-- Bytes at a device-virtual address of a launch are written by the hardware, each where its page lies, with the bits that its
walks set (R367); where they cannot be, nothing is written (DEDUCED, log entry 27). -/
def launchWrite (l va : Nat) (bs : List Byte) (s : State) : State :=
  ((linePieces (bs.length / 128 + 2) (va % 2 ^ 57) bs.length).foldl (fun (a : List Byte × State) q =>
    (a.1.drop q.2,
      match (do physLoc q.1 (← translate (a.2.launchEnv l) q.1 accTable).1 0).run a.2 with
      | .ok (.mem p _) s' => devWrite p (a.1.take q.2) s'
      | _ => a.2)) (bs, s)).2

/-- The page of an address of a launch is about to be used by the hardware: its walk sets its bits, and where it waits, the
use waits (R367). Memory that is lost faults where the use is `strict` (R401) (DEDUCED, log entry 27). -/
def usePage (strict : Bool) (l va kind : Nat) : M Unit := do
  let s ← get
  match (do physLoc va (← translate (s.launchEnv l) (va % 2 ^ 57) kind).1 0).run s with
  | .ok _ s' => set s'
  | .error (.hold w sl) s' =>
    modify fun s => keepMisses s s'
    throw (.hold w sl)
  | .error e s' =>
    match e with
    | .trap t => if strict && t.code == 23 then do
        set s'
        throw e
    | _ => pure ()

/-- The numbered blocks of `u` bytes that `n` bytes from an address touch. -/
def blocksOf (u va n : Nat) : List Nat :=
  (List.range (if n = 0 then 0 else (va % u + n + u - 1) / u)).map fun i => va / u * u + u * i

/-- A line at a device-virtual address of a launch is about to be used at its home: it is read there, or can be written; one
that cannot be now makes the use wait (R189, R273, R307, R348). -/
def useLine (l va kind : Nat) : M Unit := do
  match (← get).launchPlace l va accRead with
  | some p =>
    if needsDirty kind then lineWritable .home p
    else do
      lineFree .home p
      modify (lineRead .home 0 p)
  | none => pure ()

/-- The pages of `n` bytes from an address of a launch are about to be used, and their lines. -/
def usePagesAs (strict : Bool) (l va n kind : Nat) : M Unit := do
  for a in blocksOf 4096 va n do
    usePage strict l a kind
  for a in blocksOf 128 va n do
    useLine l a kind

/-- The pages and lines of a table of a launch are about to be used; memory that is lost faults (R401). -/
def usePages (l va n kind : Nat) : M Unit := usePagesAs true l va n kind

/-- The report of a fault that no context takes (R364, R365, R401). -/
def faultReport (t : Trap) : Report := { status := 1, code := t.code.toNat, sub := t.sub.toNat, b := t.at'.setWidth 64 }

/-- A condition of an event of the hardware for an entry: what would wait in an instruction keeps the event from happening,
which began in `s0`, and a fault ends the entry (R364, R401) (DEDUCED, log entry 27). -/
def unheld (s0 : State) (q : Nat) (m : M Unit) : M Unit := do
  match m.run (← get) with
  | .ok _ s' => set s'
  | .error (.trap t) s' =>
    set (endLaunch q (faultReport t) s')
    heldAgain
  | .error _ s' =>
    set s0
    waitsAt s0 s'
    heldAgain

/-- LTAB (R360). -/
def Launch.ltab (u : Launch) : Nat := u.f 0x40 8 % 2 ^ 57

/-- NBLK (R360). -/
def Launch.nblk (u : Launch) : Nat := u.f 0x48 4 % 2 ^ 17

/-- `n` bytes at an offset of a block's descriptor (R323). -/
def State.desc (s : State) (l b off n : Nat) : Nat := s.launchNat l ((s.launch l).ltab + 64 * b + off) n

/-- The scheduler writes a field of a descriptor (R323). -/
def setDesc (l b off : Nat) (bs : List Byte) (s : State) : State :=
  launchWrite l ((s.launch l).ltab + 64 * b + off) bs s

/-- The scheduler is about to write a block's descriptor, which its home can do now (R307, R367) (DEDUCED, log entry 27). -/
def useDesc (l b : Nat) : M Unit := do usePages l (((← get).launch l).ltab + 64 * b) 64 accTable

/-- LEVEL of a block. -/
def State.level (s : State) (l b : Nat) : BitVec 32 := BitVec.ofNat 32 (s.desc l b 0 4)

/-- STEP of a block. -/
def State.step' (s : State) (l b : Nat) : BitVec 32 := BitVec.ofNat 32 (s.desc l b 4 4)

/-- RULE, INF and DONE of a block in bits [4:0]. -/
def State.blockBits (s : State) (l b : Nat) : Nat := s.desc l b 8 1

/-- INF of a block. -/
def State.inFlight (s : State) (l b : Nat) : Bool := s.blockBits l b / 8 % 2 == 1

/-- DONE of a block. -/
def State.blockDone (s : State) (l b : Nat) : Bool := s.blockBits l b / 16 % 2 == 1

/-- INF and DONE are written. -/
def setBlockBits (l b : Nat) (inf done : Bool) (s : State) : State :=
  let v := s.blockBits l b % 8 + (if inf then 8 else 0) + (if done then 16 else 0)
  setDesc l b 8 [BitVec.ofNat 8 v] s

/-- The neighbours of a block (R323): whether on another device, that device, and the index
(DEDUCED, log entry 27). -/
def State.neighbours (s : State) (l b : Nat) : List (Bool × Nat × Nat) :=
  (List.range (s.desc l b 9 1 % 32)).map fun i =>
    let w := s.launchNat l (s.desc l b 0x18 8 + 4 * i) 4
    (w / 2 ^ 31 % 2 == 1, w / 2 ^ 16 % 2048, w % 65536)

/-- The level table and its neighbour lists are about to be used, each line read once at its home: a page that is being migrated
makes the use wait, as does a write of the hardware that waits for the host (R305, R307, R348, R367) (DEDUCED, log entry 27). -/
def useTable (l : Nat) : M Unit := do
  if !(← get).late.isEmpty then heldAgain
  let u := (← get).launch l
  usePages l u.ltab (64 * u.nblk) accRead
  for b in List.range u.nblk do
    let s ← get
    usePages l (s.desc l b 0x18 8) (4 * (s.desc l b 9 1 % 32)) accRead

/-- Level, step and DONE of a neighbour: a local one by its descriptor, a remote one by its newest notice, or as loaded
there before the first arrives (R326). -/
def State.neighbour (s : State) (l : Nat) (n : Bool × Nat × Nat) : BitVec 32 × BitVec 32 × Bool :=
  if n.1 then
    let u := s.launch l
    match u.notices.find? fun p => p.1 == n.2.1 * 65536 + n.2.2 with
    | some p => p.2
    | none => Config.remoteBlock u.loadNo n.2.1 n.2.2
  else (s.level l n.2.2, s.step' l n.2.2, s.blockDone l n.2.2)

/-- Whether two levels lie 2³⁰ or more apart (R326, R251). -/
def spanTooWide (a b : BitVec 32) : Bool := decide ((a - b).toInt.natAbs ≥ 2 ^ 30)

/-- The first member of Key (R327). -/
def keyOf32 (floor level step : BitVec 32) : Int := (level + step - floor).toInt

/-- A 3-bit coefficient (R325). -/
def coeff (w : Word) (lo : Nat) : Int := (signExt 3 (field w lo 3)).toInt

/-- Whether a present clause of a rule holds (R325, R326). -/
def clauseHolds (w : Word) (lb sb ln sn : Int) : Bool :=
  let left := coeff w 0 * lb + coeff w 3 * sb + (signExt 16 (field w 32 16)).toInt
  let right := coeff w 6 * ln + coeff w 9 * sn + (signExt 16 (field w 48 16)).toInt
  match field w 12 2 with
  | 0 => decide (left ≤ right)
  | 1 => decide (left < right)
  | 2 => decide (right ≤ left)
  | _ => decide (right < left)

/-- Whether a rule's present clauses hold. -/
def ruleHolds (r : Word × Word) (lb sb ln sn : Int) : Bool :=
  (!r.1.getLsbD 14 || clauseHolds r.1 lb sb ln sn) && (!r.2.getLsbD 14 || clauseHolds r.2 lb sb ln sn)

/-- How one neighbour stands to a block that would run (R326): it lets it, it holds it back, or their levels lie too far
apart. -/
inductive Gate where
  | lets
  | holds
  | span
  deriving DecidableEq, Repr

/-- The test of one neighbour, apart from deterministic mode (R326) (DEDUCED, log entry 27). -/
def State.neighbourGate (s : State) (l b : Nat) (n : Bool × Nat × Nat) : Gate :=
  let u := s.launch l
  let lb := s.level l b
  let sb := s.step' l b
  let (ln, sn, done) := s.neighbour l n
  if !n.1 && s.inFlight l n.2.2 then .holds
  else if done then .lets
  else if spanTooWide ln lb then .span
  else
    let d := (ln - lb).toInt
    let r := u.rules.getD (s.blockBits l b % 8) (0, 0)
    if ruleHolds r lb.toInt sb.toNat (lb.toInt + d) sn.toNat then .lets else .holds

/-- Whether a neighbour that is not done holds a block of a deterministic launch back by its key (R326, R340). -/
def State.keyHolds (s : State) (l b : Nat) (n : Bool × Nat × Nat) : Bool :=
  let u := s.launch l
  let (ln, sn, done) := s.neighbour l n
  let mine := keyOf32 u.floor (s.level l b) (s.step' l b)
  let theirs := keyOf32 u.floor ln sn
  u.det && !done && (decide (theirs < mine) || (theirs == mine && decide (n.2.2 < b)))

/-- Whether a block is runnable, or the neighbour from which it lies too far: the keys of a deterministic launch are looked
at after every neighbour has been tested (R326). -/
def State.runnable (s : State) (l b : Nat) : Bool × Option Nat :=
  if s.blockDone l b || s.inFlight l b then (false, none)
  else
    let ns := s.neighbours l b
    let a := ns.foldl (fun (a : Bool × Option Nat) n =>
      if !a.1 then a
      else match s.neighbourGate l b n with
        | .lets => a
        | .holds => (false, none)
        | .span => (false, some n.2.2)) (true, none)
    if a.1 && ns.any (s.keyHolds l b) then (false, none) else a

/-- The core that a block's home role is bound to (R320, R328). -/
def State.blockCore (s : State) (l b : Nat) : Option Nat :=
  ((s.launch l).place (s.desc l b 0xE 1) (s.desc l b 0xC 2)).map coreOfKey

/-- The blocks homed on a die (DEDUCED, log entry 27). -/
def State.dieBlocks (s : State) (l die : Nat) : List Nat :=
  (List.range (s.launch l).nblk).filter fun b => (s.blockCore l b).map dieOfCore == some die

/-- A block's first key member as it stands. -/
def State.blockKey (s : State) (l b : Nat) : Int := keyOf32 (s.launch l).floor (s.level l b) (s.step' l b)

/-- A block put into Key order (R327). -/
def insertBlock (s : State) (l b : Nat) : List Nat → List Nat
  | [] => [b]
  | c :: t =>
    if s.blockKey l b < s.blockKey l c ∨ (s.blockKey l b = s.blockKey l c ∧ b < c) then b :: c :: t
    else c :: insertBlock s l b t

/-- The table floor after a commit (R327). -/
def raiseFloor (l : Nat) (s : State) : State :=
  let keys := ((List.range (s.launch l).nblk).filter fun b => !s.blockDone l b).map (s.blockKey l)
  match keys with
  | [] => s
  | k :: t =>
    let m := t.foldl min k
    if m > 0 then s.modLaunch l fun u => { u with floor := u.floor + BitVec.ofInt 32 m } else s

/-! ### The start of a context -/

/-- A slot that may be taken: it is Free, and no helper or move has it reserved (R133, R317, R318). -/
def State.slotFree (s : State) (key : Nat) : Bool :=
  (s.ctx key).st == .free && !s.ctxs.any fun p => p.2.live && (p.2.home == some key || p.2.moving == some key)

/-- The lowest free slot of a core from slot `lo` on. -/
def State.freeSlot (s : State) (core lo : Nat) : Option Nat :=
  ((List.range 11).filter fun c => decide (lo ≤ c)).find? fun c => s.slotFree (keyOf core c)

/-- GRIDd (R360). -/
def Launch.grid (u : Launch) (d : Nat) : Nat := u.f (0x18 + 2 * d) 2

/-- GDIMd (R360). -/
def Launch.gdim (u : Launch) (d : Nat) : Nat := u.f (0x20 + 4 * d) 4

/-- Origin and extent of the sub-tile of a grid coordinate in a dimension (R321). -/
def Launch.tile (u : Launch) (d c : Nat) : Nat × Nat :=
  let t := ((u.gdim d + u.grid d - 1) / u.grid d + 31) / 32 * 32
  let org := min (c * t) (u.gdim d)
  (org, min t (u.gdim d - org))

/-- A role's grid coordinate in a dimension (R321). -/
def Launch.coord (u : Launch) (r d : Nat) : Nat :=
  r / ((List.range d).map u.grid).prod % u.grid d

/-- The role of a core in the grid group (R321). -/
def Launch.gridRole (u : Launch) (core : Nat) : Option Nat :=
  match u.group (u.f 0x38 1) with
  | some g => if g.members.idxOf core < g.members.length then some (g.members.idxOf core) else none
  | none => none

/-- A core's groups in ascending order (R319). -/
def Launch.coreGroups (u : Launch) (core : Nat) : List Nat :=
  (List.range 256).filter fun g => match u.group g with
    | some r => r.members.contains core
    | none => false

/-- A context as a launch or its scheduler starts it (R313, R361, R362): `home` is the core of its role, and `regs` gives
x1, and x2 and x3 in a level update. Its mailbox is the slot's. -/
def startCtx (l key home : Nat) (pc : Nat) (x1 x2 x3 : Word) (st : Standing) (s : State) : State :=
  let u := s.launch l
  let core := coreOfKey key
  let tiles := (List.range 4).map fun d => match u.gridRole home with
    | some r => u.tile d (u.coord r d)
    | none => (0, 0)
  let c : Ctx := { st := .ready, pc := BitVec.ofNat 57 pc }
  let c := (((c.setX 1 x1).setX 2 x2).setX 3 x3).setX 31 (0x00B0000000000000#64 + BitVec.ofNat 64 u.psize)
  joinGate key (s.setCtx key
    { c with
      sr := BitVec.ofNat 64 (slotOfKey key * 2 ^ 16 + (if u.det then 2 ^ 8 else 0))
      gdim := (List.range 4).map fun d => BitVec.ofNat 64 (u.gdim d)
      org := tiles.map fun t => BitVec.ofNat 64 t.1
      ext := tiles.map fun t => BitVec.ofNat 64 t.2
      grp := u.coreGroups home
      standing := st
      homeCore := home
      number := slotOfKey key
      launch := l
      pslot := 11 * core + slotOfKey key
      mail := (s.ctx key).mail
      kfloor := u.kfloor
      acq := s.wlog.length })

/-- Level contexts of a launch that are live on a core. -/
def State.levelCtxs (s : State) (l core : Nat) : Nat :=
  (s.ctxs.filter fun p => p.2.live && p.2.launch == l && p.2.standing == .level && coreOfKey p.1 == core).length

/-- A block's update starts in a slot (R328). x2 and x3 hold its level and step, sign-extended as `rid` gives them: R313 names
no extension (DESIGN CHOICE, log entry 65). -/
def startBlock (l b key : Nat) (s : State) : State :=
  let lv := s.level l b
  let sp := s.step' l b
  let home := (((s.launch l).group (s.desc l b 0xE 1)).map fun g => g.members.getD (s.desc l b 0xC 2) 0).getD (coreOfKey key)
  let pc := (s.launch l).f 0x10 8 % 2 ^ 57 + s.desc l b 0x10 4
  let s := setBlockBits l b true (s.blockDone l b) s
  (startCtx l key home pc (BitVec.ofNat 64 b) (lv.signExtend 64) (sp.signExtend 64) .level s).modCtx key fun c =>
    { c with blk := some b, lvl := lv, stp := sp, inUpdate := true }

/-- A level table stops for the host, with a report that does not end the entry (R330, R331). -/
def stallTable (l : Nat) (r : Report) (s : State) : State :=
  postReport (s.launch l).q r (s.modLaunch l fun u =>
    { u with stalled := true, st := if u.st == .running then .frozen else u.st })

/-- Whether a level table may dispatch (R328, R332). -/
def Launch.dispatches (u : Launch) : Bool := u.lvlT && u.st == .running && u.freezes.isEmpty && !u.stalled

/-- Dispatch of a die, block by block in Key order (R328). -/
def dispatchFrom (l : Nat) : List Nat → State → State
  | [], s => s
  | b :: bs, s =>
    if !(s.launch l).dispatches then s
    else match s.runnable l b with
      | (_, some n) =>
        stallTable l { status := 5, a := BitVec.ofNat 64 b, b := BitVec.ofNat 64 n } s
      | (false, none) => dispatchFrom l bs s
      | (true, none) =>
        match s.blockCore l b with
        | none => dispatchFrom l bs s
        | some core =>
          match s.freeSlot core 0 with
          | some c =>
            if s.levelCtxs l core < (s.launch l).f 0x3A 1 / 16 % 16 then
              match (useDesc l b).run s with
              | .ok _ s => dispatchFrom l bs (startBlock l b (keyOf core c) s)
              | .error (.trap t) s' => endLaunch (s'.launch l).q (faultReport t) s'
              | .error _ s' => keepMisses s s'
            else dispatchFrom l bs s
          | none => dispatchFrom l bs s

/-- The blocks of a die that are not done, in Key order. -/
def State.candidates (s : State) (l die : Nat) : List Nat :=
  ((s.dieBlocks l die).filter fun b => !s.blockDone l b).foldl (fun t b => insertBlock s l b t) []

/-- BLOCK_DISPATCH (R328): the scheduler of a die looks at its blocks. -/
def execBlockDispatch (l die : Nat) (s : State) : Outcome :=
  event (do
    let s0 ← get
    enabled (s0.launch l).dispatches
    unheld s0 (s0.launch l).q (useTable l)
    let s ← get
    let s' := dispatchFrom l (s.candidates l die) s
    enabled (s' != s)
    set s') s

/-- The notices of a commit: one for each neighbour entry of another device that can be reached (R329, R398)
(DEDUCED, log entry 56). -/
def sendNotices (l b : Nat) (s : State) : State :=
  (s.neighbours l b).foldl (fun t n =>
    if n.1 && !s.unreachable n.2.1 then sendOut (.notice n.2.1 b (s.level l b) (s.step' l b) (s.blockDone l b)) t else t) s

/-- LEVEL_NOTICE (R310, R375, R398): the newest notice of a neighbour on another device is kept
(DEDUCED, log entry 27). -/
def execLevelNotice (dev index : Nat) (level step : BitVec 32) (done : Bool) (s : State) : Outcome :=
  event (do
    let s ← get
    enabled (s.domEn && decide (dev < 2048 ∧ index < 65536))
    if !s.isLost dev then
      let k := dev * 65536 + index
      let keep := fun (u : Launch) =>
        match u.notices.find? fun p => p.1 == k with
        | some p => if 0 < (level - p.2.1).toInt then { u with notices := (u.notices.filter (·.1 != k)) ++ [(k, level, step, done)] } else u
        | none => { u with notices := u.notices ++ [(k, level, step, done)] }
      modify fun s => ((s.launches.filter fun p => p.2.lvlT && (p.2.active || p.2.st == .switched)).map (·.1)).foldl
        (fun s l => s.modLaunch l keep) s) s

/-- Whether a block fails R326 on a remote neighbour only (R330). -/
def State.remoteOnly (s : State) (l b : Nat) : Bool :=
  let bad := (s.neighbours l b).filter fun n => s.neighbourGate l b n != .lets || s.keyHolds l b n
  !s.blockDone l b && !s.inFlight l b && !bad.isEmpty && bad.all (·.1)

/-- Whether a die's table is stalled, but for the wait for notices (R330): its local blocks are those homed on the die
(DEDUCED, log entry 27). -/
def State.dieStalled (s : State) (l die : Nat) : Bool :=
  let bs := (s.dieBlocks l die).filter fun b => !s.blockDone l b
  (s.launch l).dispatches && !bs.isEmpty && bs.all (fun b => (s.runnable l b).1 == false) &&
    !s.ctxs.any fun p => p.2.live && p.2.launch == l && p.2.standing == .level && dieOfCore (coreOfKey p.1) == die

/-- Where the snapshot of a block lies (R330). -/
def Launch.snapVa (u : Launch) (b : Nat) : Nat := (u.f 0x78 8 + 16 * b) % 2 ^ 57

/-- Pieces of a snapshot are written, each where its page lies: the first address that cannot be, if any. -/
def snapPieces (l : Nat) : List (Nat × Nat) → List Byte → State → State × Option Nat
  | [], _, s => (s, none)
  | (va, n) :: ps, bs, s =>
    match (do physLoc va (← translate (s.launchEnv l) va accWrite).1 0).run s with
    | .ok (.mem p _) s' => snapPieces l ps (bs.drop n) (devWrite p (bs.take n) s')
    | _ => (s, some va)

/-- The snapshot of blocks (R330): the first address that cannot be written, if any (DEDUCED, log entries 27 and 49). -/
def snapshot (l : Nat) : List Nat → State → State × Option Nat
  | [], s => (s, none)
  | b :: bs, s =>
    let v := leBytes 8 (s.desc l b 0 8) ++ leBytes 8 (s.blockBits l b % 32)
    match snapPieces l (linePieces 2 ((s.launch l).snapVa b) 16) v s with
    | (s', none) => snapshot l bs s'
    | r => r

/-- The table, and the snapshot area of a die's blocks, are about to be used (DEDUCED, log entry 27). -/
def useSnapshot (l die : Nat) : M Unit := do
  useTable l
  for b in (← get).dieBlocks l die do
    usePagesAs false l (((← get).launch l).snapVa b) 16 accWrite

/-- Whether nothing of a level table can go on by itself: it is stalled on a die, no block of it is runnable or fails on remote
neighbours only, and no level context of the launch is live, so that the scheduler reports the stall
(R330) (DESIGN CHOICE, log entry 75). -/
def State.stuckTable (s : State) (l die : Nat) : Bool :=
  let bs := (List.range (s.launch l).nblk).filter fun b => !s.blockDone l b
  s.dieStalled l die && !bs.any (fun b => (s.runnable l b).1 || s.remoteOnly l b) &&
    !s.ctxs.any fun p => p.2.live && p.2.launch == l && p.2.standing == .level

/-- LEVEL_STALL (R330): the snapshot of the die's blocks, then the report (DEDUCED, log entry 27)
(DESIGN CHOICE, log entry 75). -/
def execLevelStall (l die : Nat) (s : State) : Outcome :=
  event (do
    let s0 ← get
    enabled (s0.launch l).dispatches
    unheld s0 (s0.launch l).q (useSnapshot l die)
    let s ← get
    enabled (s.dieStalled l die)
    let remote := (s.dieBlocks l die).any fun b => s.remoteOnly l b
    match snapshot l (s.dieBlocks l die) s with
    | (s, some va) => set (endLaunch (s.launch l).q { status := 9, a := BitVec.ofNat 64 va } s)
    | (s, none) =>
      set (stallTable l { status := 4, a := BitVec.ofNat 64 ((s.launch l).f 0x78 8), b := if remote then 1 else 0 } s)) s

/-- HOST_RESUME (R330, R331): the host lets a stalled launch go on, through its attachment at M0 (R3, R401). -/
def execHostResume (l : Nat) (s : State) : Outcome :=
  hostEvent (do
    enabled ((← get).launch l).stalled
    modify fun s => s.modLaunch l fun u =>
      { u with stalled := false, st := if u.st == .frozen && u.freezes.isEmpty then .running else u.st }) s

/-! ### The level instructions -/

/-- An extended-form scalar instruction of the level and gateway classes. -/
def extT (o : ExT) (body : M Unit) (s : State) : Outcome := extI o.toLow body s

/-- The block whose update the context runs (R248). -/
def runningBlock : M (Nat × Nat) := do
  let c ← curCtx
  match c.blk with
  | some b => if c.inUpdate then return (c.launch, b) else illegal
  | none => illegal

/-- `lvrd` (08 R249). -/
def execLvrd (o : ExT) (s : State) : Outcome :=
  extT o (do
    let (l, b) ← runningBlock
    if o.tail.toNat % 256 > 6 then reserved
    useTable l
    let s ← get
    let v ← (match o.tail.toNat % 256 with
      | 0 => pure (s.desc l b 0x20 8)
      | 1 => pure (s.desc l b 0x28 8)
      | 2 => pure (s.desc l b 9 1 % 32)
      | 3 => pure (s.desc l b 0x30 8)
      | 4 => pure (s.desc l b 0x10 4)
      | 5 => pure (s.blockBits l b % 8)
      | _ => pure (s.desc l b 0xE 1 * 65536 + s.desc l b 0xC 2) : M Nat)
    writeX o.d (BitVec.ofNat 64 v)) s

/-- `lvnb` (08 R250): an acquire at `.sy`. -/
def execLvnb (o : ExT) (s : State) : Outcome :=
  extT o (do
    let (l, b) ← runningBlock
    let n ← useX o.a.toNat
    useTable l
    let s ← get
    match (s.neighbours l b)[n.toNat]? with
    | none => fault 22 0x20 n
    | some nb =>
      acquire 5
      writeX o.d ((s.neighbour l nb).1.signExtend 64)) s

/-- `lvnext` (08 R251): the commit of an update. -/
def execLvnext (o : ExT) (s : State) : Outcome :=
  extT o (do
    let (l, b) ← runningBlock
    let x ← useX o.a.toNat
    let stepv := x.getLsbD 32
    let step := field x 0 32
    if field x 34 30 != 0 || (stepv && !decide (1 ≤ step ∧ step ≤ 2 ^ 29)) then reserved
    else
      releaseWait 5
      useTable l
      let s ← get
      let next := s.level l b + s.step' l b
      if (s.neighbours l b).any fun n => spanTooWide next (s.neighbour l n).1 then
        fault 15 (s.blockBits l b % 8) (BitVec.ofNat 64 b)
      else
        let sp := if stepv then step else (s.step' l b).toNat
        let cur := s.desc l b 0x20 8
        let nxt := s.desc l b 0x28 8
        useDesc l b
        modify fun s =>
          let s := setDesc l b 0 (leBytes 4 next.toNat ++ leBytes 4 sp) s
          let s := setDesc l b 0x20 (leBytes 8 nxt ++ leBytes 8 cur) s
          let s := setBlockBits l b false (s.blockDone l b || x.getLsbD 33) s
          let s := sendNotices l b s
          raiseFloor l (s.modCtx s.cur fun c => { c with inUpdate := false })) s

/-- A level context is about to end an update, whose block's descriptor is written (R328, R367). -/
def useUpdate : M Unit := do
  let c ← curCtx
  match c.blk with
  | some b => if c.inUpdate then do useTable c.launch; useDesc c.launch b
  | none => pure ()

/-- A level context ends: an update that has not committed is discarded (R328). -/
def endUpdate (key : Nat) (s : State) : State :=
  let c := s.ctx key
  match c.blk with
  | some b => if c.inUpdate then setBlockBits c.launch b false (s.blockDone c.launch b) s else s
  | none => s

end Sys2Proof.Machine
end

