-- ==== Sys2Proof/Machine/Graph.lean ====
section
/-!
DEFINITION. Task graphs (11 R333, R334): the nodes as they lie in memory, the count of outstanding edges of each, what a
node delivers, and the end of a graph. The graph of a queue's entry stands in the launch of the queue's number, whose record
is the entry.
-/

namespace Sys2Proof.Machine

open Sys2Proof

/-- The number of a graph's launch for a node: the queue, and the node plus one (DEDUCED, log entry 22). -/
def nodeLaunch (q n : Nat) : Nat := q + 64 * (n + 1)

/-- Whether a launch is the graph of an entry. -/
def Launch.isGraph (u : Launch) : Bool := u.f 0 1 == 2 && u.node.isNone

/-- How many nodes a graph has (R364). -/
def Launch.nodeCount (u : Launch) : Nat := u.f 0x18 2 % 4096 + 1

/-- The address of a node's descriptor (R333, R364). -/
def Launch.nodeVa (u : Launch) (n : Nat) : Nat := (u.f 0x10 8 + 64 * n) % 2 ^ 57

/-- `n` bytes of a node's descriptor. -/
def State.node (s : State) (q n off len : Nat) : Nat := s.launchNat q ((s.launch q).nodeVa n + off) len

/-- KIND of a node. -/
def State.nodeKind (s : State) (q n : Nat) : Nat := s.node q n 0 1 % 16

/-- The successors of a node. -/
def State.succs (s : State) (q n : Nat) : List Nat :=
  (List.range (s.node q n 0 1 / 16)).map fun i => s.node q n (0x20 + 2 * i) 2

/-- The hardware writes a field of a node's descriptor. -/
def setNode (q n off : Nat) (bs : List Byte) (s : State) : State := launchWrite q ((s.launch q).nodeVa n + off) bs s

/-- The nodes of a graph are about to be used (R305, R307, R367). -/
def useGraph (q : Nat) : M Unit := do
  if !(← get).late.isEmpty then heldAgain
  let u := (← get).launch q
  if u.isGraph then usePages q (u.nodeVa 0) (64 * u.nodeCount) accTable

/-- A node's state as the graph unit holds it: 0 waiting, 1 ready, 2 running, 3 done, 4 skipped (R333). -/
def State.nodeSt (s : State) (q n : Nat) : Nat := (Tbl.get (0, 0) (s.launch q).graph n).2

/-- A node's state set, with ST of its descriptor (DEDUCED, log entry 42). -/
def setNodeSt (q n st : Nat) (s : State) : State :=
  let b := s.node q n 2 1
  let s := setNode q n 2 [BitVec.ofNat 8 (b % 16 + st * 16 + b / 128 * 128)] s
  s.modLaunch q fun u => { u with graph := Tbl.set (0, 0) u.graph n ((Tbl.get (0, 0) u.graph n).1, st) }

/-- The edges that a node waits for when it returns to waiting (R334). The back edge of a loop is not among those that a
loop node waits for when it first runs (DEDUCED, log entry 42). -/
def State.fullCount (s : State) (q n : Nat) : Nat :=
  let np := s.node q n 0 4 / 256 % 4096
  if s.nodeKind q n = 6 then np - 1 else np

/-- A node returns to waiting for `k` edges (DEDUCED, log entry 42). -/
def waitNode (q n k : Nat) (s : State) : State :=
  setNodeSt q n 0 (s.modLaunch q fun u => { u with graph := Tbl.set (0, 0) u.graph n (2 * k, 0) })

/-- One edge delivers done or skip to each node of a list, with what follows from it (R334): the fuel bounds how many
deliveries one event makes. -/
def deliver (q : Nat) : Nat → List (Nat × Bool) → State → State
  | 0, _, s => s
  | _, [], s => s
  | f + 1, (n, done) :: t, s =>
    let (k, st) := Tbl.get (0, 0) (s.launch q).graph n
    if st != 0 then deliver q f t s
    else
      let left := k / 2 - 1
      let any := done || k % 2 == 1
      let s := s.modLaunch q fun u =>
        { u with graph := Tbl.set (0, 0) u.graph n (2 * left + (if any then 1 else 0), 0) }
      if left > 0 then deliver q f t s
      else if any then deliver q f t (setNodeSt q n 1 s)
      else deliver q f (t ++ (s.succs q n).map fun m => (m, false)) (setNodeSt q n 4 s)

/-- Deliveries that one event can make at most: each edge once for each node. -/
def graphFuel : Nat := 65536

/-- A graph with no node ready or running ends (R334); the nodes left waiting are reported. -/
def endGraph (q : Nat) (s : State) : State :=
  let g := (s.launch q).graph
  let st := fun n => (Tbl.get (0, 0) g n).2
  let nodes := List.range (s.launch q).nodeCount
  if nodes.any fun n => st n == 1 || st n == 2 then s
  else
    let left := (nodes.filter fun n => st n == 0).length
    endLaunch q (if left = 0 then { status := 0 } else { status := 6, a := BitVec.ofNat 64 left }) s

/-- A node is done, and delivers (R334). -/
def nodeDone (q n : Nat) (edges : List (Nat × Bool)) (s : State) : State :=
  endGraph q (deliver q graphFuel edges (setNodeSt q n 3 s))

/-- A node that delivers done on every edge. -/
def nodeDoneAll (q n : Nat) (s : State) : State := nodeDone q n ((s.succs q n).map fun m => (m, true)) s

end Sys2Proof.Machine
end

