-- ==== Sys2Proof/Machine/Flags.lean ====
section
/-!
DEFINITION. How flags and saturation come about: the sticky flags of SR (01 R22, R23; 02 R52) and the clamped integer
results (02 R44), with division's corners (02 R45).
-/

namespace Sys2Proof.Machine

open Sys2Proof

/-- Flags are ORed into the current context's SR at retirement (R23). -/
def raiseFlags (f : Flags) : M Unit := modCur (·.orFlags f)

/-- A result and its flags, written to an x register. -/
def deliverX (rd : BitVec 6) (r : Nat × Flags) : M Unit := do
  raiseFlags r.2
  writeX rd (BitVec.ofNat 64 r.1)

/-- An exact result clamped to a signed width (R44). -/
def satS (w : Nat) (v : Int) : Int := max (intLo w true) (min (intHi w true) v)

/-- An exact result clamped to an unsigned width (R44). -/
def satU (w : Nat) (v : Int) : Int := max 0 (min (intHi w false) v)

/-- Signed quotient (R45). -/
def divS (a b : Word) : Word :=
  if b = 0 then BitVec.allOnes 64 else BitVec.ofInt 64 (a.toInt.tdiv b.toInt)

/-- Unsigned quotient (R45). -/
def divU (a b : Word) : Word := if b = 0 then BitVec.allOnes 64 else BitVec.ofNat 64 (a.toNat / b.toNat)

/-- Signed remainder (R45). -/
def remS (a b : Word) : Word := if b = 0 then a else BitVec.ofInt 64 (a.toInt.tmod b.toInt)

/-- Unsigned remainder (R45). -/
def remU (a b : Word) : Word := if b = 0 then a else BitVec.ofNat 64 (a.toNat % b.toNat)

end Sys2Proof.Machine
end

