-- ==== Sys2Proof/Machine/System.lean ====
section
/-!
DEFINITION. System instructions (05 R128 to R139): special registers (01 R22 to R26, R37 to R41), identity registers (R39),
the carve-out (09 R258, R259), helpers (05 R133 to R136), lane claims (R137), global addresses (R138), and the moves of
the thread engine (11 R317, R318).
-/

namespace Sys2Proof.Machine

open Sys2Proof

/-! ### Special registers -/

/-- An instruction waits until every earlier vector instruction of the context has retired (R23, R129, R137). -/
def vectorsRetired : M Unit := do if (← curCtx).pend.any fun p => !p.op.isMatrix then heldAgain

/-- The entry that DRIDX selects, where the ring holds its number (R37) (DEDUCED, log entry 28). -/
def Ctx.selected (c : Ctx) : Option RingEnt :=
  let e := Tbl.get {} c.ring (c.dridx.toNat % 64)
  if e.used && e.seq == c.dridx then some e else none

/-- DRST (R37) (DEDUCED, log entry 28). -/
def RingEnt.status (e : RingEnt) : Word :=
  BitVec.ofNat 64 ((if e.pfxp then 2 ^ 48 else 0) + e.pfxv.toNat * 2 ^ 34 + e.seq.toNat * 2 ^ 16 +
    (if e.can then 8 else 0) + (if e.flt then 4 else 0) + (if e.done then 2 else 0) + 1)

/-- CLOAD (R40). -/
def State.cload (s : State) (cl : Nat) : Word :=
  BitVec.ofNat 64 (((List.range 8).map fun i =>
    ((List.range 11).filter fun c => (s.ctx (keyOf (cl * 8 + i) c)).st == .ready).length * 2 ^ (4 * i)).sum)

/-- Whether a special register can be accessed at privilege 1 only (R26) (DEDUCED, log entry 18). -/
def privateReg (n : Nat) : Bool := decide (2 ≤ n ∧ n ≤ 6) || decide (16 ≤ n ∧ n ≤ 24)

/-- A special register as `mfsr` reads it (R41) (DEDUCED, log entry 28). -/
def sregRead (s : State) (key n : Nat) : Option Word :=
  let c := s.ctx key
  let core := coreOfKey key
  let cl := clusterOfCore core
  match n with
  | 0 => some (s.srOf key)
  | 1 => some c.pfx
  | 2 => some (c.epc.setWidth 64)
  | 3 => some c.ecause
  | 4 => some c.etval
  | 5 => some c.esr
  | 6 => some (s.core core).tvec
  | 7 => some ((s.core core).split.setWidth 64)
  | 8 => some ((s.cluster cl).vgrp.setWidth 64)
  | 9 => some (s.cload cl)
  | 10 => some (s.cluster cl).mgstall
  | 16 => some (c.drseq.setWidth 64)
  | 17 => some (c.dridx.setWidth 64)
  | 18 => some ((c.selected.map fun e => e.pc.setWidth 64).getD 0)
  | 19 => some ((c.selected.map fun e => e.w.setWidth 64).getD 0)
  | 20 => some ((c.selected.map fun e => e.w.extractLsb' 64 64).getD 0)
  | 21 => some ((c.selected.map (·.dra)).getD 0)
  | 22 => some ((c.selected.map (·.drb)).getD 0)
  | 23 => some ((c.selected.map RingEnt.status).getD 0)
  | 24 => some (BitVec.ofNat 64 c.replay.length)
  | _ => none

/-- `mfsr` (05 R128, R129). -/
def execMfsr (o : Sh) (s : State) : Outcome :=
  short (do
    let n := o.imm.toNat % 256
    let s ← get
    if privateReg n && (s.ctx s.cur).priv == 0 then illegal
    else
      if n = 0 then vectorsRetired
      match sregRead s s.cur n with
      | some v => writeX o.rd v
      | none => illegal) s

/-- `mtsr` of PFX, the trap registers and TVEC (05 R128; 01 R24, R26); a read-only or unlisted register raises
IllegalOpcode (R41). Both this fault and the one of a poisoned xs belong to step 8 of R94, which does not order them: xs is
read first (DESIGN CHOICE, log entry 61). -/
def execMtsr (o : Sh) (s : State) : Outcome :=
  short (do
    let n := o.imm.toNat % 256
    privileged
    let v ← useX o.rs1.toNat
    match n with
    | 1 => if field v 0 4 ≥ 10 then reserved else modCur fun c => { c with pfx := v &&& 0x3FFF#64 }
    | 2 => modCur fun c => { c with epc := v.setWidth 57 &&& ~~~3#57 }
    | 3 => modCur fun c => { c with ecause := v &&& 0xFFFFFFFFF#64 }
    | 4 => modCur fun c => { c with etval := v }
    | 5 => modCur fun c => { c with esr := v }
    | 6 => modify fun s => s.modCore (coreOfKey s.cur) fun k => { k with tvec := v &&& 0x01FFFFFFFFFFFFC0#64 }
    | _ => illegal) s

/-- The bits of SR that `mtsr` writes at a privilege (R22) (DEDUCED, log entry 18). -/
def srWritable (priv : Nat) : Word := if priv = 0 then 0x7E#64 else 0xC7E#64

/-- `mtsr` of SR (05 R128 to R130; 01 R22). -/
def execMtsrSr (o : Sh) (s : State) : Outcome :=
  short (do
    let c ← curCtx
    vectorsRetired
    let v ← useX o.rs1.toNat
    if c.priv != 0 && decide (field v 10 2 > 1) then reserved
    else
      let m := srWritable c.priv
      modCur fun c => { c with sr := (c.sr &&& ~~~m) ||| (v &&& m) }) s

/-- Whether an access to a core's scratchpad has been accepted and is not performed (R258): of a vector, matrix or tile
instruction of its contexts, or a posted write. -/
def State.scratchBusy (s : State) (core : Nat) : Bool :=
  let lo := placeCore core 0
  let within := fun (p n : Nat) => decide (p < lo + 2 ^ 20 ∧ lo < p + n)
  (List.range 11).any (fun c => (s.ctx (keyOf core c)).pend.any fun p => p.op.memRead || p.op.memWrite) ||
    s.posts.any (fun p => p.st != .lost && p.st != .committed && p.marker.isNone && within p.place p.bytes.length) ||
    s.wreqs.any (fun r => match r.kind with
      | .tile p _ => within p (r.parts.map (·.2.2)).sum
      | _ => false) ||
    s.tiles.any fun t => (t.lines.take t.got).any fun p => within p 128

/-- The lines in the units that leave an L1 of `new` cache units are written back to the L2 and invalidated, those of the
pool in the same cache part included (R258, R259) (DESIGN CHOICE, log entry 57). -/
def shrinkL1 (core new : Nat) (s : State) : State :=
  let stays := fun (line : Nat) => decide (Config.freeUnit core line % (s.core core).split.toNat < new)
  let l1 := ((s.core core).l1.filter fun p => stays p.1).take (new * 512)
  let s := s.modCore core fun k => { k with l1 := l1 }
  s.modCluster (clusterOfCore core) fun c =>
    let mine := (c.pool.filter fun p => p.2.part == core % 8 && stays p.1).take (new * 512 - l1.length)
    { c with pool := c.pool.filter fun p => p.2.part != core % 8 || mine.any fun q => q.1 == p.1 }

/-- The SRAM of a core is divided anew (R258): bytes that leave its scratchpad are lost, and those that come read as zero, once
the lines in the units that leave the L1 have been written back (DEDUCED, log entry 10). -/
def setSplit (core new : Nat) (s : State) : State :=
  let old := (s.core core).split.toNat
  let lo := placeCore core ((8 - max new old) * 65536)
  let hi := placeCore core ((8 - min new old) * 65536)
  let s := if new < old then shrinkL1 core new s else s
  let s := s.modCore core fun k =>
    { k with split := BitVec.ofNat 4 new, stopped := none, rc := if new < old then [] else k.rc }
  if new = old then s else { s with mem := Tbl.clear s.mem lo (hi - 1), marks := Tbl.clear s.marks lo (hi - 1) }

/-- `mtsr` of CSPLIT (05 R128; 09 R258; 01 R40): issue of the core stops until the accesses to its scratchpad are performed,
and later ones from elsewhere are held; then the split changes (DEDUCED, log entry 10). -/
def execMtsrCsplit (o : Sh) (s : State) : Outcome :=
  short (do
    privileged
    let v ← useX o.rs1.toNat
    let new := field v 0 4
    if new > 8 then reserved
    else
      let s ← get
      let core := coreOfKey s.cur
      if new != (s.core core).split.toNat && s.scratchBusy core then
        modify fun s => s.modCore core fun k => { k with stopped := some s.cur }
        heldAgain
      else modify (setSplit core new)) s

/-- `mtsr` of VGRP (05 R128; 09 R259): the lines of the pool that are held for a core whose bit is cleared, or lie in its cache
part, are written back to the L2 and invalidated. Nothing of the cluster issues meanwhile, for the write is one step. -/
def execMtsrVgrp (o : Sh) (s : State) : Outcome :=
  short (do
    privileged
    let v ← useX o.rs1.toNat
    modify fun s => s.modCluster (clusterOfCore (coreOfKey s.cur)) fun c =>
      { c with vgrp := v.setWidth 8
               pool := c.pool.filter fun p => v.getLsbD p.2.core && v.getLsbD p.2.part }) s

/-- `mtsr` of MGSTALL (01 R40): 0 clears it. -/
def execMtsrMgstall (o : Sh) (s : State) : Outcome :=
  short (do
    let v ← useX o.rs1.toNat
    modify fun s =>
      let s := uncover s.cur s
      if v = 0 then s.modCluster (clusterOfCore (coreOfKey s.cur)) fun c => { c with mgstall := 0 } else s) s

/-- `mtsr` of DRIDX (01 R37). -/
def execMtsrDridx (o : Sh) (s : State) : Outcome :=
  short (do
    privileged
    let v ← useX o.rs1.toNat
    modCur fun c => { c with dridx := v.setWidth 16 }) s

/-- `mtsr` of DRRPL (01 R38): an entry that faulted or was cancelled is queued for replay (DEDUCED, log entry 38). -/
def execMtsrDrrpl (o : Sh) (s : State) : Outcome :=
  short (do
    privileged
    let v ← useX o.rs1.toNat
    let q := v.setWidth 16
    modCur fun c =>
      let e := Tbl.get {} c.ring (q.toNat % 64)
      if e.used && e.seq == q && (e.flt || e.can) && !(c.replay.any fun r => r.seq == q) && decide (c.replay.length < 64) then
        { c with replay := c.replay ++ [e] }
      else c) s

/-- `rid` (05 R131; 01 R39). -/
def execRid (o : Sh) (s : State) : Outcome :=
  short (do
    let n := o.imm.toNat % 256
    let s ← get
    let c := s.ctx s.cur
    let core := coreOfKey s.cur
    let at' := fun (l : List Word) (d : Word) (i : Nat) => l.getD i d
    let v ← (match n with
      | 0 => pure (BitVec.ofNat 64 (core % 8))
      | 1 => pure (BitVec.ofNat 64 (core / 8 % 64))
      | 2 => pure (BitVec.ofNat 64 (core / 512))
      | 3 => pure (BitVec.ofNat 64 s.devId)
      | 4 => pure (BitVec.ofNat 64 (slotOfKey s.cur))
      | 5 => pure (BitVec.ofNat 64 c.vl)
      | 24 => pure (match c.blk with
          | some b => BitVec.ofNat 64 b
          | none => BitVec.allOnes 64)
      | 25 => pure (c.lvl.signExtend 64)
      | 26 => pure (c.stp.signExtend 64)
      | n =>
        if 8 ≤ n ∧ n < 12 then pure (at' c.gdim 0 (n - 8))
        else if 12 ≤ n ∧ n < 16 then pure (at' c.org 0 (n - 12))
        else if 16 ≤ n ∧ n < 20 then pure (at' c.ext 0 (n - 16))
        else if 20 ≤ n ∧ n < 24 then pure (at' (c.grp.map (BitVec.ofNat 64)) (BitVec.allOnes 64) (n - 20))
        else illegal : M Word)
    writeX o.rd v) s

/-- `gaddr` (05 R138). -/
def execGaddr (o : Sh) (s : State) : Outcome :=
  short (do
    let x ← useX o.rs1.toNat
    let s ← get
    let c := s.ctx s.cur
    let l := s.launch c.launch
    if field x 55 2 != 1 then writeX o.rd x
    else if field x 52 3 != 3 then fault 10 (field x 52 3) x
    else if field x 0 52 ≥ l.psize then fault 10 3 x
    else writeX o.rd (BitVec.ofNat 64 (l.pbase + c.pslot * l.psize + field x 0 52))) s

/-! ### Helpers -/

/-- `hstart` and `hstart.m` (05 R133; 03 R76) (DEDUCED, log entry 11). -/
def startHelper (mig : Bool) (o : Sh) : M Unit := do
  let s ← get
  let key := s.cur
  let c := s.ctx key
  let core := coreOfKey key
  if c.standing != .control then illegal
  else
    let x ← useX o.rs1.toNat
    match s.freeSlot core 1 with
    | none => writeX o.rd 0
    | some n =>
      releaseWait 2
      let k := keyOf core n
      let h : Ctx :=
        { ({ st := .ready, pc := relTarget c.pc o.imm } : Ctx).setX 1 x with
          sr := BitVec.ofNat 64 (n * 2 ^ 16 + (if mig then 2 ^ 9 else 0) + (if c.det then 2 ^ 8 else 0))
          gdim := c.gdim, org := c.org, ext := c.ext, grp := c.grp, standing := .helper, owner := some key, number := n
          homeCore := c.homeCore, launch := c.launch, pslot := 11 * core + n, home := if mig then some k else none
          mail := (s.ctx k).mail, kfloor := (s.launch c.launch).kfloor, acq := s.wlog.length, imageOf := c.imageOf
          origins := c.origins }
      modify fun s => (uncover key s).setCtx k h
      writeX o.rd (BitVec.ofNat 64 n)

/-- `hstart` (05 R133). -/
def execHstart (o : Sh) (s : State) : Outcome := short (startHelper false o) s

/-- `hstart.m` (05 R133, R136). -/
def execHstartM (o : Sh) (s : State) : Outcome := short (startHelper true o) s

/-- The live helpers of a control context. -/
def State.helpersOf (s : State) (key : Nat) : List Ctx :=
  (s.ctxs.filter fun p => p.2.live && p.2.owner == some key).map (·.2)

/-- `hjoin` (05 R134): after a vacate two helpers of a context may go by one number, which then names both
(DESIGN CHOICE, log entry 71). -/
def execHjoin (o : Sh) (s : State) : Outcome :=
  short (do
    let s ← get
    if (s.ctx s.cur).standing != .control then illegal
    else
      let x ← useX o.rs1.toNat
      let mine := s.helpersOf s.cur
      if (if o.rs1 = 0 then !mine.isEmpty else mine.any fun h => h.number == x.toNat) then sleepAgain
      else acquire 2) s

/-- `hend` (05 R135). -/
def execHend (_ : Sh) (s : State) : Outcome :=
  short (do
    let s ← get
    let key := s.cur
    let c := s.ctx key
    if c.priv != 0 then illegal
    else if !c.pend.isEmpty || !c.due.isEmpty then heldAgain
    else if c.standing == .control && !(s.helpersOf key).isEmpty then sleepAgain
    else
      releaseWait 2
      useUpdate
      modify fun s =>
        let s := endUpdate key s
        let s := if c.standing == .control then releaseAcc (coreOfKey key) s else s
        freeCtx key s) s

/-! ### Lane claims -/

/-- A claim waits until every earlier vector instruction of the context has retired (R137), and the lanes that a trap
removed are spilled (R20). -/
def lanesQuiet : M Unit := do
  vectorsRetired
  if (← curCtx).spillDue then heldAgain

/-- `vclaim` (05 R137); its request is capped at the lane groups in service (R406). -/
def execVclaim (o : Sh) (s : State) : Outcome :=
  short (do
    let c ← curCtx
    if c.mig then fault 12 0 ((← get).iw.setWidth 64)
    else
      lanesQuiet
      let x ← useX o.rs1.toNat
      modify fun s => claimLanes s.cur (min (s.poolSize (clusterOfCore (coreOfKey s.cur))) ((x.toNat + 31) / 32)) s
      writeX o.rd (BitVec.ofNat 64 (← curCtx).vl)) s

/-- `vrenew` (05 R137; 11 R315). -/
def execVrenew (o : Sh) (s : State) : Outcome :=
  short (do
    let c ← curCtx
    if c.mig then fault 12 0 ((← get).iw.setWidth 64)
    else
      lanesQuiet
      renegotiateCur
      writeX o.rd (BitVec.ofNat 64 (← curCtx).vl)) s

/-! ### Moves -/

/-- Ready contexts of a core (R40). -/
def State.readyCount (s : State) (core : Nat) : Nat :=
  ((List.range 11).filter fun c => (s.ctx (keyOf core c)).st == .ready).length

/-- The core of a cluster with the fewest ready contexts (R317): a retired core, and one that takes no part in the helper's launch,
count like any other, for R317 excludes none (DESIGN CHOICE, log entry 71). -/
def State.lightest (s : State) (cl : Nat) : Nat :=
  (List.range 8).foldl (fun j i => if s.readyCount (cl * 8 + i) < s.readyCount j then cl * 8 + i else j) (cl * 8)

/-- Helpers of a core that the thread engine may move (R317), those that issued least recently first
(DEDUCED, log entry 26). -/
def State.movable (s : State) (core : Nat) : List Nat :=
  ((List.range 11).map (keyOf core)).filter fun k =>
    let c := s.ctx k
    c.st == .ready && c.mig && !c.pp && c.priv == 0 && c.pend.isEmpty && c.moving.isNone &&
      (match c.lastMove with
        | some t => decide (t + 4096 ≤ s.clock)
        | none => true)

/-- The one that issued least recently. -/
def State.leastRecent (s : State) : List Nat → Option Nat
  | [] => none
  | k :: t =>
    match s.leastRecent t with
    | none => some k
    | some j => if (s.ctx j).lastIssue < (s.ctx k).lastIssue then some j else some k

/-- MIGRATION_CHECK (R317): the thread engine of a core chooses a helper and reserves its slot
(DESIGN CHOICE, log entry 1; DEDUCED, log entry 26). -/
def execMigrationCheck (core : Nat) (s : State) : Outcome :=
  event (do
    let s ← get
    enabled (decide (core < 2048))
    let j := s.lightest (clusterOfCore core)
    match s.freeSlot j 0, s.leastRecent (s.movable core) with
    | some n, some k =>
      if s.readyCount core ≥ s.readyCount j + 2 then
        modify fun s => s.modCtx k fun c => { c with st := .migrating, moving := some (keyOf j n) }
    | _, _ => pure ()) s

/-- What names a context elsewhere follows it to another slot: its copies, deferred arrivals, mutexes, matrix entries, posted
stores and helpers (DEDUCED, log entry 26). -/
def rekey (old new : Nat) (s : State) : State :=
  let at' := fun (k : Nat) => if k = old then new else k
  let clusters := s.clusters.map fun p =>
    (p.1, { p.2 with mutexes := p.2.mutexes.map fun m => (m.1, if m.2 = old + 1 then new + 1 else m.2)
                     queue := p.2.queue.map fun m => { m with key := at' m.key }
                     seqr := p.2.seqr.map fun q => { q with key := at' q.key } })
  { s with copies := s.copies.map fun c => { c with key := c.key.map at' }
           bards := s.bards.map fun b => { b with key := at' b.key }
           posts := s.posts.map fun p => { p with key := at' p.key }
           clusters := clusters
           ctxs := s.ctxs.map fun p => (p.1, { p.2 with owner := p.2.owner.map at' })
           launches := s.launches.map fun p => (p.1, { p.2 with freezes := p.2.freezes.map at' }) }

/-- A context takes another slot, with its mailbox; the old slot is Free (R317, R379) (DEDUCED, log entry 26). Messages that wait
in the slot follow its own, be they more than eight in all (DESIGN CHOICE, log entry 68). -/
def moveCtx (old new : Nat) (s : State) : State :=
  let c := s.ctx old
  let s := rekey old new s
  let c' := { s.ctx old with sr := setField c.sr 16 8 (slotOfKey new), moving := none, lastMove := some s.clock
                             mail := c.mail ++ (s.ctx new).mail }
  (s.setCtx old {}).setCtx new c'

/-- HELPER_ARRIVAL (R317, R318): its posted stores are acknowledged; it takes its slot, and its parked messages
(DEDUCED, log entry 26). -/
def execHelperArrival (key : Nat) (s : State) : Outcome :=
  event (do
    let s ← get
    let c := s.ctx key
    match c.moving with
    | some k =>
      enabled (c.st == .migrating && !s.posts.any fun p => p.key == key && p.st != .lost)
      modify fun s =>
        let s := moveCtx key k s
        let s := s.modDie (dieOfCore (coreOfKey key)) fun d =>
          { d with parked := d.parked.map fun p => if p.key = key then { p with key := k } else p }
        joinGate k (deliverParked k (s.modCtx k fun c => { c with st := .ready, acq := s.wlog.length }))
    | none => enabled false) s

end Sys2Proof.Machine
end

