-- ==== Sys2Proof/Machine/Vector.lean ====
section
/-!
DEFINITION. Vector instructions: what dispatch does (06 R140, R141, R147; 01 R32 to R38), and what the computing
instructions do to the lanes when they retire (06 R142 to R161), as one function for each major, then a meaning for each
instruction.
-/

namespace Sys2Proof.Machine

open Sys2Proof

/-! ### Dispatch -/

/-- The registers of the quad of a guard or mask code (R11, R84). -/
def guardRegs (g : BitVec 4) : List Nat :=
  if g = 0 then [] else (List.range 4).map fun i => 32 + 4 * (g.toNat % 8) + i

/-- The registers of a quad by number. -/
def quadRegs (q : Nat) : List Nat := (List.range 4).map fun i => 32 + 4 * q + i

/-- FMT of a prefix, 0 for none (R24). -/
def pfxFmt (pfx : Option Word) : Nat :=
  match pfx with
  | some p => field p 0 4
  | none => 0

/-- The number of the scale-plane base register of a prefix (R24). -/
def pfxBase (pfx : Option Word) : Nat :=
  match pfx with
  | some p => field p 4 6
  | none => 0

/-- The x registers whose values the dispatch ring records (R147, R181, R217). -/
def VOp.recorded (pfx : Option Word) : VOp → Option Nat × Option Nat
  | .misc 1 o => (some o.a.toNat, none)
  | .misc 2 o => (if o.a = 0 then none else some o.a.toNat, none)
  | .misc 4 o => (some o.b.toNat, none)
  | .misc 5 o => (some o.a.toNat, some o.b.toNat)
  | .perm 1 o => (some o.b.toNat, none)
  | .quant _ o => (some o.a.toNat, some (pfxBase pfx))
  | .load fn o => (some o.a.toNat, if fn = 1 then some o.b.toNat else if fn = 3 then some (pfxBase pfx) else none)
  | .store fn o => (some o.a.toNat, if fn = 1 then some o.b.toNat else none)
  | .mld o => (some o.a.toNat, some o.b.toNat)
  | .wload o => (some o.a.toNat, some o.b.toNat)
  | .mma o => (some o.aoff.toNat, none)
  | .mseq o => (some o.a.toNat, some o.aoff.toNat)
  | .macrd o => (some o.a.toNat, none)
  | .macwr o => (some o.a.toNat, none)
  | .acted _ ra _ => (if ra = 0 then none else some ra, none)
  | _ => (none, none)

/-- The x registers that an instruction reads at dispatch and the ring does not record (R147, R217). -/
def VOp.unrecorded (pfx : Option Word) : VOp → List Nat
  | .int _ o => guardRegs o.g1
  | .float _ o => guardRegs o.g1
  | .cmp _ o => guardRegs o.g1
  | .misc fn o =>
    if fn = 0 then guardRegs o.g1 ++ guardRegs o.g2
    else if fn = 6 then quadRegs o.a.toNat
    else if fn = 1 then []
    else guardRegs o.g1
  | .perm fn o => guardRegs o.g1 ++ (if fn ≥ 2 then quadRegs o.b.toNat else [])
  | .cvt _ o => guardRegs o.g1
  | .red _ o => guardRegs o.g1
  | .expr o => guardRegs o.g1
  | .quant _ o => guardRegs o.g1
  | .load _ o => guardRegs o.g1
  | .store _ o => guardRegs o.g1
  | .mld o => [o.aoff.toNat, pfxBase pfx]
  | .wload _ => [pfxBase pfx]
  | .macrd o => guardRegs o.g1
  | .macwr o => guardRegs o.g1
  | _ => []

/-- Whether an instruction takes its turn in the cluster's matrix queue (R215). -/
def VOp.queues : VOp → Bool
  | .macz _ => true
  | .mld _ => true
  | .wload _ => true
  | .mma _ => true
  | .mseq _ => true
  | .macrd _ => true
  | .macwr _ => true
  | _ => false

/-- Whether an instruction needs lanes (R16). -/
def VOp.needsLanes : VOp → Bool
  | .macz _ => false
  | .mld _ => false
  | .wload _ => false
  | .mma _ => false
  | .mseq _ => false
  | .acted _ _ _ => false
  | _ => true

/-- Whether a prefix may stand before an instruction (R99). -/
def VOp.takesPrefix : VOp → Bool
  | .quant _ _ => true
  | .load fn _ => fn == 3
  | .mld _ => true
  | .wload _ => true
  | _ => false

/-- Whether an instruction runs under a prefix in force, or under none (R25, R162, R185, R224). -/
def VOp.prefixOK (pfx : Option Word) : VOp → Bool
  | .quant _ _ => decide (1 ≤ pfxFmt pfx ∧ pfxFmt pfx ≤ 3)
  | .load fn _ => if fn = 3 then pfxFmt pfx == 4 || pfxFmt pfx == 5 else pfx.isNone
  | .mld _ => true
  | .wload _ => pfx.isSome
  | _ => pfx.isNone

/-- The source format of `mld` (R222). -/
def mldSource (o : ExM) (pfx : Option Word) : Nat :=
  match pfx with
  | some p => field p 0 4
  | none => o.fmta.toNat

/-- The allowed pairs of R222. -/
def mldPair (o : ExM) (pfx : Option Word) : Bool :=
  let sf := mldSource o pfx
  let fa := o.fmta.toNat
  if pfx.isNone then !blockFmt fa
  else sf == fa || ((sf == 4 || sf == 5) && (fa == 6 || fa == 1))

/-- Whether an instruction is a matrix one that uncovers the interval of a rollback team when it is dispatched (R391). -/
def VOp.uncovers : VOp → Bool
  | .macrd _ => false
  | op => op.isMatrix || op.queues

/-- The values of x registers read as sources, as a table. -/
def gatherX : List Nat → Tbl Word → M (Tbl Word)
  | [], t => return t
  | r :: rs, t => do gatherX rs (Tbl.set 0 t r (← useX r))

/-- A source that may be absent: 0 where it is. -/
def useOpt (r : Option Nat) : M Word :=
  match r with
  | some r => useX r
  | none => return 0

/-- Whether an instruction retires as it is dispatched: one that acted then, and met no fault (R32, R215). -/
def VOp.retiresAtOnce : VOp → Bool
  | .acted _ _ none => true
  | _ => false

/-- An instruction enters the dispatch ring, and the matrix queue if it takes its turn there (R35, R36, R215). -/
def recordPend (key : Nat) (op : VOp) (w : BitVec 128) (pc : Va) (pfx : Option Word) (a b : Word) (x : Tbl Word)
    (priv : Nat) (s : State) : State :=
  let c := s.ctx key
  let core := coreOfKey key
  let e : RingEnt := { used := true, seq := c.drseq, pc := pc, w := w, dra := a, drb := b, pfxp := pfx.isSome
                       pfxv := (pfx.getD 0).setWidth 14, done := op.retiresAtOnce }
  let p : Pend := { seq := c.drseq, op := op, pc := pc, w := w, dra := a, drb := b, x := x, pfx := pfx, priv := priv
                    queued := op.queues, req := none, grant := c.grant
                    hit := if c.replayFrom.isNone then c.fetched else none }
  let pend := if op.retiresAtOnce then c.pend else c.pend ++ [p]
  let fetched := if op.retiresAtOnce || c.replayFrom.isSome then c.fetched else none
  let s := s.setCtx key { c with ring := Tbl.set {} c.ring (c.drseq.toNat % 64) e, pend := pend, drseq := c.drseq + 1
                                 fetched := fetched }
  if op.queues then
    s.modCluster (clusterOfCore core) fun k => { k with queue := k.queue ++ [{ key := key, seq := c.drseq, core := core, slot := slotOfKey key, cmd := none }] }
  else s

/-- Whether the matrix queue has room for an instruction (R215). -/
def State.queueRoom (s : State) (key : Nat) (op : VOp) : Bool :=
  !op.queues || decide ((s.cluster (clusterOfCore (coreOfKey key))).queue.length < 32)

/-- Whether the formats that an instruction names are a pair that it allows, which is a limit of its fields (R94, R222). -/
def VOp.pairOK (pfx : Option Word) : VOp → Bool
  | .mld o => mldPair o pfx
  | _ => true

/-- The faults of dispatch that name no operand: a field outside its limits and the prefix (R25, R94), a matrix instruction of a migratable helper (R21),
and a zero grant (R16). -/
def dispatchFault (c : Ctx) (pfx : Option Word) (op : VOp) : Option (Nat × Nat) :=
  if !op.pairOK pfx then some (2, 0)
  else if !op.prefixOK pfx then some (11, 0)
  else if c.mig && (op.isMatrix || op.queues) then some (22, 2)
  else if op.needsLanes && c.grant == 0 then some (12, 0)
  else none

/-- Whether the dispatch ring has no room: 64 instructions in flight, or the entry of the next number holds one that is (R35). -/
def Ctx.ringFull (c : Ctx) : Bool :=
  decide (c.pend.length ≥ 64) || c.pend.any fun p => decide ((c.drseq - p.seq).toNat ≥ 64)

/-- Dispatch with the prefix in force and the recorded operands known (R36, R38): the other sources are read, `pre` makes the
instruction's own checks on its recorded operands and does what it does at once, and the instruction is recorded. -/
def dispatchWith (op : VOp) (pfx : Option Word) (a b : Word) (w : BitVec 128) (pc : Va) (priv : Nat) (pre : Word → Word → M Unit) :
    M Unit := do
  let s ← get
  let key := s.cur
  let x ← gatherX (op.unrecorded pfx) []
  if (s.ctx key).ringFull || !s.queueRoom key op then heldAgain
  pre a b
  modify fun s => recordPend key op w pc pfx a b x priv (if op.uncovers && priv == 0 then uncoverTeam key s else s)

/-- The bits of an instruction word above its length are zero in the dispatch ring (R37). -/
def cutWord (len : Nat) (w : BitVec 128) : BitVec 128 := if len < 16 then w &&& BitVec.ofNat 128 (2 ^ (8 * len) - 1) else w

/-- Dispatch of a vector or matrix instruction of `len` bytes (R94, R141): the prefix is consumed (R25). -/
def dispatch (len : Nat) (op : VOp) (pre : Word → Word → M Unit) : M Unit := do
  let s ← get
  let c := s.ctx s.cur
  let pfx := if c.pp then some c.pfx else none
  match dispatchFault c pfx op with
  | some (code, sub) => fault code sub (s.iw.setWidth 64)
  | none =>
    let a ← useOpt (op.recorded pfx).1
    let b ← useOpt (op.recorded pfx).2
    dispatchWith op pfx a b (cutWord len s.iw) c.pc c.priv pre
    modCur fun c => { c with sr := c.sr &&& ~~~1#64 }

/-- No checks of its own. -/
def noPre (_ _ : Word) : M Unit := pure ()

/-- A vector or matrix instruction of `len` bytes. -/
def vecN (len : Nat) (o : Low) (op : VOp) (pre : Word → Word → M Unit) (s : State) : Outcome :=
  outcome (do
    let s ← get
    if !s.mayIssue s.cur then throw (.refuse .noContext)
    let pc ← nextPc len
    dispatch len op pre
    modify (complete pc (o.yld == 1) o.dly.toNat)) s

/-- A long-form vector instruction without checks of its own. -/
def vec (o : Low) (op : VOp) (s : State) : Outcome := vecN 12 o op noPre s

/-! ### Lanes -/

/-- An x register as it was read at dispatch. -/
def Pend.xv (p : Pend) (n : Nat) : Word := if n = 0 then 0 else Tbl.get 0 p.x n

/-- The active lanes under a guard (R143). -/
def activeLanes (c : Ctx) (p : Pend) (g : BitVec 4) : List Nat := (List.range c.vl).filter fun i => maskBit p.xv g i

/-- One element of a lane (R142). -/
def Ctx.elem (c : Ctx) (ty : BitVec 3) (r lane pos : Nat) : Nat :=
  if ty = 4 then (c.vr r lane).toNat + (c.vr (r + 1) lane).toNat * 2 ^ 32
  else elemAt (tyBits ty) pos (c.vr r lane).toNat

/-- The elements of a lane written (R142); a mark goes with them. -/
def Ctx.putElems (c : Ctx) (ty : BitVec 3) (r lane : Nat) (es : List Nat) (m : Nat) : Ctx :=
  if ty = 4 then
    let v := es.headD 0
    (c.setV r lane (BitVec.ofNat 32 v) m).setV (r + 1) lane (BitVec.ofNat 32 (v / 2 ^ 32)) m
  else c.setV r lane (BitVec.ofNat 32 (packElems (tyBits ty) es)) m

/-- The registers of an element under a type (R142). -/
def tyRegs (ty : BitVec 3) (r : Nat) : List Nat := if ty = 4 then [r, r + 1] else [r]

/-- The first mark among lanes of registers, 0 for none. -/
def Ctx.laneMark (c : Ctx) (regs lanes : List Nat) : Nat :=
  lanes.foldl (fun m i => regs.foldl (fun m r => if m = 0 then c.vmark r i else m) m) 0

/-- A poisoned element that an instruction reads faults (R145) (DEDUCED, log entry 16). -/
def checkLanes (c : Ctx) (regs lanes : List Nat) : M Unit :=
  let m := c.laneMark regs lanes
  if m = 0 then pure () else fault 23 (markSub m 2).toNat (markVal m)

/-- An operation on each element of each active lane (R142, R143): the source elements in order, and the flags ORed
(R144). -/
def mapLanes (ty : BitVec 3) (d : Nat) (srcs lanes : List Nat) (f : List Nat → Nat × Flags) (c : Ctx) : Ctx × Flags :=
  lanes.foldl (fun (a : Ctx × Flags) i =>
    let es := (List.range (tyCount ty)).map fun q => f (srcs.map fun r => c.elem ty r i q)
    (a.1.putElems ty d i (es.map (·.1)) 0, es.foldl (fun fl e => fl ||| e.2) a.2)) (c, 0)

/-- A mask quad written whole from the lanes whose bit is 1 (R12). -/
def Ctx.setQuad (c : Ctx) (q : Nat) (bit : Nat → Bool) : Ctx :=
  (List.range 4).foldl (fun (c : Ctx) k =>
    c.setX (32 + 4 * q + k) (BitVec.ofNat 64
      ((List.range 64).foldl (fun n i => if bit (64 * k + i) then n + 2 ^ i else n) 0))) c

/-! ### What the computing instructions compute -/

/-- An element of `w` bits as a signed number. -/
def sgn (w v : Nat) : Int := if v < 2 ^ (w - 1) then v else (v : Int) - 2 ^ w

/-- A number modulo 2^w. -/
def wrap (w : Nat) (v : Int) : Nat := (v % 2 ^ w).toNat

/-- Number of 1 bits among the low `w`. -/
def popw (w v : Nat) : Nat := ((List.range w).filter fun i => v.testBit i).length

/-- R149. -/
def intOp (w fn a b : Nat) : Nat :=
  let sh := b % w
  match fn with
  | 0 => (a + b) % 2 ^ w
  | 1 => wrap w ((a : Int) - b)
  | 2 => a * b % 2 ^ w
  | 3 => wrap w (sgn w a * sgn w b / 2 ^ w)
  | 4 => a * b / 2 ^ w
  | 5 => if sgn w b < sgn w a then b else a
  | 6 => min a b
  | 7 => if sgn w a < sgn w b then b else a
  | 8 => max a b
  | 9 => a &&& b
  | 10 => a ||| b
  | 11 => a ^^^ b
  | 12 => a * 2 ^ sh % 2 ^ w
  | 13 => a / 2 ^ sh
  | 14 => wrap w (sgn w a / 2 ^ sh)
  | 15 => wrap w (sgn w a).natAbs
  | 16 => wrap w (-(a : Int))
  | 17 => wrap w (satS w (sgn w a + sgn w b))
  | 18 => wrap w (satS w (sgn w a - sgn w b))
  | 19 => wrap w (satU w ((a : Int) + b))
  | 20 => wrap w (satU w ((a : Int) - b))
  | 21 => popw w a
  | _ => w - bitLen a

/-- R150: `g` is the rounding nibble. -/
def floatOp (f : Fmt) (fn : Nat) (g : BitVec 4) (a b c : Nat) : Nat × Flags :=
  let mode := g.toNat % 4
  let ftz := g.getLsbD 2
  match fn with
  | 0 => fAdd f mode ftz a b
  | 1 => fSub f mode ftz a b
  | 2 => fMul f mode ftz a b
  | 3 => fDiv f mode ftz a b
  | 4 => fSqrt f mode ftz a
  | 5 => fMinMax f false false a b
  | 6 => fMinMax f true false a b
  | 7 => (fAbs f a, 0)
  | 8 => (fNeg f a, 0)
  | 9 => fFma f mode ftz false false a b c
  | 10 => fFma f mode ftz false true a b c
  | 11 => fFma f mode ftz true false a b c
  | 12 => fRcp f mode ftz a
  | 13 => fRsqrt f mode ftz a
  | 14 => fEx2 f mode ftz a
  | 15 => fLg2 f mode ftz a
  | _ => (fCopysign f a b, 0)

/-- Whether an ordering satisfies a relation: = ≠ < ≤ > ≥ (R151). -/
def relHolds (fn : Nat) (o : Ordering) : Bool :=
  match fn with
  | 0 => o == .eq
  | 1 => o != .eq
  | 2 => o == .lt
  | 3 => o != .gt
  | 4 => o == .gt
  | _ => o != .lt

/-- R151 for one element. -/
def cmpOp (ty : BitVec 3) (fn a b : Nat) : Bool × Flags :=
  if tyFloat ty then
    let f := tyFmt ty
    match fn with
    | 0 => fEq f false a b
    | 1 => let r := fEq f false a b; (!r.1, r.2)
    | _ => fOrd f false (relHolds fn) a b
  else if fn < 6 then (relHolds fn (compare (sgn (tyBits ty) a) (sgn (tyBits ty) b)), 0)
  else (relHolds (fn - 4) (compare a b), 0)

/-- The formats of a function code of R156, as what it does to a source element under a mode and `.ftz`. -/
def cvtOp (fn mode : Nat) (ftz : Bool) (a : Nat) : Nat × Flags :=
  let int := fun (r : Int × Flags) => (wrap 32 r.1, r.2)
  match fn with
  | 0 => cvtIF f32 mode ftz (sgn 32 a)
  | 1 => cvtIF f32 mode ftz a
  | 2 => int (cvtFI f32 mode ftz 32 true a)
  | 3 => int (cvtFI f32 mode ftz 32 false a)
  | 4 => cvtFF f32 f16 mode ftz a
  | 5 => cvtFF f32 bf16 mode ftz a
  | 6 => cvtFF f16 f32 0 false a
  | 7 => cvtFF bf16 f32 0 false a
  | 8 => e4m3Encode mode (f32.decode ftz a)
  | 9 => f32.deliver 0 false (e4m3Decode a)
  | 10 => cvtFF f32 f64 0 false a
  | 11 => cvtFF f64 f32 mode ftz a
  | 12 => cvtIF f64 mode ftz (sgn 32 a)
  | 13 => int (cvtFI f64 mode ftz 32 true a)
  | 14 => cvtFF bf16 f16 mode ftz a
  | _ => cvtFF f16 bf16 mode ftz a

/-- The width and position of the element that a conversion reads, and of the one that it writes. -/
def cvtPlaces (fn b : Nat) : (Nat × Nat) × (Nat × Nat) :=
  match fn with
  | 4 => ((32, 0), (16, b))
  | 5 => ((32, 0), (16, b))
  | 6 => ((16, b), (32, 0))
  | 7 => ((16, b), (32, 0))
  | 8 => ((32, 0), (8, b))
  | 9 => ((8, b), (32, 0))
  | 10 => ((32, 0), (64, 0))
  | 11 => ((64, 0), (32, 0))
  | 12 => ((32, 0), (64, 0))
  | 13 => ((64, 0), (32, 0))
  | _ => ((32, 0), (32, 0))

/-- A lane of a conversion (R156, R157): other positions of a narrow destination keep their bits. -/
def cvtLane (fn b mode : Nat) (ftz : Bool) (c : Ctx) (d a i : Nat) (c' : Ctx) : Ctx × Flags :=
  if fn ≥ 14 then
    let es := (List.range 2).map fun q => cvtOp fn mode ftz (c.elem 2 a i q)
    (c'.putElems 2 d i (es.map (·.1)) 0, es.foldl (fun fl e => fl ||| e.2) 0)
  else
    let ((wa, pa), (wd, pd)) := cvtPlaces fn b
    let v := if wa = 64 then c.elem 4 a i 0 else elemAt wa pa (c.vr a i).toNat
    let r := cvtOp fn mode ftz v
    if wd = 64 then (c'.putElems 4 d i [r.1] 0, r.2)
    else
      let n := 32 / wd
      let old := (c.vr d i).toNat
      let es := (List.range n).map fun q => if q = pd then r.1 else elemAt wd q old
      (c'.setV d i (BitVec.ofNat 32 (packElems wd es)) 0, r.2)

/-- The operation of a reduction on two values with their flags (R158). -/
def redOp (ty : BitVec 3) (fn : Nat) (g : BitVec 4) (a b : Nat × Flags) : Nat × Flags :=
  let r : Nat × Flags :=
    if tyFloat ty then floatOp (tyFmt ty) (match fn with | 0 => 0 | 1 => 5 | _ => 6) g a.1 b.1 0
    else (intOp (tyBits ty) (match fn with | 0 => 0 | 1 => 5 | 2 => 7 | 3 => 9 | 4 => 10 | 5 => 11 | 6 => 6 | _ => 8) a.1 b.1, 0)
  (r.1, a.2 ||| b.2 ||| r.2)

/-- The value of a reduction of no lane (R66). -/
def redEmpty (ty : BitVec 3) (fn : Nat) : Nat :=
  let w := tyBits ty
  if tyFloat ty then (if fn = 0 then 0 else (tyFmt ty).nan)
  else
    match fn with
    | 1 => 2 ^ (w - 1) - 1
    | 2 => 2 ^ (w - 1)
    | 3 => 2 ^ w - 1
    | 6 => 2 ^ w - 1
    | _ => 0

/-- PairwiseReduce over the lanes from 0 to n − 1 at one position (R66) (DEDUCED, log entry 29). -/
def reduceAt (ty : BitVec 3) (fn : Nat) (g : BitVec 4) (c : Ctx) (a pos n : Nat) (act : Nat → Bool) : Option (Nat × Flags) :=
  pairwise (redOp ty fn g) 9 ((List.range n).map fun i => if act i then some (c.elem ty a i pos, 0) else none)

/-- `vred` (R158, R159). -/
def vredWord (ty : BitVec 3) (es : List Nat) : Word :=
  if ty = 0 then signExt 32 (es.headD 0)
  else if ty = 1 ∨ ty = 4 then BitVec.ofNat 64 (es.headD 0)
  else BitVec.ofNat 64 (packElems (tyBits ty) es)

/-- `vscan` at one position: the results of lanes 0 to n − 1 in order, each with the flags of its own reduction (R67)
(DEDUCED, log entry 29). -/
def scanAt (ty : BitVec 3) (fn : Nat) (g : BitVec 4) (c : Ctx) (a pos : Nat) (act : Nat → Bool) (n : Nat) : List (Nat × Flags) :=
  (List.range n).foldl (fun (out : List (Nat × Flags)) j =>
    let v := if act j then (reduceAt ty fn g c a pos (j + 1) act).getD (redEmpty ty fn, 0)
      else (((out.getLast?).map (·.1)).getD (redEmpty ty fn), 0)
    out ++ [v]) []

/-- One token of the expression unit on a stack of values, top first (R90, R161). -/
def exprToken (f : Fmt) (g : BitVec 4) (ins : Nat → Nat) (k : Nat) (t : Nat) (st : List Nat × Flags) : List Nat × Flags :=
  let un := fun (r : Nat × Flags) (rest : List Nat) => (r.1 :: rest, st.2 ||| r.2)
  match st.1 with
  | z :: y :: x :: rest =>
    if t = 9 then un (floatOp f 9 g x y z) rest
    else if 1 ≤ t ∧ t ≤ 4 then (ins t :: st.1, st.2)
    else if t = 5 then (k :: st.1, st.2)
    else if 6 ≤ t ∧ t ≤ 11 then un (floatOp f (match t with | 6 => 0 | 7 => 1 | 8 => 2 | 10 => 5 | _ => 6) g y z 0) (x :: rest)
    else un (floatOp f (match t with | 12 => 8 | 13 => 7 | 14 => 12 | _ => 14) g z 0 0) (y :: x :: rest)
  | [y, x] =>
    if 1 ≤ t ∧ t ≤ 4 then (ins t :: st.1, st.2)
    else if t = 5 then (k :: st.1, st.2)
    else if 6 ≤ t ∧ t ≤ 11 then un (floatOp f (match t with | 6 => 0 | 7 => 1 | 8 => 2 | 10 => 5 | _ => 6) g x y 0) []
    else un (floatOp f (match t with | 12 => 8 | 13 => 7 | 14 => 12 | _ => 14) g y 0 0) [x]
  | [x] =>
    if 1 ≤ t ∧ t ≤ 4 then (ins t :: st.1, st.2)
    else if t = 5 then (k :: st.1, st.2)
    else un (floatOp f (match t with | 12 => 8 | 13 => 7 | 14 => 12 | _ => 14) g x 0 0) []
  | [] => if t = 5 then ([k], st.2) else ([ins t], st.2)

/-- The tokens of an expression up to the first 0 (R90). -/
def exprTokens (tok : BitVec 48) : List Nat := (tokenList tok).takeWhile (· != 0)

/-- The four inputs of an expression by token. -/
def exprInput (o : ExE) (t : Nat) : Nat :=
  match t with
  | 1 => o.a.toNat
  | 2 => o.b.toNat
  | 3 => o.c.toNat
  | _ => o.e.toNat

/-- One element of `vexpr` (R161). -/
def exprAt (o : ExE) (c : Ctx) (lane pos : Nat) : Nat × Flags :=
  let f := tyFmt o.ty
  let k := (cvtFF bf16 f 0 false o.kbf.toNat).1
  let r := (exprTokens o.tok).foldl (fun st t => exprToken f o.g2 (fun t => c.elem o.ty (exprInput o t) lane pos) k t st) ([], 0)
  (r.1.headD 0, r.2)

/-! ### Retirement of the computing instructions -/

/-- What an instruction that computes does to its context when it retires, and its flags. -/
abbrev Retired := M (Ctx × Flags)

/-- Major 0x10 (R149). -/
def retireInt (fn : Nat) (o : Lg) (p : Pend) (c : Ctx) : Retired := do
  let act := activeLanes c p o.g1
  let one := fn = 15 ∨ fn = 16 ∨ fn ≥ 21
  checkLanes c (if one then [o.a.toNat] else [o.a.toNat, o.b.toNat]) act
  return mapLanes o.ty o.d.toNat [o.a.toNat, o.b.toNat] act
    (fun v => (intOp (tyBits o.ty) fn (v.getD 0 0) (v.getD 1 0), 0)) c

/-- The sources of a function code of major 0x11. -/
def floatSources (fn : Nat) (o : Lg) : List Nat :=
  if fn = 4 ∨ fn = 7 ∨ fn = 8 ∨ (12 ≤ fn ∧ fn ≤ 15) then [o.a.toNat]
  else if 9 ≤ fn ∧ fn ≤ 11 then [o.a.toNat, o.b.toNat, o.c.toNat]
  else [o.a.toNat, o.b.toNat]

/-- Major 0x11 (R150). -/
def retireFloat (fn : Nat) (o : Lg) (p : Pend) (c : Ctx) : Retired := do
  let act := activeLanes c p o.g1
  let srcs := floatSources fn o
  checkLanes c (srcs.flatMap (tyRegs o.ty)) act
  return mapLanes o.ty o.d.toNat srcs act
    (fun v => floatOp (tyFmt o.ty) fn o.g2 (v.getD 0 0) (v.getD 1 0) (v.getD 2 0)) c

/-- Major 0x12 (R151). -/
def retireCmp (fn : Nat) (o : Lg) (p : Pend) (c : Ctx) : Retired := do
  let act := activeLanes c p o.g1
  checkLanes c ([o.a.toNat, o.b.toNat].flatMap (tyRegs o.ty)) act
  let test := fun i => (List.range (tyCount o.ty)).map fun q => cmpOp o.ty fn (c.elem o.ty o.a.toNat i q) (c.elem o.ty o.b.toNat i q)
  let fl := act.foldl (fun fl i => (test i).foldl (fun fl r => fl ||| r.2) fl) 0
  let on := act.filter fun i => (test i).all (·.1)
  return (c.setQuad o.d.toNat fun i => on.contains i, fl)

/-- Major 0x13 (R152 to R154). Of the two sources of `vsel` a lane reads the one that its mask bit selects, so that a mark in
the other faults nothing (DESIGN CHOICE, log entry 61). `vbcast.f64` of a signalling NaN makes it quiet and sets no flag, as R144
has it of an instruction that neither rounds nor compares (DESIGN CHOICE, log entry 70). -/
def retireMisc (fn : Nat) (o : Lg) (p : Pend) (c : Ctx) : Retired := do
  let act := activeLanes c p o.g1
  let d := o.d.toNat
  let a := o.a.toNat
  match fn with
  | 0 =>
    let pick := fun i => if maskBit p.xv o.g2 i then a else o.b.toNat
    let m := act.foldl (fun m i => if m = 0 then c.vmark (pick i) i else m) 0
    if m != 0 then fault 23 (markSub m 2).toNat (markVal m)
    return (act.foldl (fun c' i => c'.setV d i (c.vr (pick i) i) 0) c, 0)
  | 1 =>
    let n := p.dra.toInt
    return (c.setQuad d fun i => decide ((i : Int) < n) && decide (i < c.vl), 0)
  | 2 =>
    let s : Word := if a != 0 then p.dra
      else if o.ty = 0 then o.imm.signExtend 64
      else if o.ty = 1 then o.imm.setWidth 64
      else BitVec.ofNat 64 (cvtFF f32 f64 0 false o.imm.toNat).1
    return (act.foldl (fun c' i => c'.putElems (if o.ty = 4 then 4 else 0) d i [if o.ty = 4 then s.toNat else s.toNat % 2 ^ 32] 0) c, 0)
  | 3 =>
    checkLanes c (tyRegs o.ty a) act
    return (act.foldl (fun c' i => (tyRegs o.ty 0).foldl (fun c' k => c'.setV (d + k) i (c.vr (a + k) i) 0) c') c, 0)
  | 4 =>
    let i := p.dra.toNat
    if act.contains i then
      checkLanes c (tyRegs o.ty a) [i]
      let v := c.elem (if o.ty = 4 then 4 else 0) a i 0
      return (c.setX d (if o.ty = 0 then signExt 32 v else BitVec.ofNat 64 v), 0)
    else return (c, 0)
  | 5 =>
    let i := p.drb.toNat
    if act.contains i then
      return (c.putElems (if o.ty = 4 then 4 else 0) d i [if o.ty = 4 then p.dra.toNat else p.dra.toNat % 2 ^ 32] 0, 0)
    else return (c, 0)
  | _ =>
    return (c.setX d (BitVec.ofNat 64 ((List.range c.vl).filter fun i => quadBit p.xv a i).length), 0)

/-- Major 0x14 (R155): the source lane of each active lane, none for zero. -/
def permSource (fn : Nat) (o : Lg) (p : Pend) (c : Ctx) (i : Nat) : Option Nat :=
  let vl := c.vl
  match fn with
  | 0 => let j := (c.vr o.b.toNat i).toNat; if j < vl then some j else none
  | 1 => some ((i + p.dra.toNat % vl) % vl)
  | 2 => ((List.range vl).filter fun j => quadBit p.xv o.b.toNat j)[i]?
  | _ => if quadBit p.xv o.b.toNat i then some ((List.range i).filter fun j => quadBit p.xv o.b.toNat j).length else none

/-- Major 0x14 (R155). A marked lane of va faults where an active destination takes it, whatever the guard holds for the
source lane itself (R145) (DESIGN CHOICE, log entry 61). -/
def retirePerm (fn : Nat) (o : Lg) (p : Pend) (c : Ctx) : Retired := do
  let act := activeLanes c p o.g1
  if fn = 0 then checkLanes c [o.b.toNat] act
  checkLanes c [o.a.toNat] (act.filterMap (permSource fn o p c))
  return (act.foldl (fun c' i => c'.setV o.d.toNat i
    (match permSource fn o p c i with
      | some j => c.vr o.a.toNat j
      | none => 0) 0) c, 0)

/-- Major 0x15 (R156, R157). -/
def retireCvt (fn : Nat) (o : Lg) (p : Pend) (c : Ctx) : Retired := do
  let act := activeLanes c p o.g1
  let wide := fn = 11 ∨ fn = 13
  let narrow := fn = 4 ∨ fn = 5 ∨ fn = 8
  checkLanes c ((if wide then [o.a.toNat, o.a.toNat + 1] else [o.a.toNat]) ++ (if narrow then [o.d.toNat] else [])) act
  return act.foldl (fun (r : Ctx × Flags) i =>
    let (c', fl) := cvtLane fn o.b.toNat (o.g2.toNat % 4) (o.g2.getLsbD 2) c o.d.toNat o.a.toNat i r.1
    (c', r.2 ||| fl)) (c, 0)

/-- Major 0x16 (R158, R159) (DEDUCED, log entry 29). -/
def retireRed (fn : Nat) (o : Lg) (p : Pend) (c : Ctx) : Retired := do
  let act := activeLanes c p o.g1
  checkLanes c (tyRegs o.ty o.a.toNat) act
  let on := fun i => act.contains i
  if fn < 8 then
    let es := (List.range (tyCount o.ty)).map fun q =>
      (reduceAt o.ty fn o.g2 c o.a.toNat q c.vl on).getD (redEmpty o.ty fn, 0)
    return (c.setX o.d.toNat (vredWord o.ty (es.map (·.1))), if tyFloat o.ty then es.foldl (fun fl e => fl ||| e.2) 0 else 0)
  else
    let cols := (List.range (tyCount o.ty)).map fun q => scanAt o.ty (fn - 8) o.g2 c o.a.toNat q on c.vl
    let fl := cols.foldl (fun fl col => col.foldl (fun fl e => fl ||| e.2) fl) 0
    return ((List.range c.vl).foldl (fun c' i =>
      c'.putElems o.ty o.d.toNat i (cols.map fun col => (col.getD i (0, 0)).1) 0) c, if tyFloat o.ty then fl else 0)

/-- `vexpr` (R160, R161). -/
def retireExpr (o : ExE) (p : Pend) (c : Ctx) : Retired := do
  let act := activeLanes c p o.g1
  let used := (exprTokens o.tok).filter fun t => decide (1 ≤ t ∧ t ≤ 4)
  checkLanes c (used.map (exprInput o)) act
  return act.foldl (fun (r : Ctx × Flags) i =>
    let es := (List.range (tyCount o.ty)).map fun q => exprAt o c i q
    (r.1.putElems o.ty o.d.toNat i (es.map (·.1)) 0, es.foldl (fun fl e => fl ||| e.2) r.2)) (c, 0)

/-! ### The instructions -/

/-- VADD_INT (06 R149). -/
def execVaddInt (o : Lg) (s : State) : Outcome := vec o.toLow (.int 0 o) s

/-- VSUB_INT (06 R149). -/
def execVsubInt (o : Lg) (s : State) : Outcome := vec o.toLow (.int 1 o) s

/-- VMUL_INT (06 R149). -/
def execVmulInt (o : Lg) (s : State) : Outcome := vec o.toLow (.int 2 o) s

/-- VMULH (06 R149). -/
def execVmulh (o : Lg) (s : State) : Outcome := vec o.toLow (.int 3 o) s

/-- VMULHU (06 R149). -/
def execVmulhu (o : Lg) (s : State) : Outcome := vec o.toLow (.int 4 o) s

/-- VMIN_INT (06 R149). -/
def execVminInt (o : Lg) (s : State) : Outcome := vec o.toLow (.int 5 o) s

/-- VMINU (06 R149). -/
def execVminu (o : Lg) (s : State) : Outcome := vec o.toLow (.int 6 o) s

/-- VMAX_INT (06 R149). -/
def execVmaxInt (o : Lg) (s : State) : Outcome := vec o.toLow (.int 7 o) s

/-- VMAXU (06 R149). -/
def execVmaxu (o : Lg) (s : State) : Outcome := vec o.toLow (.int 8 o) s

/-- VAND (06 R149). -/
def execVand (o : Lg) (s : State) : Outcome := vec o.toLow (.int 9 o) s

/-- VOR (06 R149). -/
def execVor (o : Lg) (s : State) : Outcome := vec o.toLow (.int 10 o) s

/-- VXOR (06 R149). -/
def execVxor (o : Lg) (s : State) : Outcome := vec o.toLow (.int 11 o) s

/-- VSHL (06 R149). -/
def execVshl (o : Lg) (s : State) : Outcome := vec o.toLow (.int 12 o) s

/-- VSHR (06 R149). -/
def execVshr (o : Lg) (s : State) : Outcome := vec o.toLow (.int 13 o) s

/-- VSRA (06 R149). -/
def execVsra (o : Lg) (s : State) : Outcome := vec o.toLow (.int 14 o) s

/-- VABS_INT (06 R149). -/
def execVabsInt (o : Lg) (s : State) : Outcome := vec o.toLow (.int 15 o) s

/-- VNEG_INT (06 R149). -/
def execVnegInt (o : Lg) (s : State) : Outcome := vec o.toLow (.int 16 o) s

/-- VADD_SAT (06 R149). -/
def execVaddSat (o : Lg) (s : State) : Outcome := vec o.toLow (.int 17 o) s

/-- VSUB_SAT (06 R149). -/
def execVsubSat (o : Lg) (s : State) : Outcome := vec o.toLow (.int 18 o) s

/-- VADDU_SAT (06 R149). -/
def execVadduSat (o : Lg) (s : State) : Outcome := vec o.toLow (.int 19 o) s

/-- VSUBU_SAT (06 R149). -/
def execVsubuSat (o : Lg) (s : State) : Outcome := vec o.toLow (.int 20 o) s

/-- VPOP (06 R149). -/
def execVpop (o : Lg) (s : State) : Outcome := vec o.toLow (.int 21 o) s

/-- VCLZ (06 R149). -/
def execVclz (o : Lg) (s : State) : Outcome := vec o.toLow (.int 22 o) s

/-- VADD_F (06 R150). -/
def execVaddF (o : Lg) (s : State) : Outcome := vec o.toLow (.float 0 o) s

/-- VSUB_F (06 R150). -/
def execVsubF (o : Lg) (s : State) : Outcome := vec o.toLow (.float 1 o) s

/-- VMUL_F (06 R150). -/
def execVmulF (o : Lg) (s : State) : Outcome := vec o.toLow (.float 2 o) s

/-- VDIV (06 R150). -/
def execVdiv (o : Lg) (s : State) : Outcome := vec o.toLow (.float 3 o) s

/-- VSQRT (06 R150). -/
def execVsqrt (o : Lg) (s : State) : Outcome := vec o.toLow (.float 4 o) s

/-- VMIN_F (06 R150). -/
def execVminF (o : Lg) (s : State) : Outcome := vec o.toLow (.float 5 o) s

/-- VMAX_F (06 R150). -/
def execVmaxF (o : Lg) (s : State) : Outcome := vec o.toLow (.float 6 o) s

/-- VABS_F (06 R150). -/
def execVabsF (o : Lg) (s : State) : Outcome := vec o.toLow (.float 7 o) s

/-- VNEG_F (06 R150). -/
def execVnegF (o : Lg) (s : State) : Outcome := vec o.toLow (.float 8 o) s

/-- VFMA (06 R150). -/
def execVfma (o : Lg) (s : State) : Outcome := vec o.toLow (.float 9 o) s

/-- VFMS (06 R150). -/
def execVfms (o : Lg) (s : State) : Outcome := vec o.toLow (.float 10 o) s

/-- VFNMA (06 R150). -/
def execVfnma (o : Lg) (s : State) : Outcome := vec o.toLow (.float 11 o) s

/-- VRCP (06 R150). -/
def execVrcp (o : Lg) (s : State) : Outcome := vec o.toLow (.float 12 o) s

/-- VRSQRT (06 R150). -/
def execVrsqrt (o : Lg) (s : State) : Outcome := vec o.toLow (.float 13 o) s

/-- VEX2 (06 R150). -/
def execVex2 (o : Lg) (s : State) : Outcome := vec o.toLow (.float 14 o) s

/-- VLG2 (06 R150). -/
def execVlg2 (o : Lg) (s : State) : Outcome := vec o.toLow (.float 15 o) s

/-- VCOPYSIGN (06 R150). -/
def execVcopysign (o : Lg) (s : State) : Outcome := vec o.toLow (.float 16 o) s

/-- VCMP_EQ (06 R151). -/
def execVcmpEq (o : Lg) (s : State) : Outcome := vec o.toLow (.cmp 0 o) s

/-- VCMP_NE (06 R151). -/
def execVcmpNe (o : Lg) (s : State) : Outcome := vec o.toLow (.cmp 1 o) s

/-- VCMP_LT (06 R151). -/
def execVcmpLt (o : Lg) (s : State) : Outcome := vec o.toLow (.cmp 2 o) s

/-- VCMP_LE (06 R151). -/
def execVcmpLe (o : Lg) (s : State) : Outcome := vec o.toLow (.cmp 3 o) s

/-- VCMP_GT (06 R151). -/
def execVcmpGt (o : Lg) (s : State) : Outcome := vec o.toLow (.cmp 4 o) s

/-- VCMP_GE (06 R151). -/
def execVcmpGe (o : Lg) (s : State) : Outcome := vec o.toLow (.cmp 5 o) s

/-- VCMP_LTU (06 R151). -/
def execVcmpLtu (o : Lg) (s : State) : Outcome := vec o.toLow (.cmp 6 o) s

/-- VCMP_LEU (06 R151). -/
def execVcmpLeu (o : Lg) (s : State) : Outcome := vec o.toLow (.cmp 7 o) s

/-- VCMP_GTU (06 R151). -/
def execVcmpGtu (o : Lg) (s : State) : Outcome := vec o.toLow (.cmp 8 o) s

/-- VCMP_GEU (06 R151). -/
def execVcmpGeu (o : Lg) (s : State) : Outcome := vec o.toLow (.cmp 9 o) s

/-- VSEL (06 R152). -/
def execVsel (o : Lg) (s : State) : Outcome := vec o.toLow (.misc 0 o) s

/-- VMKL (06 R153). -/
def execVmkl (o : Lg) (s : State) : Outcome := vec o.toLow (.misc 1 o) s

/-- VMPOP (06 R153). -/
def execVmpop (o : Lg) (s : State) : Outcome := vec o.toLow (.misc 6 o) s

/-- VBCAST (06 R154). -/
def execVbcast (o : Lg) (s : State) : Outcome := vec o.toLow (.misc 2 o) s

/-- VMOV (06 R154). -/
def execVmov (o : Lg) (s : State) : Outcome := vec o.toLow (.misc 3 o) s

/-- VGET (06 R154). -/
def execVget (o : Lg) (s : State) : Outcome := vec o.toLow (.misc 4 o) s

/-- VPUT (06 R154). -/
def execVput (o : Lg) (s : State) : Outcome := vec o.toLow (.misc 5 o) s

/-- VPERM (06 R155). -/
def execVperm (o : Lg) (s : State) : Outcome := vec o.toLow (.perm 0 o) s

/-- VROT (06 R155). -/
def execVrot (o : Lg) (s : State) : Outcome := vec o.toLow (.perm 1 o) s

/-- VCOMPRESS (06 R155). -/
def execVcompress (o : Lg) (s : State) : Outcome := vec o.toLow (.perm 2 o) s

/-- VEXPAND (06 R155). -/
def execVexpand (o : Lg) (s : State) : Outcome := vec o.toLow (.perm 3 o) s

/-- VCVT_F32_I32 (06 R156). -/
def execVcvtF32I32 (o : Lg) (s : State) : Outcome := vec o.toLow (.cvt 0 o) s

/-- VCVT_F32_N32 (06 R156). -/
def execVcvtF32N32 (o : Lg) (s : State) : Outcome := vec o.toLow (.cvt 1 o) s

/-- VCVT_I32_F32 (06 R156). -/
def execVcvtI32F32 (o : Lg) (s : State) : Outcome := vec o.toLow (.cvt 2 o) s

/-- VCVT_N32_F32 (06 R156). -/
def execVcvtN32F32 (o : Lg) (s : State) : Outcome := vec o.toLow (.cvt 3 o) s

/-- VCVT_F16_F32 (06 R156). -/
def execVcvtF16F32 (o : Lg) (s : State) : Outcome := vec o.toLow (.cvt 4 o) s

/-- VCVT_BF16_F32 (06 R156). -/
def execVcvtBf16F32 (o : Lg) (s : State) : Outcome := vec o.toLow (.cvt 5 o) s

/-- VCVT_F32_F16 (06 R156). -/
def execVcvtF32F16 (o : Lg) (s : State) : Outcome := vec o.toLow (.cvt 6 o) s

/-- VCVT_F32_BF16 (06 R156). -/
def execVcvtF32Bf16 (o : Lg) (s : State) : Outcome := vec o.toLow (.cvt 7 o) s

/-- VCVT_E4M3_F32 (06 R156). -/
def execVcvtE4m3F32 (o : Lg) (s : State) : Outcome := vec o.toLow (.cvt 8 o) s

/-- VCVT_F32_E4M3 (06 R156). -/
def execVcvtF32E4m3 (o : Lg) (s : State) : Outcome := vec o.toLow (.cvt 9 o) s

/-- VCVT_F64_F32 (06 R156). -/
def execVcvtF64F32 (o : Lg) (s : State) : Outcome := vec o.toLow (.cvt 10 o) s

/-- VCVT_F32_F64 (06 R156). -/
def execVcvtF32F64 (o : Lg) (s : State) : Outcome := vec o.toLow (.cvt 11 o) s

/-- VCVT_F64_I32 (06 R156). -/
def execVcvtF64I32 (o : Lg) (s : State) : Outcome := vec o.toLow (.cvt 12 o) s

/-- VCVT_I32_F64 (06 R156). -/
def execVcvtI32F64 (o : Lg) (s : State) : Outcome := vec o.toLow (.cvt 13 o) s

/-- VCVT_F16_BF16 (06 R156). -/
def execVcvtF16Bf16 (o : Lg) (s : State) : Outcome := vec o.toLow (.cvt 14 o) s

/-- VCVT_BF16_F16 (06 R156). -/
def execVcvtBf16F16 (o : Lg) (s : State) : Outcome := vec o.toLow (.cvt 15 o) s

/-- VRED_ADD (06 R158). -/
def execVredAdd (o : Lg) (s : State) : Outcome := vec o.toLow (.red 0 o) s

/-- VRED_MIN (06 R158). -/
def execVredMin (o : Lg) (s : State) : Outcome := vec o.toLow (.red 1 o) s

/-- VRED_MAX (06 R158). -/
def execVredMax (o : Lg) (s : State) : Outcome := vec o.toLow (.red 2 o) s

/-- VRED_AND (06 R158). -/
def execVredAnd (o : Lg) (s : State) : Outcome := vec o.toLow (.red 3 o) s

/-- VRED_OR (06 R158). -/
def execVredOr (o : Lg) (s : State) : Outcome := vec o.toLow (.red 4 o) s

/-- VRED_XOR (06 R158). -/
def execVredXor (o : Lg) (s : State) : Outcome := vec o.toLow (.red 5 o) s

/-- VRED_MINU (06 R158). -/
def execVredMinu (o : Lg) (s : State) : Outcome := vec o.toLow (.red 6 o) s

/-- VRED_MAXU (06 R158). -/
def execVredMaxu (o : Lg) (s : State) : Outcome := vec o.toLow (.red 7 o) s

/-- VSCAN_ADD (06 R158). -/
def execVscanAdd (o : Lg) (s : State) : Outcome := vec o.toLow (.red 8 o) s

/-- VSCAN_MIN (06 R158). -/
def execVscanMin (o : Lg) (s : State) : Outcome := vec o.toLow (.red 9 o) s

/-- VSCAN_MAX (06 R158). -/
def execVscanMax (o : Lg) (s : State) : Outcome := vec o.toLow (.red 10 o) s

/-- VEXPR (06 R160, R161). -/
def execVexpr (o : ExE) (s : State) : Outcome := vecN 16 o.toLow (.expr o) noPre s

end Sys2Proof.Machine
end

