-- ==== Sys2Proof/Machine/VectorMem.lean ====
section
/-!
DEFINITION. Vector loads and stores (07 R181 to R185), the quantising instructions (06 R162 to R168), and the retirement of
dispatched instructions in sequence (01 R32; 06 R140, R145), with the window requests of vector loads (07 R183, R194).
-/

namespace Sys2Proof.Machine

open Sys2Proof

/-! ### Addresses -/

/-- The element size of a vector memory instruction (R182). -/
def elemSize (ty : BitVec 3) : Nat := if ty = 4 then 8 else 4

/-- An address with a signed displacement. -/
def vecAddr (base : Nat) (d : Int) : Nat := (((base : Int) + d) % 2 ^ 57).toNat

/-- The address of lane `i` (R182). -/
def laneAddr (fn : Nat) (o : LgM) (p : Pend) (c : Ctx) (i : Nat) : Nat :=
  let base := (eaOf p.dra o.off).toNat
  match fn with
  | 0 => vecAddr base (i * elemSize o.ty)
  | 1 => vecAddr base (i * p.drb.toInt)
  | _ => vecAddr base (c.vr o.b.toNat i).toNat

/-- Every address is a multiple of the element size, or the instruction faults (R169). -/
def alignedAll (n : Nat) : List Nat → M Unit
  | [] => return ()
  | va :: t => do
    aligned va n
    alignedAll n t

/-- The privilege and apertures of an instruction in flight: those of its context, at the privilege it was dispatched
at. -/
def State.pendEnv (s : State) (key : Nat) (p : Pend) : Env := { s.envOf key with priv := p.priv }

/-- Where a piece of a vector access lies (R180, R204, R352). -/
def vecLoc (e : Env) (va n kind : Nat) : M Loc := do
  match ← resolve e va n kind with
  | .regs _ => fault 6 (if kind = accRead then 1 else 2) (BitVec.ofNat 64 va)
  | .event _ _ _ => noAperture va
  | .param _ _ => noAperture va
  | l => return l

/-- Where the pieces of a vector access lie: every one is found before any byte moves (R183). -/
def vecLocs (e : Env) (kind : Nat) : List (Nat × Nat) → M (List (Nat × Nat × Loc))
  | [] => return []
  | (va, n) :: t => do
    let l ← vecLoc e va n kind
    return (va, n, l) :: (← vecLocs e kind t)

/-- Whether an address lies in the Tvedlon window (R261). -/
def inWindow (va : Nat) : Bool := va / 2 ^ 55 % 4 == 3

/-! ### Widening loads -/

/-- Elements of a lane of `vldw` (R185). -/
def wideCount (ty : BitVec 3) : Nat := if ty = 1 then 1 else 2

/-- The numbers of the elements of lane `i`. -/
def wideElems (ty : BitVec 3) (i : Nat) : List Nat := (List.range (wideCount ty)).map (wideCount ty * i + ·)

/-- The byte of element `j` of a compact plane: E4M3 or KV4 (R185). -/
def wideByte (fmt base j : Nat) : Nat := vecAddr base (if fmt = 4 then j else (16 * (j / 32) + j % 32 / 2 : Nat))

/-- The scale of element `j` of a KV4 plane. -/
def wideScale (sbase j : Nat) : Nat := vecAddr sbase (2 * (j / 32) : Nat)

/-- What `vldw` reads, in lane order: elements and scales (DEDUCED, log entry 21). -/
def widePieces (o : LgM) (p : Pend) (lanes : List Nat) : List (Nat × Nat) :=
  let fmt := pfxFmt p.pfx
  let base := (eaOf p.dra o.off).toNat
  let sbase := p.drb.toNat % 2 ^ 57
  (lanes.flatMap fun i => (wideElems o.ty i).flatMap fun j =>
    (wideByte fmt base j, 1) :: (if fmt = 5 then [(wideScale sbase j, 2)] else [])).eraseDups

/-! ### Quantised blocks -/

/-- The blocks with an active lane (R163). -/
def activeBlocks (c : Ctx) (act : List Nat) : List Nat :=
  (List.range c.grant).filter fun j => act.any fun i => i / 32 == j

/-- The pieces of block `j`: its element plane and its scale pair (R162) (DEDUCED, log entry 21). -/
def blockPieces (fmt ebase sbase j : Nat) : List (Nat × Nat) :=
  linePieces 3 (vecAddr ebase (j * shBytes fmt : Nat)) (shBytes fmt) ++ linePieces 2 (vecAddr sbase (2 * j : Nat)) 2

/-- The bases of a quantising instruction, with its alignment rules (R162). -/
def quantBases (o : LgM) (p : Pend) : M (Nat × Nat) := do
  let e := (eaOf p.dra o.off).toNat
  let sb := p.drb.toNat % 2 ^ 57
  aligned e 8
  aligned sb 2
  return (e, sb)

/-! ### Reads -/

/-- What a dispatched instruction reads from memory, with the alignment checks of its kind. `vqsh` and `vbaq` find a
misaligned block before a marked lane of vb (R145, R162) (DESIGN CHOICE, log entry 61). -/
def readPieces (op : VOp) (p : Pend) (c : Ctx) : M (List (Nat × Nat)) := do
  match op with
  | .load fn o =>
    let act := activeLanes c p o.g1
    if fn < 3 then
      if fn = 2 then checkLanes c [o.b.toNat] act
      let vas := act.map (laneAddr fn o p c)
      alignedAll (elemSize o.ty) vas
      return vas.map fun va => (va, elemSize o.ty)
    else if fn = 3 then
      if pfxFmt p.pfx = 5 then
        aligned (eaOf p.dra o.off).toNat 16
        aligned (p.drb.toNat % 2 ^ 57) 2
      return widePieces o p act
    else return []
  | .quant fn o =>
    let (e, sb) ← quantBases o p
    if fn = 0 then return []
    else return (activeBlocks c (activeLanes c p o.g1)).flatMap (blockPieces (pfxFmt p.pfx) e sb)
  | _ => return []

/-- A piece as it was read: its bytes, none where the device that holds it did not answer, and their marks. -/
structure Got where
  va : Nat
  n : Nat
  bytes : Option (List Byte)
  marks : List Nat := []
  deriving DecidableEq, Repr

/-- The first mark of a piece, 0 for none. -/
def Got.mark (g : Got) : Nat := markIn g.marks

/-- Whether a part of a window request holds a piece. -/
def holdsPiece (va n : Nat) (q : Nat × Va × Nat) : Bool := decide (q.2.1.toNat ≤ va ∧ va + n ≤ q.2.1.toNat + q.2.2)

/-- The answer of a window request for a piece, in the part that holds it: its bytes, and the marks that came with them
(R402). -/
def WReq.piece (r : WReq) (va n : Nat) : Option (List Byte × List Nat) :=
  match r.parts.zipIdx.find? fun q => holdsPiece va n q.1 with
  | some (q, i) => match Tbl.get [] r.answers i with
    | [] => none
    | bs =>
      let o := va - q.2.1.toNat
      some ((bs.drop o).take n, ((Tbl.get [] r.amarks i).drop o).take n)
  | none => none

/-- Whether the part of a window request that holds a piece failed its export check (R183, R266). -/
def WReq.pieceRefused (r : WReq) (q : Nat × Nat) : Bool :=
  r.parts.any fun t => holdsPiece q.1 q.2 t && r.refused.contains t.1

/-- The window request of an instruction in flight. -/
def State.pendReq (s : State) (p : Pend) : Option WReq := p.req.bind fun id => s.wreqs.find? (·.id == id)

/-- Whether a load under `.rc` finds a window piece in its core's L1 (R172, R178) (DEDUCED, log entry 10). -/
def State.rcHit (s : State) (core ch va n : Nat) : Bool := ch == 5 && decide (n ≤ (Tbl.get [] (s.core core).rc va).length)

/-- The distinct lines of pieces, in the order in which they are reached (R346). -/
def pieceLines (locs : List (Nat × Nat × Loc)) : List Nat :=
  (locs.filterMap fun l => match l.2.2 with
    | .mem q mt => if mt = 3 then none else some (lineOf q)
    | .bank q => some (lineOf q)
    | _ => none).eraseDups

/-! ### The core's vector memory unit -/

/-- An instruction in flight changed. -/
def modPend (key : Nat) (seq : BitVec 16) (f : Pend → Pend) (s : State) : State :=
  s.modCtx key fun c => { c with pend := c.pend.map fun q => if q.seq = seq then f q else q }

/-- Whether the request of another vector load of the core waits at the core because its slice does not take it yet, so that a
later one waits behind it (R346). -/
def State.unitHeld (s : State) (key : Nat) : Bool :=
  (List.range 16).any fun sl =>
    keyOf (coreOfKey key) sl != key && (s.ctx (keyOf (coreOfKey key) sl)).pend.any fun q =>
      q.stuck.any fun line => !s.accepts (.l1 (coreOfKey key)) line

/-- Whether a core's L1, its pool or its die holds a line, free of tiles and of the host. -/
def State.lineHere (s : State) (core line : Nat) : Bool :=
  !s.tileHolds line && !s.hostOwns line && (s.l1 core line != 0 || s.poolHit core line || s.dieLine (dieOfCore core) line != 0)

/-- The request of a vector load for one line (R346): served in the L1, or sent to the die's slice and answered at once or
later; a line that it brought is not asked for again while it is there. A request that the slice does not take waits at
the core. The answer is whether the line is there (DESIGN CHOICE, log entry 1). -/
def vectorLine (key : Nat) (seq : BitVec 16) (ch line : Nat) : M Bool := do
  let s ← get
  let core := coreOfKey key
  let asked := (s.ctx key).pend.any fun q => q.seq == seq && q.asked.contains line
  let note := fun (s : State) => if asked then s else modPend key seq (fun q => { q with asked := line :: q.asked }) s
  if !homed line then
    lineFree (.l1 core) line
    modify (lineRead (.l1 core) ch line)
    return true
  else if asked && s.lineHere core line then return true
  else if s.readWaits (.l1 core) line then
    if s.unitHeld key then heldAgain
    modify (noteMiss (.l1 core) false line)
    if (← get).missed (.l1 core) line then return false
    else
      modify (modPend key seq fun q => { q with stuck := some line })
      heldAgain
  else if s.l1 core line != 0 || s.poolHit core line then
    modify (lineRead (.l1 core) ch line)
    return true
  else
    if s.unitHeld key then heldAgain
    modify fun s => note (lineRead (.l1 core) ch line s)
    return true

/-- The requests of a vector load, in the order in which they are formed (R346). The answer is whether every line is there. -/
def vectorLines (key : Nat) (seq : BitVec 16) (ch : Nat) : List Nat → M Bool
  | [] => return true
  | line :: t => do
    let here ← vectorLine key seq ch line
    return (← vectorLines key seq ch t) && here

/-- A vector load asks for its lines, and waits until all are there (R346). -/
def askLines (key : Nat) (seq : BitVec 16) (ch : Nat) (lines : List Nat) : M Unit := do
  modify (modPend key seq fun q => { q with stuck := none })
  if !(← vectorLines key seq ch lines) then heldAgain

/-- The pieces are read for a maker of accesses (R183): they are found first, then the distinct lines are read through the
caches, and an export check that failed faults. -/
def fetchFor (e : Env) (key : Nat) (read : List Nat → M Unit) (ch : Nat) (req : Option WReq) (pieces : List (Nat × Nat)) :
    M (List Got) := do
  let locs ← vecLocs e accRead pieces
  read (pieceLines locs)
  let s ← get
  if locs.any fun l => l.2.2.place?.any fun q => s.gatewayPost key q l.2.1 then heldAgain
  match req.bind fun r => pieces.find? r.pieceRefused with
  | some q => fault 6 1 (BitVec.ofNat 64 q.1)
  | none =>
    let marks := fun (q n : Nat) => (List.range n).map fun i => s.byteMark (q + i)
    let got := locs.map fun (va, n, l) =>
      match l with
      | .mem q _ => { va := va, n := n, bytes := some (s.ownBytes key q n), marks := s.ownMarks key q n }
      | .bank q => { va := va, n := n, bytes := some (s.bytes q n), marks := marks q n }
      | _ =>
        if s.rcHit e.core ch va n then { va := va, n := n, bytes := some ((Tbl.get [] (s.core e.core).rc va).take n) }
        else
          match req.bind (·.piece va n) with
          | some a => { va := va, n := n, bytes := some a.1, marks := a.2 }
          | none => { va := va, n := n, bytes := none }
    modify fun s => got.foldl (fun s g =>
      match g.bytes with
      | some bs => if inWindow g.va && g.mark == 0 && ch == 5 then fillRcLine e.core g.va bs s else s
      | none => s) s
    return got

/-- The pieces are read for an instruction in flight, under a cache code (R87, R346) (DEDUCED, log entry 31). -/
def fetch (key : Nat) (p : Pend) (ch : Nat) (pieces : List (Nat × Nat)) : M (List Got) := do
  let s ← get
  fetchFor (s.pendEnv key p) key (askLines key p.seq ch) ch (s.pendReq p) pieces

/-- A piece among those read. -/
def gotAt (l : List Got) (va n : Nat) : Got :=
  (l.find? fun g => g.va == va && g.n == n).getD { va := va, n := n, bytes := none }

/-- The number that bytes hold, all ones where they did not arrive (R194). -/
def Got.num (g : Got) : Nat :=
  match g.bytes with
  | some bs => leNat bs
  | none => 2 ^ (8 * g.n) - 1

/-- The accesses of an instruction are noted for its Watch trap (R283) (DEDUCED, log entry 33). -/
def noteVec (key : Nat) (rd wr : Bool) (pieces : List (Nat × Nat)) : M Unit :=
  modify fun s => pieces.foldl (fun s q => noteWatchOf key rd wr q.1 q.2 s) s

/-- Whether a window load of a context must wait for an earlier access to its line, or holds bytes of a posted store only
in part (R173, R280) (DEDUCED, log entry 34). -/
def State.windowBusy (s : State) (key va n : Nat) : Bool :=
  match s.ownWindow key va n with
  | q :: _ => !(List.range n).all fun i => q.writes q.va.toNat (va + i)
  | [] => s.lineAwaited key va

/-- A request for window pieces (R183, R188): a piece that the context's own posted store wrote returns those bytes, as a
part of no device. The answer is its number. -/
def windowRequest (kind : ReqKind) (key va : Nat) (ws : List (Nat × Nat)) : M Nat := do
  let s ← get
  if ws.any fun q => s.windowBusy key q.1 q.2 || s.windowClash key q.1 q.2 then heldAgain
  else
    let id ← newId
    modify fun s =>
      let own := ws.map fun q => (s.ownWindow key q.1 q.2).head?
      let parts := (ws.zip own).map fun (q, o) => (if o.isSome then 4096 else windowDev q.1, BitVec.ofNat 57 q.1, q.2)
      let answers := ((ws.zip own).zipIdx).foldl (fun t e =>
        match e.1.2 with
        | some o => Tbl.set [] t e.2 ((o.bytes.drop (e.1.1.1 - o.va.toNat)).take e.1.1.2)
        | none => t) ([] : Tbl (List Byte))
      let lost := ((parts.map (·.1)).filter fun d => d != 4096 && s.unreachable d).eraseDups
      let r : WReq := { id := id, key := key, kind := kind, va := BitVec.ofNat 57 va, parts := parts, answers := answers
                        lost := lost, refused := [], returned := [4096] }
      { s with wreqs := s.wreqs ++ [r] }
    return id

/-- The bytes from the first to the last that some pieces hold. -/
def pieceSpan (ps : List (Nat × Nat)) : Nat × Nat :=
  let lo := (ps.map (·.1)).foldl min (2 ^ 57)
  (lo, (ps.map fun q => q.1 + q.2).foldl max 0 - lo)

/-- What a vector load asks another device for: one part for each distinct line, from the first byte of it that the load needs to
the last, in the order in which its lanes reach them; a piece of a line that the context's own posted stores write is a part
of its own (R346, R280) (DESIGN CHOICE, log entry 67). -/
def State.lineParts (s : State) (key : Nat) (ws : List (Nat × Nat)) : List (Nat × Nat) :=
  ((ws.map fun q => q.1 / 128).eraseDups).flatMap fun line =>
    let ps := ws.filter fun q => q.1 / 128 == line
    if (s.ownWindow key (line * 128) 128).isEmpty then [pieceSpan ps] else ps

/-- The request of a vector load for its window pieces (R183). -/
def vectorRequest (key : Nat) (p : Pend) (ws : List (Nat × Nat)) : M Unit := do
  let id ← windowRequest (.vector p.seq) key 0 ((← get).lineParts key ws)
  modify (modPend key p.seq fun q => { q with req := some id })

/-! ### Writes -/

/-- Cells of bytes by address, later ones replacing earlier ones, in ascending order. -/
def layCells (ws : List (Nat × List Byte)) : List (Nat × Byte) :=
  ((ws.foldl (fun (t : Tbl (Option Byte)) w =>
      w.2.zipIdx.foldl (fun t b => Tbl.set none t (w.1 + b.2) (some b.1)) t) []).map fun c => (c.1, c.2.getD 0))

/-- Cells in ascending order, grouped by aligned blocks of `u` bytes. -/
def groupCells (u : Nat) : List (Nat × Byte) → List (List (Nat × Byte))
  | [] => []
  | c :: t =>
    match groupCells u t with
    | (d :: g) :: r => if d.1 / u = c.1 / u then (c :: d :: g) :: r else [c] :: (d :: g) :: r
    | r => [c] :: r

/-- The span of a group of cells: its first address, its bytes, and the offsets that it does not write
(DEDUCED, log entry 37). -/
def cellSpan (g : List (Nat × Byte)) : Nat × List Byte × List Nat :=
  match g with
  | [] => (0, [], [])
  | (lo, _) :: _ =>
    let hi := (g.getLast?.map (·.1)).getD lo
    let at' := fun i => (g.find? fun c => c.1 == lo + i)
    (lo, (List.range (hi + 1 - lo)).map fun i => ((at' i).map (·.2)).getD 0,
      (List.range (hi + 1 - lo)).filter fun i => (at' i).isNone)

/-- A line of a vector store is posted (R183, R195): it takes its number when its counter has room (R196). `kind` is that of
its writer (R286), and `tile` ties the lines of one quantised block together (R167). -/
def postLine (key kind : Nat) (tile : Option Nat) (stream dest va place : Nat) (bytes : List Byte) (skip : List Nat) :
    M Unit := do
  let s ← get
  let id ← newId
  addPost { id := id, key := key, core := coreOfKey key, slot := slotOfKey key, launch := (s.ctx key).launch, stream := stream
            dest := dest, seq := 0, st := .waiting, va := BitVec.ofNat 57 va, place := place, bytes := bytes, skip := skip
            tile := tile, marker := none, copy := none, kind := kind }

/-- Lines are posted in ascending order, those of the window at their addresses. -/
def postWindowLines (key kind : Nat) (tile : Option Nat) (stream : Nat) : List (List (Nat × Byte)) → M Unit
  | [] => return ()
  | g :: t => do
    let (lo, bs, skip) := cellSpan g
    postLine key kind tile stream (windowDev lo) lo 0 bs skip
    modify (dropRc (coreOfKey key) lo)
    postWindowLines key kind tile stream t

/-- Lines are posted to host uncached memory at their places (R306). -/
def postHostLines (key kind : Nat) : List (List (Nat × Byte)) → M Unit
  | [] => return ()
  | g :: t => do
    let (lo, bs, skip) := cellSpan g
    postLine key kind none 0 hostDest 0 lo bs skip
    postHostLines key kind t

/-- Cells of one line are written at their places by a context, in an instruction dispatched at a privilege. -/
def writeLine (key priv : Nat) (w : Source) (g : List (Nat × Byte)) (s : State) : State :=
  let (lo, bs, skip) := cellSpan g
  let s := if priv != 0 then s
    else (maskRuns skip 0 bs).foldl (fun s r => teamWriteTeam key (lo + r.1) r.2.length s) s
  s.storeRuns w ((maskRuns skip 0 bs).map fun r => (lo + r.1, r.2))

/-- The lines of a write are written one after the other; one that cannot be waits. -/
def writeLines (key priv : Nat) (w : Source) : List (List (Nat × Byte)) → M Unit
  | [] => return ()
  | g :: t => do
    lineWritable w.via ((g.head?.map (·.1)).getD 0)
    modify (writeLine key priv w g)
    writeLines key priv w t

/-- Whether a piece of a write must wait (R173, R190, R280, R306, R307). -/
def State.pieceWaits (s : State) (key stream : Nat) (l : Nat × Nat × Loc) : Bool :=
  match l.2.2 with
  | .mem q mt => if mt = 3 then s.granuleBusy key q l.2.1 else s.ownPost key q l.2.1 || s.gatewayPost key q l.2.1
  | .bank q => s.gatewayPost key q l.2.1
  | _ => s.otherStream key stream (windowDev l.1) l.1 0 || s.windowClash key l.1 l.2.1

/-- The pieces are written (R183): every one is found before any byte moves, and the bytes of one line are one write. In the
window the lines of a quantising instruction commit together at their destination, for its blocks may share lines (R167)
(DEDUCED, log entries 30 and 36). -/
def vecWrite (key : Nat) (p : Pend) (w : Source) (stream : Nat) (quant : Bool) (ws : List (Nat × List Byte)) : M Unit := do
  let locs ← vecLocs ((← get).pendEnv key p) accWrite (ws.map fun w => (w.1, w.2.length))
  let s ← get
  if locs.any (s.pieceWaits key stream) then heldAgain
  let at' := ws.zip (locs.map (·.2.2))
  let plain := at'.filterMap fun (w, l) => match l with
    | .mem q mt => if mt = 3 then none else some (q, w.2)
    | .bank q => some (q, w.2)
    | _ => none
  let host := at'.filterMap fun (w, l) => match l with
    | .mem q 3 => some (q, w.2)
    | _ => none
  let win := ws.filter fun q => inWindow q.1
  writeLines key p.priv w (groupCells 128 (layCells plain))
  if !host.isEmpty then
    modify fun s => if p.priv != 0 then s else uncoverTeam key s
    postHostLines key w.kind (groupCells 64 (layCells host))
  if !win.isEmpty then
    modify fun s => if p.priv != 0 then s else uncoverTeam key s
    let id := (← get).fresh
    postWindowLines key w.kind (if quant then some id else none) stream (groupCells 128 (layCells win))
  noteVec key false true (ws.map fun w => (w.1, w.2.length))

/-! ### Retirement -/

/-- One lane of a widening load: its value and its mark (R185). -/
def wideLane (o : LgM) (p : Pend) (got : List Got) (i : Nat) : Nat × Nat :=
  let fmt := pfxFmt p.pfx
  let base := (eaOf p.dra o.off).toNat
  let sbase := p.drb.toNat % 2 ^ 57
  let f := tyFmt o.ty
  let one := fun (j : Nat) =>
    let g := gotAt got (wideByte fmt base j) 1
    let sc := gotAt got (wideScale sbase j) 2
    let lost := g.bytes.isNone || (fmt = 5 && sc.bytes.isNone)
    let v := if fmt = 4 then e4m3Decode g.num else kv4Value (g.num / 16 ^ (j % 2) % 16) sc.num
    (if lost then 2 ^ f.width - 1 else (f.deliver 0 false v).1, if g.mark != 0 then g.mark else if fmt = 5 then sc.mark else 0)
  let es := (wideElems o.ty i).map one
  (packElems f.width (es.map (·.1)), es.foldl (fun m e => if m = 0 then e.2 else m) 0)

/-- An index of a lane-private slice: aligned, and within the slice (R184). -/
def sliceOffset (o : LgM) (p : Pend) (c : Ctx) (i : Nat) : M Nat := do
  let off := laneAddr 4 o p c i
  aligned off (elemSize o.ty)
  if off + elemSize o.ty > 2048 then fault 10 8 (BitVec.ofNat 64 off)
  return off

/-- The offsets of the active lanes in their slices. -/
def sliceOffsets (o : LgM) (p : Pend) (c : Ctx) : List Nat → M (List (Nat × Nat))
  | [] => return []
  | i :: t => do
    let off ← sliceOffset o p c i
    return (i, off) :: (← sliceOffsets o p c t)

/-- Bytes of a lane's slice as a number. -/
def Ctx.sliceNum (c : Ctx) (i off n : Nat) : Nat := leNat ((List.range n).map fun k => Tbl.get 0 c.sl (i * 2048 + off + k))

/-- The first mark among bytes of a lane's slice, 0 for none (R402). -/
def Ctx.sliceMark (c : Ctx) (i off n : Nat) : Nat := markIn ((List.range n).map fun k => Tbl.get 0 c.slp (i * 2048 + off + k))

/-- Bytes of a lane's slice written; their marks go (R402). -/
def Ctx.putSlice (c : Ctx) (i off : Nat) (bs : List Byte) : Ctx :=
  { c with sl := bs.zipIdx.foldl (fun t b => Tbl.set 0 t (i * 2048 + off + b.2) b.1) c.sl
           slp := bs.zipIdx.foldl (fun t b => Tbl.set 0 t (i * 2048 + off + b.2) 0) c.slp }

/-- Major 0x20 (R182, R184, R185). -/
def retireLoad (key fn : Nat) (o : LgM) (p : Pend) (c : Ctx) : Retired := do
  let act := activeLanes c p o.g1
  let d := o.d.toNat
  let n := elemSize o.ty
  let dty : BitVec 3 := if o.ty = 4 then 4 else 0
  if fn = 4 then
    checkLanes c [o.b.toNat] act
    let offs ← sliceOffsets o p c act
    return (offs.foldl (fun c' q => c'.putElems dty d q.1 [c.sliceNum q.1 q.2 n] (c.sliceMark q.1 q.2 n)) c, 0)
  else
    let pieces ← readPieces (.load fn o) p c
    let got ← fetch key p o.ch.toNat pieces
    noteVec key true false pieces
    if fn = 3 then
      return (act.foldl (fun c' i =>
        let (v, m) := wideLane o p got i
        c'.setV d i (BitVec.ofNat 32 v) m) c, 0)
    else
      return (act.foldl (fun c' i =>
        let g := gotAt got (laneAddr fn o p c i) n
        c'.putElems dty d i [g.num] g.mark) c, 0)

/-- Major 0x21 (R182, R184) (DEDUCED, log entry 16). -/
def retireStore (key fn : Nat) (o : LgM) (p : Pend) (c : Ctx) : Retired := do
  let act := activeLanes c p o.g1
  let n := elemSize o.ty
  let sty : BitVec 3 := if o.ty = 4 then 4 else 0
  if fn ≥ 2 then checkLanes c [o.b.toNat] act
  checkLanes c (tyRegs o.ty o.c.toNat) act
  let bytes := fun i => leBytes n (c.elem sty o.c.toNat i 0)
  if fn = 3 then
    let offs ← sliceOffsets o p c act
    return (offs.foldl (fun c' q => c'.putSlice q.1 q.2 (bytes q.1)) c, 0)
  else
    let ws := act.map fun i => (laneAddr fn o p c i, bytes i)
    alignedAll n (ws.map (·.1))
    vecWrite key p ((← get).sourceOf key) o.str.toNat false ws
    return (c, 0)

/-- Bytes at an address as pieces within lines. -/
def byteplan : List (Nat × Nat) → List Byte → List (Nat × List Byte)
  | [], _ => []
  | (va, n) :: t, bs => (va, bs.take n) :: byteplan t (bs.drop n)

/-- A block as it was read: its element plane, shade, hairline and first mark. -/
def readBlock (fmt e sb j : Nat) (got : List Got) : List Byte × Nat × Nat × Nat :=
  let gs := (blockPieces fmt e sb j).map fun q => gotAt got q.1 q.2
  let bs := gs.flatMap fun g => g.bytes.getD (List.replicate g.n 0xFF)
  let sc := bs.drop (shBytes fmt)
  (bs.take (shBytes fmt), (sc.getD 0 0).toNat, (sc.getD 1 0).toNat, gs.foldl (fun m g => if m = 0 then g.mark else m) 0)

/-- The values of a block as binary32 patterns (R58). -/
def blockValues (fmt : Nat) (b : List Byte × Nat × Nat × Nat) : List Nat := (shDecode fmt b.1 b.2.1 b.2.2.1).map toF32

/-- The bytes of a block quantised from 32 binary32 patterns, with the flags (R57, R59). -/
def quantBlock (fmt delta : Nat) (xs : List Nat) : List Byte × Flags :=
  let (sh, hl, es, fl) := quantiseSH xs (shK fmt) (shDelta fmt delta)
  (shPack fmt es ++ [BitVec.ofNat 8 sh, BitVec.ofNat 8 hl], fl)

/-- Major 0x17 (R162 to R167) (DEDUCED, log entry 30). The addition of `vbaq` under `.ftz` reads a subnormal decoded element as
zero, as it does any operand of binary32: R51 never flushes an SH operand, and R166 adds in binary32
(DESIGN CHOICE, log entry 70). -/
def retireQuant (key fn : Nat) (o : LgM) (p : Pend) (c : Ctx) : Retired := do
  let act := activeLanes c p o.g1
  let fmt := pfxFmt p.pfx
  let delta := field (p.pfx.getD 0) 10 4
  let blocks := activeBlocks c act
  let b := o.b.toNat
  if fn != 1 then checkLanes c [b] act
  let (e, sb) ← quantBases o p
  let pieces ← readPieces (.quant fn o) p c
  let got ← fetch key p o.ch.toNat pieces
  noteVec key true false pieces
  if fn = 1 then
    return (act.foldl (fun c' i =>
      let blk := readBlock fmt e sb (i / 32) got
      let all := (blockPieces fmt e sb (i / 32)).all fun q => (gotAt got q.1 q.2).bytes.isSome
      let v := if all then (blockValues fmt blk).getD (i % 32) 0 else 2 ^ 32 - 1
      c'.setV o.d.toNat i (BitVec.ofNat 32 v) blk.2.2.2) c, 0)
  else
    if fn = 2 then
      match (blocks.map fun j => (readBlock fmt e sb j got).2.2.2).find? (· != 0) with
      | some m => fault 23 (markSub m 2).toNat (markVal m)
      | none => pure ()
    let one : Nat → List (Nat × List Byte) × Flags := fun (j : Nat) =>
      let old := if fn = 2 then blockValues fmt (readBlock fmt e sb j got) else List.replicate 32 0
      let sums : List (Nat × Flags) := (List.range 32).map fun m =>
        let i := 32 * j + m
        if act.contains i then
          if fn = 2 then floatOp f32 0 o.g2 (old.getD m 0) (c.vr b i).toNat 0 else ((c.vr b i).toNat, 0)
        else (old.getD m 0, 0)
      let (bs, fl) := quantBlock fmt delta (sums.map (·.1))
      (byteplan (blockPieces fmt e sb j) bs, sums.foldl (fun (fl : Flags) x => fl ||| x.2) fl)
    let out := blocks.map one
    vecWrite key p ((← get).sourceOf key) o.str.toNat true (out.flatMap (·.1))
    return (c, out.foldl (fun fl x => fl ||| x.2) 0)

/-- What an instruction in flight does when it retires. Those of the matrix queue are performed there (R215). -/
def retireOp (key : Nat) (p : Pend) (c : Ctx) : Retired :=
  match p.op with
  | .int fn o => retireInt fn o p c
  | .float fn o => retireFloat fn o p c
  | .cmp fn o => retireCmp fn o p c
  | .misc fn o => retireMisc fn o p c
  | .perm fn o => retirePerm fn o p c
  | .cvt fn o => retireCvt fn o p c
  | .red fn o => retireRed fn o p c
  | .expr o => retireExpr o p c
  | .quant fn o => retireQuant key fn o p c
  | .load fn o => retireLoad key fn o p c
  | .store fn o => retireStore key fn o p c
  | .acted _ _ none => return (c, 0)
  | .acted _ _ (some t) => throw (.trap t)
  | .macz _ => heldAgain
  | .mld _ => heldAgain
  | .wload _ => heldAgain
  | .mma _ => heldAgain
  | .mseq _ => heldAgain
  | .macrd _ => heldAgain
  | .macwr _ => heldAgain

/-- A ring entry changed. -/
def Ctx.modRing (c : Ctx) (seq : BitVec 16) (f : RingEnt → RingEnt) : Ctx :=
  let i := seq.toNat % 64
  let e := Tbl.get {} c.ring i
  if e.used && e.seq == seq then { c with ring := Tbl.set {} c.ring i (f e) } else c

/-- An instruction in flight retires: its context changes as it says, its flags reach SR (R23, R144), its ring entry is
done, and a device that did not answer raises PeerLost (R194) (DEDUCED, log entry 31). -/
def retireDone (key : Nat) (p : Pend) (c : Ctx) (fl : Flags) (s : State) : State :=
  let lost := (s.pendReq p).bind fun r => match r.lost.foldl min 4096 with
    | 4096 => none
    | d => some d
  let s := { s with wreqs := s.wreqs.filter fun r => some r.id != p.req }
  let s := s.setCtx key
    { ((c.orFlags fl).modRing p.seq fun e => { e with done := true }) with pend := c.pend.filter fun q => q.seq != p.seq }
  match lost with
  | some d => if (s.launch c.launch).plt then raise key (asyncTrap 17 0 (BitVec.ofNat 64 d)) s else s
  | none => s

/-- The Watch trap of a dispatched instruction that has retired, for its fetch and its accesses (R283): at privilege 1 it is
fatal, and the report names that instruction (R28) (DEDUCED, log entry 33). -/
def watchDue (key : Nat) (p : Pend) (s : State) : State :=
  match firstHit p.hit s.watch with
  | none => s
  | some w => (clearNotes s).modCtx key fun c => { c with due := c.due ++ [watchFault (some p.pc) w] }

/-- An instruction in flight faults (R32): its entry is marked, every later one that has not retired is cancelled, and an
imprecise trap becomes due. -/
def retireFault (key : Nat) (p : Pend) (t : Trap) (s : State) : State :=
  let c := s.ctx key
  let later := c.pend.filter fun q => q.seq != p.seq
  let c := c.modRing p.seq fun e => { e with flt := true }
  let c := later.foldl (fun (c : Ctx) q => c.modRing q.seq fun e => { e with can := true }) { c with pend := [] }
  let s := { (s.setCtx key c) with wreqs := s.wreqs.filter fun r => !(r.key == key && match r.kind with
      | .vector _ => true
      | _ => false) }
  let s := s.modCluster (clusterOfCore (coreOfKey key)) fun k =>
    { k with queue := k.queue.filter fun m => !(m.key == key && m.cmd.isNone) }
  raise key { t with kind := .imprecise, seq := p.seq } (clearNotes s)

/-- The cache code of a vector load in flight (R87). -/
def VOp.ch : VOp → Nat
  | .load _ o => o.ch.toNat
  | .quant _ o => o.ch.toNat
  | _ => 0

/-- Whether a request covers every window piece that an instruction needs. -/
def WReq.covers (r : WReq) (ws : List (Nat × Nat)) : Bool :=
  ws.all fun q => r.parts.any (holdsPiece q.1 q.2)

/-- The window pieces of an instruction in flight: it sends a request where it needs one, and says so; it waits while one is
under way (R183) (DEDUCED, log entry 32). -/
def windowStage (key : Nat) (p : Pend) (pieces : List (Nat × Nat)) : M Bool := do
  let s ← get
  let ws := pieces.filter fun q => inWindow q.1 && !s.rcHit (coreOfKey key) p.op.ch q.1 q.2
  if ws.isEmpty then return false
  else
    let _ ← vecLocs (s.pendEnv key p) accRead pieces
    match s.pendReq p with
    | some r =>
      if !r.over then heldAgain
      else if r.covers ws then return false
      else
        modify fun s => { s with wreqs := s.wreqs.filter (·.id != r.id) }
        vectorRequest key p ws
        return true
    | none =>
      vectorRequest key p ws
      return true

/-- Whether an instruction writes the bytes that it reads. -/
def VOp.rewrites : VOp → Bool
  | .quant 2 _ => true
  | _ => false

/-- An instruction that writes what it reads finds its pages for both before it reads a byte (R163). -/
def translateFirst (key : Nat) (p : Pend) (pieces : List (Nat × Nat)) : M Unit := do
  if p.op.rewrites then
    let e := (← get).pendEnv key p
    let _ ← vecLocs e accRead pieces
    let _ ← vecLocs e accWrite pieces

/-- What an instruction has made of its lanes joins its context as it is now: one that works on memory changes the lanes alone,
and a line-watch unit that its own accesses fired may have woken its context (R31, R285). -/
def Ctx.rejoin (now c' : Ctx) (op : VOp) : Ctx :=
  if op.memRead || op.memWrite then { now with v := c'.v, vp := c'.vp, sl := c'.sl, slp := c'.slp }
  else { c' with due := now.due, grant := now.grant }

/-- What a vector load that waits has done: its requests stand in the queues, and the lines that they brought lie in the caches
(R346, R347). -/
def headWaits (key : Nat) (p : Pend) (c : Ctx) (s held : State) : M Unit := do
  let lines : M (List Nat) := do return pieceLines (← vecLocs (s.pendEnv key p) accRead (← readPieces p.op p c))
  let s' :=
    match lines.run s with
    | .ok ls _ => match (askLines key p.seq p.op.ch ls).run s with
      | .ok _ t => t
      | .error _ t => t
    | .error _ _ => s
  let s' := keepMisses s' held
  enabled (s' != s)
  set s'

/-- The oldest instruction in flight of a context, which is not of the matrix queue, retires, faults, or sends its window
request; it works on the lanes that the context held when it was dispatched (R15, R27) (DEDUCED, log entry 24). -/
def retireHead (key : Nat) : M Unit := do
  let s ← get
  match (s.ctx key).pend with
  | [] => enabled false
  | p :: _ =>
    let c := { s.ctx key with grant := p.grant }
    enabled (c.live && c.st != .migrating && !p.op.queues)
    let act : M (Option (Ctx × Flags)) := do
      let pieces ← readPieces p.op p c
      translateFirst key p pieces
      if ← windowStage key p pieces then return none
      else return some (← retireOp key p c)
    match act.run (clearNotes s) with
    | .ok none s' => set s'
    | .ok (some (c', fl)) s' =>
      set (watchDue key p (retireDone key p ((s'.ctx key).rejoin c' p.op) fl s'))
    | .error (.trap t) s' => set (retireFault key p t s')
    | .error _ s' => headWaits key p c s s'

/-- VECTOR_RETIRE (06 R140; 01 R32) (DEDUCED, log entry 24). -/
def execVectorRetire (key : Nat) (s : State) : Outcome := event (retireHead key) s

/-! ### The instructions -/

/-- A store into the window that finds its counter full waits at issue (R196). -/
def roomAt (o : LgM) (va : Nat) : M Unit := do
  let s ← get
  if inWindow va && s.streamFull (coreOfKey s.cur) o.str.toNat (windowDev va) then heldAgain

/-- A vector store into the window waits for room on its stream. -/
def streamRoom (o : LgM) (a _ : Word) : M Unit := roomAt o (eaOf a o.off).toNat

/-- A quantising store waits for room at the devices of its element plane, from `a`, and of its scale pairs, whose base `b` is
(R162, R167, R196). -/
def quantRoom (o : LgM) (a b : Word) : M Unit := do
  streamRoom o a b
  roomAt o b.toNat

/-- `vqsh` (06 R164). -/
def execVqsh (o : LgM) (s : State) : Outcome := vecN 12 o.toLow (.quant 0 o) (quantRoom o) s

/-- `vdqsh` (06 R165). -/
def execVdqsh (o : LgM) (s : State) : Outcome := vecN 12 o.toLow (.quant 1 o) noPre s

/-- A deterministic launch keeps `vbaq` in the core scratchpad (R168); elsewhere it waits for room on its stream (R167)
(DEDUCED, log entry 30). -/
def vbaqPlace (o : LgM) (a b : Word) : M Unit := do
  let va := (eaOf a o.off).toNat
  if (← curCtx).det && !(va / 2 ^ 55 % 4 == 1 && va / 2 ^ 52 % 8 == 0) then fault 14 0 (BitVec.ofNat 64 va)
  quantRoom o a b

/-- `vbaq` (06 R166, R168) (DEDUCED, log entry 30). -/
def execVbaq (o : LgM) (s : State) : Outcome := vecN 12 o.toLow (.quant 2 o) (vbaqPlace o) s

/-- `vld` (07 R182). -/
def execVld (o : LgM) (s : State) : Outcome := vecN 12 o.toLow (.load 0 o) noPre s

/-- `vlds` (07 R182). -/
def execVlds (o : LgM) (s : State) : Outcome := vecN 12 o.toLow (.load 1 o) noPre s

/-- `vgather` (07 R182). -/
def execVgather (o : LgM) (s : State) : Outcome := vecN 12 o.toLow (.load 2 o) noPre s

/-- `vldw` (07 R185). -/
def execVldw (o : LgM) (s : State) : Outcome := vecN 12 o.toLow (.load 3 o) noPre s

/-- `vldl` (07 R184). -/
def execVldl (o : LgM) (s : State) : Outcome := vecN 12 o.toLow (.load 4 o) noPre s

/-- `vst` (07 R182). -/
def execVst (o : LgM) (s : State) : Outcome := vecN 12 o.toLow (.store 0 o) (streamRoom o) s

/-- `vsts` (07 R182). -/
def execVsts (o : LgM) (s : State) : Outcome := vecN 12 o.toLow (.store 1 o) (streamRoom o) s

/-- `vscatter` (07 R182). -/
def execVscatter (o : LgM) (s : State) : Outcome := vecN 12 o.toLow (.store 2 o) (streamRoom o) s

/-- `vstl` (07 R184). -/
def execVstl (o : LgM) (s : State) : Outcome := vecN 12 o.toLow (.store 3 o) noPre s

end Sys2Proof.Machine
end

