-- ==== Sys2Proof/Machine/Tile.lean ====
section
/-!
DEFINITION. Tile loads and stores (07 R186 to R190), and the gather-sum `ldsum` (07 R202).
-/

namespace Sys2Proof.Machine

open Sys2Proof

/-- A tile's shape (R187). -/
structure TileShape where
  rows : Nat
  rb : Nat
  pitch : Nat
  deriving DecidableEq, Repr

/-- The shape that a register holds (R187). -/
def tileShape (w : Word) : TileShape := { rows := field w 0 16, rb := field w 16 16, pitch := field w 32 32 }

/-- The pieces of a tile's far side, within lines, row by row (R187). -/
def TileShape.pieces (t : TileShape) (far : Nat) : List (Nat × Nat) :=
  (List.range t.rows).flatMap fun r => linePieces (t.rb / 128 + 2) (vecAddr far (r * t.pitch : Nat)) t.rb

/-- A number put into an ascending list without repeats. -/
def insertNat (n : Nat) : List Nat → List Nat
  | [] => [n]
  | m :: t => if n < m then n :: m :: t else if n = m then m :: t else m :: insertNat n t

/-- Distinct numbers in ascending order. -/
def ascending (l : List Nat) : List Nat := l.foldl (fun a n => insertNat n a) []

/-- A piece put into a list in ascending order of address. -/
def insertPiece (q : Nat × Nat) : List (Nat × Nat) → List (Nat × Nat)
  | [] => [q]
  | p :: t => if q.1 < p.1 then q :: p :: t else p :: insertPiece q t

/-- The place of a tile's local side: packed in the core's scratchpad or its cluster's memory (R186, R188). -/
def tileLocal (va n : Nat) : M Nat := do
  if va / 2 ^ 55 % 4 = 1 ∧ va / 2 ^ 52 % 8 ≤ 1 then
    match ← resolve (← curEnv) va n accRead with
    | .bank p => return p
    | _ => noAperture va
  else noAperture va

/-- Whether a piece is host memory (R188). -/
def hostPiece (l : Nat × Nat × Loc) : Bool :=
  match l.2.2 with
  | .mem _ mt => mt == 2 || mt == 3
  | _ => false

/-- The checks of R188 on the far side: its lines, one device, its pages in ascending order, and no host memory. The
answer is where each piece lies, in row order. -/
def tileFar (split store : Bool) (pieces : List (Nat × Nat)) : M (List (Nat × Nat × Loc)) := do
  let lines := ascending (pieces.map fun q => q.1 / 128)
  let homes := (pieces.map fun q => if inWindow q.1 then windowDev q.1 else 4096).eraseDups
  if homes.length > 1 then fault 8 0 (BitVec.allOnes 64)
  else if !split && decide (lines.length > 32) then fault 8 0 (BitVec.ofNat 64 lines.length)
  else
    let e ← curEnv
    let kind := if store then accWrite else accRead
    let found ← vecLocs e kind (pieces.foldl (fun a q => insertPiece q a) [])
    if !split && found.any hostPiece then fault 8 0 (BitVec.ofNat 64 lines.length)
    else
      return pieces.map fun q =>
        match found.find? fun l => l.1 == q.1 && l.2.1 == q.2 with
        | some l => l
        | none => (q.1, q.2, .window q.1)

/-! ### Acquiring lines (R190) -/

/-- Whether a tile is older than another: by time stamp, then by place (R190) (DEDUCED, log entry 34). -/
def Tile.older (t u : Tile) : Bool := decide (t.age < u.age) || (t.age == u.age && decide (t.key < u.key))

/-- Whether a tile that is not of a context holds a line. -/
def State.heldByOther (s : State) (key line : Nat) : Bool :=
  s.tiles.any fun t => t.key != key && (t.lines.take t.got).contains line

/-- Whether what a tile's request for a line needs is missing, apart from other tiles (R273, R275, R307). -/
def State.tileStuck (s : State) (key : Nat) (store : Bool) (line : Nat) : Bool :=
  let via := Via.mx (coreOfKey key)
  if store then s.writeStuck via line || s.bankHeld via line else s.readStuck via line

/-- Whether a tile of a context may take a line now (R190, R307). -/
def State.lineOpen (s : State) (key : Nat) (store : Bool) (line : Nat) : Bool :=
  !s.heldByOther key line && !s.tileStuck key store line

/-- A tile takes a line: its die reads it, or owns it (R190, R275, R349). -/
def takeLine (key : Nat) (store : Bool) (line : Nat) (s : State) : State :=
  if store then lineWritten (.mx (coreOfKey key)) line s else lineRead (.mx (coreOfKey key)) 0 line s

/-- Lines are taken one after the other; one that cannot be waits. -/
def takeLines (key : Nat) (store : Bool) : List Nat → M Unit
  | [] => return ()
  | line :: t => do
    if (← get).lineOpen key store line then
      modify (takeLine key store line)
      takeLines key store t
    else heldAgain

/-- The lines are acquired, or the context waits for them as a tile with an age (R190) (DEDUCED, log entry 34). -/
def acquireLines (store : Bool) (lines : List Nat) : M Unit := do
  let s ← get
  let key := s.cur
  match s.tiles.find? (·.key == key) with
  | none =>
    if lines.all (s.lineOpen key store) then takeLines key store lines
    else
      let age := Config.freeTime (← freeNext)
      modify fun s => { s with tiles := s.tiles ++ [{ key := key, store := store, age := age, lines := lines, got := 0 }] }
      heldAgain
  | some t =>
    if t.lines != lines then
      modify fun s => { s with tiles := s.tiles.map fun u => if u.key == key then { u with lines := lines, got := 0 } else u }
      heldAgain
    else if t.got < t.lines.length then heldAgain
    else modify fun s => { s with tiles := s.tiles.filter (·.key != key) }

/-- The lines whose pins keep a request to a line from an entry of its set: all of a set in which every way is pinned, else
none (R275). -/
def State.pinnedSet (s : State) (line : Nat) : List Nat :=
  if homed line && s.filterFull line && (s.filterVictim line).isNone then (s.filterPeers line).map (·.1) else []

/-- Whether an older tile waits for a line, or for a way of its full set, so that a younger one does not take it first
(R190, R275) (DEDUCED, log entry 34). -/
def State.olderWants (s : State) (t : Tile) (line : Nat) : Bool :=
  s.tiles.any fun v => v.older t && match v.lines[v.got]? with
    | some w => w == line || (homed w && s.filterFull w && s.filterSet w == s.filterSet line)
    | none => false

/-- Each younger tile that holds one of some lines, and has not all of its own, gives up its lines (R190). -/
def yieldTo (t : Tile) (blocked : List Nat) (s : State) : State :=
  let yields := fun (u : Tile) =>
    if u.key != t.key && t.older u && decide (u.got < u.lines.length) && (u.lines.take u.got).any blocked.contains then
      { u with got := 0 } else u
  { s with tiles := s.tiles.map yields }

/-- TILE_LINE_GRANT (R190): a waiting tile takes its next line. It makes each younger holder of that line, or of one that pins
a way of its set, yield that has not all its lines (R275), and takes the line where that has freed it
(DEDUCED, log entry 34). -/
def execTileLineGrant (key : Nat) (s : State) : Outcome :=
  event (do
    let s ← get
    match s.tiles.find? (·.key == key) with
    | none => enabled false
    | some t =>
      match t.lines[t.got]? with
      | none => enabled false
      | some line =>
        enabled !s.olderWants t line
        let s' := yieldTo t (line :: s.pinnedSet line) s
        if s'.lineOpen key t.store line then
          let s' := takeLine key t.store line s'
          let took := fun (u : Tile) => if u.key == key then { u with got := u.got + 1 } else u
          set { s' with tiles := s'.tiles.map took }
        else
          enabled (s' != s)
          set s') s

/-! ### Moving the bytes -/

/-- The bytes of a far piece with their marks. -/
def farBytes (s : State) (l : Nat × Nat × Loc) : List Byte × List Nat :=
  match l.2.2 with
  | .mem p _ => (s.ownBytes s.cur p l.2.1, s.ownMarks s.cur p l.2.1)
  | .bank p => (s.bytes p l.2.1, (List.range l.2.1).map fun i => s.byteMark (p + i))
  | _ => ([], [])

/-- The bytes reach the packed local side with their marks (R188). -/
def fillLocal (place : Nat) (b : List Byte × List Nat) (s : State) : State :=
  let s := teamWrite s.cur place b.1.length s
  (s.store (s.sourceOf s.cur) place b.1).setMarks place b.2

/-- The local bytes of each far piece, in packed order. -/
def packedRows (s : State) (place : Nat) : List (Nat × Nat × Loc) → List (Nat × Loc × List Byte)
  | [] => []
  | (va, n, l) :: t => (va, l, s.bytes place n) :: packedRows s (place + n) t

/-- A `tld` within the package. -/
def tileRead (split : Bool) (place : Nat) (far : List (Nat × Nat × Loc)) : M Unit := do
  let lines := ascending (far.filterMap fun l => match l.2.2 with
    | .mem p mt => if mt = 3 then none else some (lineOf p)
    | .bank p => some (lineOf p)
    | _ => none)
  let s ← get
  if far.any fun l => l.2.2.place?.any fun p => s.gatewayPost s.cur p l.2.1 then heldAgain
  if split then readLines (.mx (coreOfKey (← curKey))) 0 lines
  else acquireLines false lines
  modify fun s =>
    let got := far.map (farBytes s)
    (got.foldl (fun (a : Nat × State) b => (a.1 + b.1.length, fillLocal a.1 b a.2)) (place, s)).2

/-- A `tst` within the package: rows ascending, so that later bytes remain (R187). Host uncached memory takes its bytes as
posted stores (R306). -/
def tileWrite (split : Bool) (place : Nat) (far : List (Nat × Nat × Loc)) : M Unit := do
  let s ← get
  let key := s.cur
  let rows := packedRows s place far
  let plain := rows.filterMap fun (_, l, b) => match l with
    | .mem p mt => if mt = 3 then none else some (p, b)
    | .bank p => some (p, b)
    | _ => none
  let host := rows.filterMap fun (_, l, b) => match l with
    | .mem p 3 => some (p, b)
    | _ => none
  if plain.any fun w => s.ownPost key w.1 w.2.length || s.gatewayPost key w.1 w.2.length then heldAgain
  if host.any fun w => s.granuleBusy key w.1 w.2.length then heldAgain
  let via := if split then Via.mx (coreOfKey key) else .held
  if !split then acquireLines true (ascending (plain.map fun w => w.1 / 128 * 128))
  writeLines key (s.ctx key).priv { s.sourceOf key with via := via } (groupCells 128 (layCells plain))
  if !host.isEmpty then
    modify (uncover key)
    postHostLines key 0 (groupCells 64 (layCells host))

/-- A `tst` into the window: posted line by line on its stream; without `.split` its lines commit together (R188, R195,
R196). -/
def tilePost (split : Bool) (stream place : Nat) (far : List (Nat × Nat × Loc)) : M Unit := do
  let s ← get
  let key := s.cur
  let dev := windowDev ((far.map (·.1)).headD 0)
  if s.streamFull (coreOfKey key) stream dev ||
      far.any fun l => s.otherStream key stream dev l.1 0 || s.windowClash key l.1 l.2.1 then heldAgain
  let cells := layCells ((packedRows s place far).map fun r => (r.1, r.2.2))
  let first := s.fresh
  modify (uncover key)
  postWindowLines key 0 (if split then none else some first) stream (groupCells 128 cells)

/-- A `tld` from the window: a request for the whole tile (R188, R194). -/
def tileRequest (localVa place : Nat) (next : Advance) (pieces : List (Nat × Nat)) : M Unit := do
  let s ← get
  let dev := windowDev ((pieces.map (·.1)).headD 0)
  if s.unreachable dev then unanswered dev
  else
    let id ← windowRequest (.tile place next) s.cur localVa pieces
    match (← get).wreqs.find? fun r => r.id == id && r.over with
    | none => awaitResponse
    | some r =>
      -- every byte comes from the context's own posted stores (R173)
      modify fun s =>
        let s := { s with wreqs := s.wreqs.filter (·.id != id) }
        ((List.range r.parts.length).foldl (fun (a : Nat × State) i =>
          let b := Tbl.get [] r.answers i
          (a.1 + b.length, scatterRow s.cur a.1 b [] a.2)) (place, s)).2

/-- The two sides of a tile are noted for its Watch trap (R283). -/
def noteTile (store : Bool) (localVa n : Nat) (pieces : List (Nat × Nat)) : M Unit := do
  for q in pieces do
    noteWatch (!store) store q.1 q.2
  noteWatch store (!store) localVa n

/-- Tile of R188. -/
def tile (store split : Bool) (o : LgM) (s : State) : Outcome :=
  longI o.toLow (do
    let a := (← useX o.a.toNat).toNat % 2 ^ 57
    let b := (← useX o.b.toNat).toNat % 2 ^ 57
    let t := tileShape (← useX o.c.toNat)
    let far := if store then a else b
    let near := if store then b else a
    memOrder true
    if t.rows != 0 && t.rb != 0 then
      let n := t.rows * t.rb
      let place ← tileLocal near n
      let pieces := t.pieces far
      let locs ← tileFar split store pieces
      let m := (← get).firstMark place n
      if store && m != 0 then fault 23 (markSub m 1).toNat (markVal m)
      if inWindow far then
        if store then tilePost split o.str.toNat place locs else tileRequest near place (longNext o.toLow) pieces
      else if store then tileWrite split place locs
      else tileRead split place locs
      noteTile store near n pieces) s

/-- `tld` (07 R188). -/
def execTld (o : LgM) (s : State) : Outcome := tile false false o s

/-- `tst` (07 R188). -/
def execTst (o : LgM) (s : State) : Outcome := tile true false o s

/-- `tld.split` (07 R188). -/
def execTldSplit (o : LgM) (s : State) : Outcome := tile false true o s

/-- `tst.split` (07 R188). -/
def execTstSplit (o : LgM) (s : State) : Outcome := tile true true o s

/-! ### ldsum -/

/-- `ldsum` (07 R202): the values of consecutive devices, summed in device order (DEDUCED, log entry 13). -/
def execLdsum (o : LgM) (s : State) : Outcome :=
  longI o.toLow (do
    let va := (eaOf (← useX o.a.toNat) o.off).toNat
    let lo := (← useX o.b.toNat).toNat
    let n := (← useX o.c.toNat).toNat
    let size := if o.ty = 1 then 4 else 8
    memOrder false
    if n = 0 then writeX o.d 0
    else if n > 256 ∨ lo + n > 2048 then noAperture va
    else if !inWindow va || va / 2 ^ 42 % 4 != 0 then noAperture va
    else
      aligned va size
      let s ← get
      let at' := fun (d : Nat) => va / 2 ^ 55 * 2 ^ 55 + d * 2 ^ 44 + va % 2 ^ 44
      let vas := (List.range n).map fun i => at' (lo + i)
      if vas.any fun v => s.lineAwaited s.cur v || !(s.ownWindow s.cur v size).isEmpty then heldAgain
      else
        let away := ((List.range n).map (lo + ·)).filter s.unreachable
        if away.length = n then
          for v in vas do noteWatch true false v size
          writeX o.d (BitVec.allOnes 64)
          unanswered lo
        else
          request (.ldsum o.ty.toNat o.g2 o.d lo n (longNext o.toLow)) va (vas.map fun v => (windowDev v, BitVec.ofNat 57 v, size))
          awaitResponse) s

end Sys2Proof.Machine
end

