-- ==== Sys2Proof/Machine/Matrix.lean ====
section
/-!
DEFINITION. The matrix engine of a cluster (08 R214 to R235; 02 R63 to R65): claims, the queue and the issue governor, the
A-stage buffer and weight slots, `mma`, the sequencer of `mseq`, and the rows of accumulators.
-/

namespace Sys2Proof.Machine

open Sys2Proof

/-- CoprocessorFault (R235). -/
def coproc {α : Type} (sub : Nat) (val : Word) : M α := fault 22 sub val

/-- A tile must be claimed by the core that names it (R21, R220). -/
def claimed (cl core t : Nat) : M Unit := do
  if Tbl.get 0 ((← get).cluster cl).owner t != core + 1 then coproc 1 (BitVec.ofNat 64 t)

/-! ### Operands -/

/-- Bytes of an A operand (R221). -/
def aSize (fmt m k : Nat) : Nat := if blockFmt fmt then m * (k / 32) * (planeBytes fmt + 2) else m * k * elemBytes fmt

/-- The range of an A operand (R221). -/
def aCheck (o fmt m k : Nat) : M Unit := do
  if o % 128 != 0 || decide (o + aSize fmt m k > 0x40000) then coproc 4 (BitVec.ofNat 64 o)

/-- Element (i, k) of an A operand of K columns and M rows at offset `o` (R221). -/
def aValue (s : State) (cl o fmt m kk i k : Nat) : FVal :=
  let g := kk / 32
  if blockFmt fmt then
    let eb := planeBytes fmt
    let plane := leNat (s.bytes (placeStage cl (o + (i * g + k / 32) * eb)) eb)
    let scale := leNat (s.bytes (placeStage cl (o + m * g * eb + 2 * (i * g + k / 32))) 2)
    blockValue fmt (plane / 2 ^ (blockBits fmt * (k % 32)) % 2 ^ blockBits fmt) (BitVec.ofNat 16 scale)
  else elemValue fmt (leNat (s.bytes (placeStage cl (o + (i * kk + k) * elemBytes fmt)) (elemBytes fmt)))

/-- Bytes of an 8 × 8 block of a weight image (R224). -/
def imageBlock (fmt : Nat) : Nat := if blockFmt fmt then 2 * blockBits fmt * 4 else 64 * elemBytes fmt

/-- Element (k, j) of a slot, none where its block is absent (R224, R225). -/
def Slot.value (w : Slot) (k j : Nat) : Option FVal :=
  let i := k / 8 * (w.n / 8) + j / 8
  if w.present.getD i false then
    let blk := w.blocks.getD i []
    let cb := imageBlock w.fmt / 8
    let col := leNat ((blk.drop (j % 8 * cb)).take cb)
    some (if blockFmt w.fmt then
        blockValue w.fmt (col / 2 ^ (blockBits w.fmt * (k % 8)) % 2 ^ blockBits w.fmt) (w.scales.getD (k / 32 * w.n + j) 0)
      else
        let n := 8 * elemBytes w.fmt
        elemValue w.fmt (col / 2 ^ (n * (k % 8)) % 2 ^ n))
  else none

/-- Whether a matrix operation is of the narrow class (R64, R226). -/
def narrowClass (fa : Nat) (w : Slot) : Bool := narrowFmt fa && narrowFmt w.fmt

/-- An element of an accumulator tile. -/
def accAt (c : Cluster) (t i j : Nat) : Nat := (Tbl.get 0 c.acc (t * 16384 + i * 128 + j)).toNat

/-- A tile with all its elements replaced. -/
def setTile (t : Nat) (f : Nat → Nat → Nat) (c : Cluster) : Cluster :=
  let new := (List.range 16384).filterMap fun x =>
    let v := BitVec.ofNat 128 (f (x / 128) (x % 128))
    if v = 0 then none else some (t * 16384 + x, v)
  { c with acc := (c.acc.filter fun p => decide (p.1 < t * 16384)) ++ new ++
      c.acc.filter fun p => decide (t * 16384 + 16384 ≤ p.1) }

/-- The products of row `i` and column `j` in groups of 32 k (R226, R64). -/
def productGroups (a : Nat → Nat → FVal) (w : Slot) (i j k0 groups : Nat) : List (List (Option FVal)) :=
  (List.range groups).map fun g => (List.range 32).map fun q =>
    match w.value (k0 + 32 * g + q) j with
    | some b => product (a i (32 * g + q)) b
    | none => none

/-- The tile after products of an A operand and a slot have been added: rows below `m`, columns below `n`. -/
def accumulateTile (t m n groups : Nat) (a : Nat → Nat → FVal) (fa : Nat) (w : Slot) (c : Cluster) : Cluster :=
  setTile t (fun i j =>
    if i < m ∧ j < n then accumulate (narrowClass fa w) (accAt c t i j) (productGroups a w i j 0 groups) else accAt c t i j) c

/-- `mma` when it is performed (R226). -/
def mmaPerform (cl core : Nat) (f : Follow) : M Unit := do
  let o := f.o
  let t := o.acc.toNat
  let m := o.mm1.toNat + 1
  let n := o.nm1.toNat + 1
  let g := o.kg.toNat + 1
  let fa := o.fmta.toNat
  claimed cl core t
  let s ← get
  let w := Tbl.get {} (s.cluster cl).slots o.slot.toNat
  if !w.full || decide (32 * g > w.k) || decide (n > w.n) then coproc 5 (BitVec.ofNat 64 o.slot.toNat)
  aCheck f.off.toNat fa m (32 * g)
  let a := aValue s cl f.off.toNat fa m (32 * g)
  modify fun s => s.modCluster cl (accumulateTile t m n g a fa w)

/-! ### Memory operands -/

/-- Bytes read for a matrix entry: a mark faults (R223), and bytes that did not arrive read as ones (R194)
(DEDUCED, log entry 31). -/
def matrixBytes (got : List Got) (pieces : List (Nat × Nat)) : M (List Byte) := do
  let gs := pieces.map fun q => gotAt got q.1 q.2
  match gs.find? (·.mark != 0) with
  | some g => fault 23 (markSub g.mark 5).toNat (markVal g.mark)
  | none => return gs.flatMap fun g => g.bytes.getD (List.replicate g.n 0xFF)

/-- The pieces of `n` bytes at an address. -/
def span (va n : Nat) : List (Nat × Nat) := linePieces (n / 128 + 2) (va % 2 ^ 57) n

/-- The pieces are read for an entry of the matrix queue: through the L2 of its die, without the L1 (R270). -/
def fetchMx (key : Nat) (p : Pend) (pieces : List (Nat × Nat)) : M (List Got) := do
  let s ← get
  fetchFor (s.pendEnv key p) key (readLines (.mx (coreOfKey key)) 0) 0 (s.pendReq p) pieces

/-- Bytes at an address, read at once. -/
def readSpan (key : Nat) (p : Pend) (va n : Nat) : M (List Byte) := do
  let q := span va n
  matrixBytes (← fetchMx key p q) q

/-- Whether the bytes of a span are known: all but window pieces that no request covers. -/
def State.spanKnown (s : State) (p : Pend) (q : List (Nat × Nat)) : Bool :=
  let ws := q.filter fun q => inWindow q.1
  ws.isEmpty || match s.pendReq p with
    | some r => r.over && r.covers ws
    | none => false

/-- The shape of `mld` (R222): rows, groups and pitch (DEDUCED, log entry 21). -/
def mldShape (xs : Word) : M (Nat × Nat × Nat) := do
  let m := field xs 0 16
  let g := field xs 16 12
  if field xs 28 4 != 0 || m == 0 || g == 0 || decide (m > 1024) || decide (g > 2048) then coproc 6 xs
  return (m, g, field xs 32 32)

/-- Bytes of a source row of `g` groups. -/
def rowBytes (fmt g : Nat) : Nat := if blockFmt fmt then g * planeBytes fmt else 32 * g * elemBytes fmt

/-- What `mld` reads, row by row: the rows' planes, then the rows' scales (R222). -/
def mldSpans (o : ExM) (p : Pend) (m g pitch : Nat) : List (Nat × Nat) × List (Nat × Nat) :=
  let sf := mldSource o p.pfx
  let sb := (p.xv (pfxBase p.pfx)).toNat
  ((List.range m).map fun i => ((p.dra.toNat + i * pitch) % 2 ^ 57, rowBytes sf g),
    if blockFmt sf then (List.range m).map fun i => ((sb + 2 * i * g) % 2 ^ 57, 2 * g) else [])

/-- Element `j` of a row in a source format, as a value (R222). -/
def rowValue (sf : Nat) (row scales : List Byte) (j : Nat) : FVal :=
  if sf = 5 then kv4Value ((row.getD (j / 2) 0).toNat / 16 ^ (j % 2) % 16) (leNat ((scales.drop (2 * (j / 32))).take 2))
  else e4m3Decode (row.getD j 0).toNat

/-- A row converted on its way into the A-stage: its planes and its scales (R222). -/
def convertRow (sf fa g : Nat) (row scales : List Byte) : List Byte × List Byte :=
  if sf = fa then (row, scales)
  else if fa = 6 then
    ((List.range (32 * g)).flatMap fun j => leBytes 2 (bf16.deliver 0 false (rowValue sf row scales j)).1, [])
  else
    let blks := (List.range g).map fun b =>
      (quantBlock 1 6 ((List.range 32).map fun j => toF32 (rowValue sf row scales (32 * b + j)))).1
    (blks.flatMap (·.take 32), blks.flatMap (·.drop 32))

/-- `mld` when it is performed (R222, R223). -/
def mldPerform (key cl : Nat) (o : ExM) (p : Pend) : M Unit := do
  let (m, g, pitch) ← mldShape p.drb
  let sf := mldSource o p.pfx
  let fa := o.fmta.toNat
  let off := (p.xv o.aoff.toNat).toNat
  aCheck off fa m (32 * g)
  let (rows, scales) := mldSpans o p m g pitch
  let all := (rows ++ scales).flatMap fun q => span q.1 q.2
  let got ← fetchMx key p all
  noteVec key true false all
  let rb ← matrixBytes got (rows.flatMap fun q => span q.1 q.2)
  let sb ← matrixBytes got (scales.flatMap fun q => span q.1 q.2)
  let n := rowBytes sf g
  let out := (List.range m).map fun i =>
    convertRow sf fa g ((rb.drop (i * n)).take n) ((sb.drop (i * 2 * g)).take (2 * g))
  modify fun s => s.setBytes (placeStage cl off) (out.flatMap (·.1) ++ out.flatMap (·.2))

/-- The shape of `wload` (R224): N and K. -/
def wloadShape (xs : Word) : M (Nat × Nat) := do
  let n := field xs 0 16
  let k := field xs 16 16
  if field xs 32 32 != 0 || n % 8 != 0 || k % 32 != 0 || !decide (8 ≤ n ∧ n ≤ 128 ∧ 32 ≤ k ∧ k ≤ 4096) then coproc 6 xs
  return (n, k)

/-- Bytes of the bitmap of an image (R224). -/
def bitmapBytes (n k : Nat) : Nat := (k / 8 * (n / 8) + 7) / 8

/-- The blocks present under a bitmap (R224). -/
def bitmapBits (n k : Nat) (bs : List Byte) : List Bool := (List.range (k / 8 * (n / 8))).map fun i => (leNat bs).testBit i

/-- The bitmap's size in an image, padded (R224). -/
def bitmapPad (n k : Nat) : Nat := (bitmapBytes n k + 127) / 128 * 128

/-- The present blocks of an image by bit number (R224). -/
def spreadBlocks (size : Nat) : List Bool → List Byte → List (List Byte)
  | [], _ => []
  | true :: t, bs => bs.take size :: spreadBlocks size t (bs.drop size)
  | false :: t, bs => [] :: spreadBlocks size t bs

/-- The 16-bit scales of bytes. -/
def scalePairs : List Byte → List (BitVec 16)
  | a :: b :: t => BitVec.ofNat 16 (a.toNat + 256 * b.toNat) :: scalePairs t
  | _ => []

/-- An image read into a slot: N, K, its bitmap, blocks and scales. -/
def slotOf (fmt n k : Nat) (bits : List Bool) (blocks scales : List Byte) : Slot :=
  { full := true, fmt := fmt, k := k, n := n, present := bits, blocks := spreadBlocks (imageBlock fmt) bits blocks
    scales := scalePairs scales }

/-- The spans of an image's blocks and scales, once its bitmap is known (R224). -/
def imageSpans (fmt n k va sb : Nat) (bits : List Bool) : (Nat × Nat) × (Nat × Nat) :=
  ((va + bitmapPad n k, (bits.filter id).length * imageBlock fmt), (sb, if blockFmt fmt then 2 * (k / 32) * n else 0))

/-- `wload` when it is performed (R224) (DEDUCED, log entry 21). -/
def wloadPerform (key cl : Nat) (o : ExM) (p : Pend) : M Unit := do
  let (n, k) ← wloadShape p.drb
  let fmt := pfxFmt p.pfx
  let bits := bitmapBits n k (← readSpan key p p.dra.toNat (bitmapBytes n k))
  let (b, sc) := imageSpans fmt n k p.dra.toNat (p.xv (pfxBase p.pfx)).toNat bits
  if bitmapPad n k + b.2 + sc.2 > 0x40000 then
    modify fun s => s.modCluster cl fun c => { c with slots := Tbl.set {} c.slots o.slot.toNat {} }
    coproc 3 p.dra
  let blocks ← readSpan key p b.1 b.2
  let scales ← readSpan key p sc.1 sc.2
  noteVec key true false (span p.dra.toNat (bitmapBytes n k) ++ span b.1 b.2 ++ span sc.1 sc.2)
  modify fun s => s.modCluster cl fun c =>
    { c with slots := Tbl.set {} c.slots o.slot.toNat (slotOf fmt n k bits blocks scales) }

/-! ### Rows of accumulators (R231, R232) -/

/-- Row and first column of a row register (R231). -/
def rowReg (xr : Word) : M (Nat × Nat) := do
  if xr &&& ~~~0x7F7F#64 != 0 then coproc 6 xr
  return (field xr 0 7, field xr 8 7)

/-- An accumulator element as an element of a type (R231). -/
def accOut (ty : BitVec 3) (g2 : BitVec 4) (v : Nat) : Nat :=
  let mode := g2.toNat % 4
  let ftz := g2.getLsbD 2
  if ty = 0 then wrap 32 (cvtFI f128 mode ftz 32 true v).1 else (cvtFF f128 (tyFmt ty) mode ftz v).1

/-- A block of 32 columns quantised to SH8, where it is read (R231). -/
def accBlock (c : Cluster) (t r c0 b : Nat) (act : List Nat) : Option (List Byte) :=
  if c0 + 32 * b < 128 ∧ act.any (fun i => i / 8 == b) then
    some (quantBlock 1 6 ((List.range 32).map fun j => (cvtFF f128 f32 0 false (accAt c t r (c0 + 32 * b + j))).1)).1
  else none

/-- `macrd` when it is performed (R231). -/
def macrdPerform (cl core : Nat) (o : ExM) (p : Pend) (x : Ctx) : M Ctx := do
  let t := o.acc.toNat
  claimed cl core t
  let (r, c0) ← rowReg p.dra
  let c := (← get).cluster cl
  let act := activeLanes x p o.g1
  if o.ty = 5 then
    if c0 % 32 != 0 then coproc 6 p.dra
    let blks := (List.range 4).map fun b => accBlock c t r c0 b act
    let lane := fun (i : Nat) => leNat ((((blks.getD (i / 8) none).getD []).drop (4 * (i % 8))).take 4)
    let scales := blks.flatMap fun b => match b with
      | some bs => bs.drop 32
      | none => [0, 0]
    return (act.foldl (fun x' i => x'.setV o.d.toNat i (BitVec.ofNat 32 (lane i)) 0) x).setX o.c.toNat
      (BitVec.ofNat 64 (leNat scales))
  else
    let per := tyCount o.ty
    let col := fun (j : Nat) => if j < 128 then accOut o.ty o.g2 (accAt c t r j) else 0
    return act.foldl (fun x' i =>
      x'.putElems o.ty o.d.toNat i ((List.range per).map fun q => col (c0 + per * i + q)) 0) x

/-- `macwr` when it is performed (R232). -/
def macwrPerform (cl core : Nat) (o : ExM) (p : Pend) (x : Ctx) : M Unit := do
  let t := o.acc.toNat
  claimed cl core t
  let (r, c0) ← rowReg p.dra
  let act := activeLanes x p o.g1
  checkLanes x (tyRegs o.ty o.b.toNat) act
  let per := tyCount o.ty
  let wide := fun (v : Nat) => if o.ty = 0 then (cvtIF f128 0 false (sgn 32 v)).1 else (cvtFF (tyFmt o.ty) f128 0 false v).1
  let cells := act.flatMap fun i => (List.range per).filterMap fun q =>
    let j := c0 + per * i + q
    if j < 128 then some (j, wide (x.elem o.ty o.b.toNat i q)) else none
  modify fun s => s.modCluster cl fun c =>
    { c with acc := cells.foldl (fun a e => Tbl.set 0 a (t * 16384 + r * 128 + e.1) (BitVec.ofNat 128 e.2)) c.acc }

/-! ### The sequencer (R228 to R230) -/

/-- A descriptor of `mseq` (R228). -/
structure SeqDesc where
  abase : Nat
  bbase : Nat
  bscale : Nat
  cbase : Nat
  cpitch : Nat
  next : Nat
  bfmt : Nat
  deriving DecidableEq, Repr

/-- The counts of R228: TM, TN, G and S. -/
def seqCounts (o : ExM) : Nat × Nat × Nat × Nat :=
  let tm := (o.mm1.toNat + 128) / 128
  let tn := (o.nm1.toNat + 128) / 128
  let g := o.kg.toNat + 1
  (tm, tn, g, tm * tn * g)

/-- The descriptor's words and its checks (R228). -/
def seqDesc (o : ExM) (xa : Word) (bs : List Byte) : M SeqDesc := do
  let w := fun (i : Nat) => leNat ((bs.drop (8 * i)).take 8)
  let d : SeqDesc := { abase := w 0, bbase := w 1, bscale := w 2, cbase := w 3, cpitch := w 4, next := w 5 / 2 ^ 32
                       bfmt := w 5 % 16 }
  if w 5 / 16 % 2 ^ 28 != 0 || w 6 != 0 || w 7 != 0 || d.bfmt == 0 || decide (d.bfmt > 9) ||
      decide (d.next ≥ (seqCounts o).2.2.2) then coproc 7 xa
  return d

/-- A step's parts (R229): ti, tj, g and h. -/
def seqParts (o : ExM) (st : Nat) : Nat × Nat × Nat × Nat :=
  let (_, tn, g, _) := seqCounts o
  (st / (tn * g), st / g % tn, st % g, st % 2)

/-- The A piece of a step (R228). -/
def seqASpan (o : ExM) (d : SeqDesc) (st : Nat) : Nat × Nat :=
  let (ti, _, g, _) := seqParts o st
  let pa := aSize o.fmta.toNat 128 32
  (d.abase + (ti * (seqCounts o).2.2.1 + g) * pa, pa)

/-- The address of the B piece of a step (R228). -/
def seqBAddr (o : ExM) (d : SeqDesc) (st : Nat) : Nat :=
  let (_, tj, g, _) := seqParts o st
  d.bbase + (tj * (seqCounts o).2.2.1 + g) * (128 + 64 * imageBlock d.bfmt)

/-- The address of the scales of the B piece of a step (R228). -/
def seqScale (o : ExM) (d : SeqDesc) (st : Nat) : Nat :=
  let (_, tj, g, _) := seqParts o st
  d.bscale + 2 * (g * (seqCounts o).2.1 * 128 + 128 * tj)

/-- The step that the sequencer is to perform: its own position, or NEXT (R229). -/
def State.seqStep (s : State) (cl : Nat) (d : SeqDesc) : Nat :=
  match (s.cluster cl).seqr with
  | some q => if q.step = 0 then d.next else q.step - 1
  | none => d.next

/-- The output rows of a step (R229): address and bytes. -/
def seqOutput (o : ExM) (d : SeqDesc) (st : Nat) (c : Cluster) : List (Nat × List Byte) :=
  let (ti, tj, _, _) := seqParts o st
  let m := o.mm1.toNat + 1
  let n := o.nm1.toNat + 1
  let size := tyBits o.ty / 8
  (List.range (min 128 (m - 128 * ti))).flatMap fun i =>
    let row := (List.range (min 128 (n - 128 * tj))).flatMap fun j =>
      leBytes size (accOut o.ty o.g2 (accAt c o.acc.toNat i j))
    let va := (d.cbase + (128 * ti + i) * d.cpitch + 128 * tj * size) % 2 ^ 57
    byteplan (span va row.length) row

/-- The accumulator after a step's products (R229). -/
def seqAccumulate (o : ExM) (st cl off : Nat) (w : Slot) (s : State) (c : Cluster) : Cluster :=
  let (ti, tj, g, _) := seqParts o st
  let t := o.acc.toNat
  let c := if g = 0 ∧ o.ty ≠ 0 then setTile t (fun _ _ => 0) c else c
  accumulateTile t (min 128 (o.mm1.toNat + 1 - 128 * ti)) (min 128 (o.nm1.toNat + 1 - 128 * tj)) 1
    (aValue s cl off o.fmta.toNat 128 32) o.fmta.toNat w c

/-- The sequencer as a writer (R286) (DEDUCED, log entry 36). -/
def seqSource (s : State) (core : Nat) : Source :=
  { kind := 5, dev := s.devId, die := dieOfCore core, cl := clusterOfCore core % 64, via := .mx core }

/-- One step of the sequencer (R229); the answer is the step after it and the number of steps
(DEDUCED, log entry 36). -/
def seqPerform (key cl core : Nat) (o : ExM) (p : Pend) : M (Nat × Nat) := do
  if p.dra.toNat % 64 != 0 then coproc 7 p.dra
  let dva := p.dra.toNat % 2 ^ 57
  let d ← seqDesc o p.dra (← readSpan key p dva 64)
  claimed cl core o.acc.toNat
  let pa := aSize o.fmta.toNat 128 32
  if p.drb.toNat % 128 != 0 || decide (p.drb.toNat + 2 * pa > 0x40000) then coproc 4 p.drb
  let st := (← get).seqStep cl d
  let (_, _, g, h) := seqParts o st
  let a := seqASpan o d st
  let ab ← readSpan key p a.1 a.2
  let bits := bitmapBits 128 32 (← readSpan key p (seqBAddr o d st) 8)
  let (b, sc) := imageSpans d.bfmt 128 32 (seqBAddr o d st) (seqScale o d st) bits
  let blocks ← readSpan key p b.1 b.2
  let scales ← readSpan key p sc.1 sc.2
  let w := slotOf d.bfmt 128 32 bits blocks scales
  let off := p.drb.toNat + h * pa
  let s ← get
  let s1 := s.setBytes (placeStage cl off) ab
  let c1 := seqAccumulate o st cl off w s1 (s1.cluster cl)
  let c1 := { c1 with slots := Tbl.set {} c1.slots (o.slot.toNat ^^^ h) w }
  let out := if g + 1 = (seqCounts o).2.2.1 ∧ o.ty ≠ 0 then seqOutput o d st c1 else []
  vecWrite key p (seqSource s core) 0 false (out ++ [(dva + 0x2C, leBytes 4 (st + 1))])
  noteVec key true false (span dva 64 ++ span a.1 a.2 ++ span b.1 b.2 ++ span sc.1 sc.2)
  modify fun s => (s.setBytes (placeStage cl off) ab).modCluster cl fun c => { c with acc := c1.acc, slots := c1.slots }
  return (st + 1, (seqCounts o).2.2.2)

/-! ### The pieces of window operands -/

/-- What a queued instruction reads, as far as what it has read so far says: the pieces of its next request, were they in
the window (R183, R222, R224, R228) (DEDUCED, log entry 32). -/
def matrixPieces (key cl : Nat) (p : Pend) : M (List (Nat × Nat)) := do
  match p.op with
  | .mld o =>
    let (m, g, pitch) ← mldShape p.drb
    let (rows, scales) := mldSpans o p m g pitch
    return (rows ++ scales).flatMap fun q => span q.1 q.2
  | .wload _ =>
    let (n, k) ← wloadShape p.drb
    let q := span p.dra.toNat (bitmapBytes n k)
    if !(← get).spanKnown p q then return q
    else
      let bits := bitmapBits n k (← readSpan key p p.dra.toNat (bitmapBytes n k))
      let (b, sc) := imageSpans (pfxFmt p.pfx) n k p.dra.toNat (p.xv (pfxBase p.pfx)).toNat bits
      return q ++ span b.1 b.2 ++ span sc.1 sc.2
  | .mseq o =>
    let q := span p.dra.toNat 64
    if p.dra.toNat % 64 != 0 || !(← get).spanKnown p q then return q
    else
      let d ← seqDesc o p.dra (← readSpan key p p.dra.toNat 64)
      let st := (← get).seqStep cl d
      let a := seqASpan o d st
      let bm := span (seqBAddr o d st) 8
      let q := q ++ span a.1 a.2 ++ bm
      if !(← get).spanKnown p bm then return q
      else
        let bits := bitmapBits 128 32 (← readSpan key p (seqBAddr o d st) 8)
        let (b, sc) := imageSpans d.bfmt 128 32 (seqBAddr o d st) (seqScale o d st) bits
        return q ++ span b.1 b.2 ++ span sc.1 sc.2
  | _ => return []

/-- What a computation would answer: the accesses that it makes are not made yet. -/
def foresee {α : Type} (m : M α) : M α := do
  let s ← get
  let a ← m
  set s
  return a

/-- The window pieces of an entry of the queue: it sends a request where it needs one, and says so (R183). -/
def matrixStage (key cl : Nat) (p : Pend) : M Bool := do windowStage key p (← foresee (matrixPieces key cl p))

/-! ### The queue -/

/-- Whether an instruction is an `mseq`. -/
def VOp.isSeq : VOp → Bool
  | .mseq _ => true
  | _ => false

/-- The instruction that an entry of the queue stands for, where it is the oldest in flight of its context
(DEDUCED, log entry 24). The sequencer takes no step for a context that is stopped (R230). -/
def State.entryPend (s : State) (m : MEnt) : Option Pend :=
  let c := s.ctx m.key
  if c.live && c.st != .migrating then
    c.pend.head?.filter fun p => p.seq == m.seq && p.op.queues && !(p.op.isSeq && c.st == .absent)
  else none

/-- The tile that a queued instruction names. -/
def VOp.tile : VOp → Option Nat
  | .macz o => some (o.tail.toNat % 4)
  | .mma o => some o.acc.toNat
  | .mseq o => some o.acc.toNat
  | .macrd o => some o.acc.toNat
  | .macwr o => some o.acc.toNat
  | _ => none

/-- The tile that an entry of the queue names. -/
def State.entryTile (s : State) (m : MEnt) : Option Nat :=
  match m.cmd with
  | some f => some f.o.acc.toNat
  | none => ((s.ctx m.key).pend.find? (·.seq == m.seq)).bind fun p => p.op.tile

/-- The operation of steps at the head of the queue: a follow-on command, or an `mma` (R227). -/
def State.headMma (s : State) (m : MEnt) : Option Follow :=
  match m.cmd with
  | some f => some f
  | none =>
    match s.entryPend m with
    | none => none
    | some p =>
      match p.op with
      | .mma o => some { o := o, off := p.dra }
      | _ => none

/-- The sequencer registers as they stand for an entry. -/
def Cluster.progress (c : Cluster) (m : MEnt) : Seqr :=
  c.seqr.getD { key := m.key, seq := m.seq, step := 0, stalled := false }

/-- One issue under the governor (R234): it starts where the window has room, and says so; otherwise it waits, and is
counted once (DESIGN CHOICE, log entry 1). -/
def govern (cl : Nat) (m : MEnt) : M Bool := do
  let s ← get
  let c := s.cluster cl
  let w := field c.mgov 16 10
  let b := field c.mgov 0 10
  let recent := c.steps.filter fun t => decide (s.clock < t + w)
  let q := c.progress m
  if recent.length < b then
    modify fun s => s.modCluster cl fun c => { c with steps := recent ++ [s.clock], seqr := some { q with stalled := false } }
    return true
  else
    enabled (!q.stalled)
    modify fun s => s.modCluster cl fun c =>
      { c with mgstall := if c.mgstall = BitVec.allOnes 64 then c.mgstall else c.mgstall + 1
               seqr := some { q with stalled := true } }
    return false

/-- The head entry leaves the queue. -/
def popEntry (cl : Nat) (s : State) : State := s.modCluster cl fun c => { c with queue := c.queue.drop 1, seqr := none }

/-- A fault of a follow-on command reaches the context that issued its copy, or ends the launch where that has ended (R34,
R135, R233) (DEDUCED, log entry 35). -/
def commandFault (l : Nat) (m : MEnt) (t : Trap) (s : State) : State :=
  if m.key = noKey then
    endLaunch (s.launch l).q { status := 7, code := t.code.toNat, sub := t.sub.toNat, a := m.seq.setWidth 64, b := t.val
                               core := m.core, ctx := m.slot } s
  else raise m.key { t with kind := .imprecise, seq := m.seq, tag := true } s

/-- The launch that holds a core. -/
def State.launchOfCore (s : State) (core : Nat) : Nat :=
  ((s.launches.find? fun p => p.2.active && p.2.cores.contains core).map (·.1)).getD 0

/-- What a queued instruction does at its turn. -/
def performEntry (cl : Nat) (m : MEnt) (p : Pend) (c : Ctx) : M Ctx := do
  match p.op with
  | .macz o =>
    let t := o.tail.toNat % 4
    claimed cl m.core t
    modify fun s => s.modCluster cl (setTile t fun _ _ => 0)
    return c
  | .mld o =>
    mldPerform m.key cl o p
    return c
  | .wload o =>
    wloadPerform m.key cl o p
    return c
  | .mma o =>
    mmaPerform cl m.core { o := o, off := p.dra }
    return c
  | .macrd o => macrdPerform cl m.core o p c
  | .macwr o =>
    macwrPerform cl m.core o p c
    return c
  | _ => heldAgain

/-- The outcome of an attempt at an entry of a context: a request was sent, it is done with its context changed, or it
faults. -/
def settleEntry (cl : Nat) (m : MEnt) (p : Pend) (act : M (Option Ctx)) : M Unit := do
  let s ← get
  match act.run (clearNotes s) with
  | .ok none s' => set (clearNotes s')
  | .ok (some c') s' =>
    let now := s'.ctx m.key
    set (watchDue m.key p (retireDone m.key p { c' with due := now.due, grant := now.grant } 0 (popEntry cl s')))
  | .error (.trap t) s' => set (retireFault m.key p t (popEntry cl s'))
  | .error _ s' => waitsAt s s'

/-- MATRIX_QUEUE_ENTRY (R215, R216): the head entry is performed whole. An operation of steps comes to this when all its
steps have issued. -/
def execMatrixQueueEntry (cl : Nat) (s : State) : Outcome :=
  event (do
    let s ← get
    let k := s.cluster cl
    match k.queue with
    | [] => enabled false
    | m :: _ =>
      match s.headMma m with
      | some f => enabled (decide ((k.progress m).step ≥ f.o.kg.toNat + 1))
      | none => pure ()
      match m.cmd with
      | some f =>
        match (mmaPerform cl m.core f).run s with
        | .ok _ s' => set (popEntry cl s')
        | .error (.trap t) s' => set (commandFault (s.launchOfCore m.core) m t (popEntry cl s'))
        | .error _ s' => waitsAt s s'
      | none =>
        match s.entryPend m with
        | none => enabled false
        | some p =>
          settleEntry cl m p (do
            if ← matrixStage m.key cl p then return none
            else return some (← performEntry cl m p { s.ctx m.key with grant := p.grant }))) s

/-- MATRIX_STEP (R227, R234): one step of the operation at the head issues, or waits for the governor. -/
def execMatrixStep (cl : Nat) (s : State) : Outcome :=
  event (do
    let s ← get
    let k := s.cluster cl
    match k.queue with
    | [] => enabled false
    | m :: _ =>
      match s.headMma m with
      | none => enabled false
      | some f =>
        enabled (decide ((k.progress m).step < f.o.kg.toNat + 1))
        if ← govern cl m then
          modify fun s => s.modCluster cl fun c => { c with seqr := c.seqr.map fun q => { q with step := q.step + 1 } }) s

/-- MSEQ_STEP (R229): the sequencer performs its next step; the last one ends the `mseq`. -/
def execMseqStep (cl : Nat) (s : State) : Outcome :=
  event (do
    let s ← get
    match (s.cluster cl).queue with
    | [] => enabled false
    | m :: _ =>
      match s.entryPend m with
      | none => enabled false
      | some p =>
        match p.op with
        | .mseq o =>
          settleEntry cl m p (do
            if ← matrixStage m.key cl p then return none
            else if !(← govern cl m) then return none
            else
              let (next, n) ← seqPerform m.key cl m.core o p
              let s ← get
              let hit := firstHit ((s.cluster cl).progress m).hit s.watch
              modify fun s => { s with watch := hit }
              if next < n then
                modify fun s =>
                  let s := clearNotes s
                  let s := s.modCluster cl fun c => { c with seqr := c.seqr.map fun q => { q with step := next + 1, hit := hit } }
                  let s := { s with wreqs := s.wreqs.filter fun r => some r.id != p.req }
                  s.modCtx m.key fun c => { c with pend := c.pend.map fun q => if q.seq = p.seq then { q with req := none } else q }
                return none
              else return some ((← get).ctx m.key))
        | _ => enabled false) s

/-! ### The instructions -/

/-- A matrix instruction of 16 bytes. -/
def mat (o : Low) (op : VOp) (pre : Word → Word → M Unit) (s : State) : Outcome := vecN 16 o op pre s

/-- What `mclaim` does when it is dispatched (R219). -/
def claimTiles (o : ExT) (_ _ : Word) : M Unit := do
  let core := coreOfKey (← curKey)
  let cl := clusterOfCore core
  let s ← get
  let take := (List.range 4).filter fun t => o.tail.toNat.testBit t && Tbl.get 0 (s.cluster cl).owner t == 0
  modify fun s => s.modCluster cl fun c =>
    take.foldl (fun c t => { setTile t (fun _ _ => 0) c with owner := Tbl.set 0 c.owner t (core + 1) }) c
  let s ← get
  let held := (List.range 4).filter fun t => Tbl.get 0 (s.cluster cl).owner t == core + 1
  writeX o.d (BitVec.ofNat 64 ((held.map fun t => 2 ^ t).sum))

/-- `mclaim` (R219). -/
def execMclaim (o : ExT) (s : State) : Outcome := mat o.toLow (.acted true 0 none) (claimTiles o) s

/-- What `mrel` does when it is dispatched: it waits for the core's queued entries that name one of the tiles (R219). -/
def releaseTiles (o : ExT) (_ _ : Word) : M Unit := do
  let s ← get
  let core := coreOfKey s.cur
  let cl := clusterOfCore core
  let named := fun (t : Nat) => o.tail.toNat.testBit t
  let busy := (s.cluster cl).queue.any fun m => m.core == core && match s.entryTile m with
    | some t => named t
    | none => false
  if busy then heldAgain
  else
    modify fun s => s.modCluster cl fun c =>
      { c with owner := c.owner.filter fun p => !(named p.1 && p.2 == core + 1) }

/-- `mrel` (R219). -/
def execMrel (o : ExT) (s : State) : Outcome := mat o.toLow (.acted true 0 none) (releaseTiles o) s

/-- `macz` (R220). -/
def execMacz (o : ExT) (s : State) : Outcome := mat o.toLow (.macz o) noPre s

/-- `mld` (R222). -/
def execMld (o : ExM) (s : State) : Outcome := mat o.toLow (.mld o) noPre s

/-- `wload` (R224). -/
def execWload (o : ExM) (s : State) : Outcome := mat o.toLow (.wload o) noPre s

/-- `mma` (R226). -/
def execMma (o : ExM) (s : State) : Outcome := mat o.toLow (.mma o) noPre s

/-- `mseq` (R228, R229). -/
def execMseq (o : ExM) (s : State) : Outcome := mat o.toLow (.mseq o) noPre s

/-- `macrd` (R231). -/
def execMacrd (o : ExM) (s : State) : Outcome := mat o.toLow (.macrd o) noPre s

/-- `macwr` (R232). -/
def execMacwr (o : ExM) (s : State) : Outcome := mat o.toLow (.macwr o) noPre s

/-- The fault that the registration of a follow-on command meets: a tile that its core does not hold (R220)
(DEDUCED, log entry 35). -/
def followFault (s : State) (core : Nat) (o : ExM) : Option Trap :=
  if Tbl.get 0 (s.cluster (clusterOfCore core)).owner o.acc.toNat == core + 1 then none
  else some { asyncTrap 22 1 (BitVec.ofNat 64 o.acc.toNat) with kind := .imprecise }

/-- What `mfol` does when it is dispatched: the command is registered, with the offset as read (R233)
(DEDUCED, log entry 35). -/
def registerFollow (o : ExM) (x _ : Word) : M Unit := do
  let s ← get
  let core := coreOfKey s.cur
  if (followFault s core o).isNone then
    modify fun s => renew s.cur (fun t => { t with follow := Tbl.set none t.follow o.d.toNat none }) (s.modCore core fun k =>
      { k with follow := Tbl.set none k.follow o.d.toNat (some { o := o, off := x }) })

/-- `mfol` (R220, R233) (DEDUCED, log entry 35). -/
def execMfol (o : ExM) (s : State) : Outcome :=
  mat o.toLow (.acted true o.aoff.toNat (followFault s (coreOfKey s.cur) o)) (registerFollow o) s

end Sys2Proof.Machine
end

