-- ==== Sys2Proof/Machine/Copy.lean ====
section
/-!
DEFINITION. The copy engine (08 R236 to R247): the checks at issue, the lines of a copy, block tables and copy-on-write,
faults, and completion.
-/

namespace Sys2Proof.Machine

open Sys2Proof

/-! ### The engine's accesses -/

/-- The copy engine as a writer, and as a caching agent of its die (R241, R286). -/
def copySource (s : State) (c : Copy) : Source :=
  { kind := 1, dev := s.devId, die := dieOfCore c.core, cl := clusterOfCore c.core % 64, core := c.core % 8
    via := .l2 (dieOfCore c.core) }

/-- The copy engine as the maker of an access: no context. -/
def engineKey : Nat := 1048577

/-- Where bytes lie that the engine reads or writes for itself, piece by piece within lines: in the package (R246)
(DEDUCED, log entry 32). -/
def engineSpan (c : Copy) (va n kind : Nat) : M (List (Nat × Nat × Loc)) := do
  let locs ← vecLocs c.env kind (linePieces (n / 128 + 2) (va % 2 ^ 57) n)
  match locs.find? fun l => l.2.2.place?.isNone with
  | some l => noAperture l.1
  | none => return locs

/-- The bytes of places with their marks, as the engine reads them. -/
def engineBytes (c : Copy) (locs : List (Nat × Nat × Loc)) : M (List (Byte × Nat)) := do
  readLines (.l2 (dieOfCore c.core)) 0 (pieceLines locs)
  let s ← get
  return locs.flatMap fun l => (List.range l.2.1).map fun i =>
    let p := (l.2.2.place?.getD 0) + i
    (s.byte p, s.byteMark p)

/-- A word that the engine reads: a marked one faults (R246, R402) (DEDUCED, log entry 32). -/
def engineWord (c : Copy) (va n : Nat) : M Nat := do
  let bs ← engineBytes c (← engineSpan c va n accRead)
  match markIn (bs.map (·.2)) with
  | 0 => return leNat (bs.map (·.1))
  | m => faultAt 23 (markSub m 6).toNat (markVal m) (va % 2 ^ 57)

/-- Through what the engine reaches a place: host memory that is not cached takes no request. -/
def Loc.engineVia (l : Loc) (v : Via) : Via :=
  match l with
  | .mem _ 3 => .held
  | _ => v

/-- Bytes with their marks are written at places by the engine. -/
def engineStore (w : Source) : List (Nat × Nat × Loc) → List (Byte × Nat) → M Unit
  | [], _ => return ()
  | (_, n, l) :: t, bs => do
    let p := l.place?.getD 0
    let via := l.engineVia w.via
    lineWritable via p
    modify fun s => (s.store { w with via := via } p ((bs.take n).map (·.1))).setMarks p ((bs.take n).map (·.2))
    engineStore w t (bs.drop n)

/-- A number is written at places by the engine. -/
def engineNat (w : Source) (locs : List (Nat × Nat × Loc)) (n v : Nat) : M Unit :=
  engineStore w locs ((leBytes n v).map fun b => (b, 0))

/-- The engine takes lines exclusive (R241, R246). -/
def engineHold (v : Via) : List (Nat × Nat × Loc) → M Unit
  | [] => return ()
  | (_, _, l) :: t => do
    let p := l.place?.getD 0
    lineWritable (l.engineVia v) p
    modify (lineWritten (l.engineVia v) p)
    engineHold v t

/-! ### Block tables -/

/-- The address of an entry of a block table (R245). -/
def Copy.entryVa (c : Copy) (t : Nat) : Nat := (c.table + 4 * t) % 2 ^ 57

/-- The entries of a block table that the parts of a line read (R245). -/
def Copy.tableNeeds (c : Copy) (parts : List Part) : List Nat :=
  if c.mode = 1 then
    (parts.flatMap fun q => (List.range ((q.src % c.bs + q.n + c.bs - 1) / c.bs)).map (q.src / c.bs + ·)).eraseDups
  else []

/-- An entry of a block table that a copy reads: one in the window as its request brought it (R245). -/
def tableEntry (c : Copy) (t : Nat) : M Nat := do
  if inWindow (c.entryVa t) then
    match Tbl.get 0 c.entries t with
    | 0 => heldAgain
    | e + 1 => return e
  else engineWord c (c.entryVa t) 4

/-- View bytes as pieces of memory, each within one block: address and length. -/
def viewPieces (c : Copy) : Nat → Nat → Nat → M (List (Nat × Nat))
  | 0, _, _ => return []
  | f + 1, v, n => do
    if n = 0 then return []
    else
      let k := min n (c.bs - v % c.bs)
      let e ← tableEntry c (v / c.bs)
      return (linePieces 3 (viewAddr c v e) k) ++ (← viewPieces c f (v + k) (n - k))

/-- The pieces of memory that a part reads. -/
def Copy.sourcePieces (c : Copy) (q : Part) : M (List (Nat × Nat)) := do
  if c.mode = 1 then viewPieces c 3 q.src q.n
  else return linePieces 3 (q.src % 2 ^ 57) q.n

/-- The parts of a line, each with the pieces of memory that it reads. -/
def planLine (c : Copy) : List Part → M (List (Part × List (Nat × Nat)))
  | [] => return []
  | q :: t => do
    let a ← c.sourcePieces q
    return (q, a) :: (← planLine c t)

/-- The scales of a widening step: those of the KV4 groups that its source bytes lie in (R239). -/
def Copy.scalePieces (c : Copy) (q : Part) : List (Nat × Nat) :=
  if c.fmt = 5 then
    (List.range ((q.pos % 16 + q.n + 15) / 16)).map fun i => ((c.scale + 2 * (q.pos / 16 + i)) % 2 ^ 57, 2)
  else []

/-- A source byte widened to BF16 bytes (R239, R222). -/
def widenByte (c : Copy) (pos : Nat) (b : Byte) (scale : Nat → Nat) : List Byte :=
  if c.fmt = 4 then leBytes 2 (bf16.deliver 0 false (e4m3Decode b.toNat)).1
  else if c.fmt = 5 then
    (List.range 2).flatMap fun h =>
      leBytes 2 (bf16.deliver 0 false (kv4Value (b.toNat / 16 ^ h % 16) (scale (pos / 16)))).1
  else [b]

/-- The bytes of pieces with their marks: ones where they did not arrive (R194, R239) (DEDUCED, log entry 31). -/
def gotBytes (got : List Got) (pieces : List (Nat × Nat)) : List (Byte × Nat) :=
  pieces.flatMap fun q =>
    let g := gotAt got q.1 q.2
    (List.range q.2).map fun i => ((g.bytes.getD (List.replicate q.2 0xFF)).getD i 0, g.marks.getD i 0)

/-! ### Faults and completion -/

/-- A copy's state as `cpyq` reads it (R243): with the number of the copy, so that an old one can be told. -/
def setCopyState (c : Copy) (st : Nat) (s : State) : State :=
  let put := fun (t : Tbl Nat) => Tbl.set 0 t c.tag.toNat (if st = 0 then 0 else st + 4 * (Tbl.get 0 t c.tag.toNat / 4))
  if c.queueEntry.isSome then s
  else
    match c.origin with
    | none => s.modCore c.core fun k => { k with copies := put k.copies }
    | some o => modTable c.launch o (fun t => { t with copies := put t.copies }) s

/-- A copy fault stops the copy (R242) and reaches its context (R34), or ends its launch where that has ended (R135), or its
queue entry (R364). -/
def copyFault (c : Copy) (t : Trap) (s : State) : State :=
  let s := setCopyState c 2 s
  let gone := decide (c.landed ≥ c.next)
  let c := { c with stopped := true, faulted := true }
  let s := { s with
    copies := if gone then s.copies.filter (·.id != c.id) else s.copies.map fun y => if y.id == c.id then c else y
    wreqs := s.wreqs.filter fun r => some r.id != c.req }
  match c.queueEntry with
  | some q => endLaunch q { status := 1, code := t.code.toNat, sub := t.sub.toNat, b := t.at'.setWidth 64 } s
  | none =>
    match c.key with
    | some key => raise key { t with kind := .imprecise, seq := c.tag, tag := true } s
    | none => endLaunch (s.launch c.launch).q { status := 7, code := t.code.toNat, sub := t.sub.toNat, a := c.tag.setWidth 64
                                                b := t.val, core := c.core, ctx := c.slot } s

/-- A copy of the list changed. -/
def modCopy (id : Nat) (f : Copy → Copy) (s : State) : State :=
  { s with copies := s.copies.map fun c => if c.id == id then f c else c }

/-- An attempt of the engine: what it does, its fault, or nothing where it must wait. -/
def engineTry (c : Copy) (act : M Unit) : M Unit := do
  let s ← get
  match act.run s with
  | .ok _ s' => set s'
  | .error (.trap t) s' => set (copyFault c t s')
  | .error _ s' => waitsAt s s'

/-- Whether two copies belong to one queue of R244: of one context on one stream. -/
def Copy.sameQueue (c d : Copy) : Bool := c.key == d.key && c.core == d.core && c.slot == d.slot && c.stream == d.stream

/-- Whether an earlier copy of its queue keeps a copy of a deterministic launch waiting (R244). -/
def State.copyBehind (s : State) (c : Copy) : Bool :=
  (s.launch c.launch).det && s.copies.any fun d => d.launch == c.launch && c.sameQueue d && decide (d.id < c.id)

/-- Whether a copy of another queue, issued in another cluster and still in flight, has written a line (R244). -/
def State.lineClash (s : State) (c : Copy) (line : Nat) : Bool :=
  (s.launch c.launch).det && s.copies.any fun d =>
    d.launch == c.launch && d.cl != c.cl && !c.sameQueue d && !d.stopped && d.wrote.contains line

/-! ### Copy-on-write (R246) -/

/-- One table entry that the view touches, its line held exclusive: a shared block is copied to a block of the free list, and
the entry and the reference word follow (R246). -/
def cowEntry (c : Copy) (t : Nat) : M Unit := do
  let w := copySource (← get) c
  let _ ← engineSpan c (c.entryVa t) 4 accRead
  let tp ← engineSpan c (c.entryVa t) 4 accWrite
  engineHold w.via tp
  let e ← engineWord c (c.entryVa t) 4
  if e / 2 ^ 31 = 1 then
    let head ← engineWord c c.ring 4
    let tail ← engineWord c (c.ring + 4) 4
    if head = tail then coproc 0x12 (BitVec.ofNat 64 c.ring)
    let refBase ← engineWord c (c.ring + 8) 8
    let mask ← engineWord c (c.ring + 0x10) 4
    let f ← engineWord c (c.ring + 0x20 + 4 * (head &&& mask)) 4
    let old := e % 2 ^ 31
    let new := f % 2 ^ 31
    let hp ← engineSpan c c.ring 4 accWrite
    let rva := refBase + 4 * old
    let n ← engineWord c rva 4
    let rp ← engineSpan c rva 4 accWrite
    let olds ← engineSpan c (c.pool + old * c.bs) c.bs accRead
    let news ← engineSpan c (c.pool + new * c.bs) c.bs accWrite
    engineNat w hp 4 (head + 1)
    engineStore w news (← engineBytes c olds)
    engineNat w tp 4 new
    engineNat w rp 4 (n + 2 ^ 32 - 1)

/-- The entries that view bytes touch are handled, each once (R246, R247). -/
def cowEntries (c : Copy) : List Nat → M Unit
  | [] => return ()
  | t :: ts => do
    if !((((← get).copies.find? (·.id == c.id)).map (·.cow)).getD []).contains t then
      cowEntry c t
      modify (modCopy c.id fun c => { c with cow := t :: c.cow })
    cowEntries c ts

/-! ### Lines -/

/-- The destination number of a line, and its place where it lies in the package (R195, R239). -/
def lineDest (va : Nat) : Loc → M (Nat × Nat)
  | .mem p mt => return if mt = 3 then (hostDest, p) else (dieDest ((homeDie p).getD 0), p)
  | .bank p => return (dieDest (bankDie p), p)
  | .window a => return (windowDev a, 0)
  | _ => noAperture va

/-- Whether the engine may stamp a line of a copy now (R196, R201). -/
def State.copyRoom (s : State) (c : Copy) (dest : Nat) : Bool :=
  (decide (dest < 2048) && s.unreachable dest) || dest == hostDest ||
    (decide ((s.stream c.core c.stream dest).unacked < 64) && !s.posts.any fun q =>
      q.core == c.core && q.stream == c.stream && q.dest == dest && q.st == .waiting && decide (q.order < c.id))

/-- The cells of a line: the bytes of its parts by destination address, with their marks. -/
def lineCells (c : Copy) (got : List Got) (scale : Nat → Nat) (plan : List (Part × List (Nat × Nat))) :
    List (Nat × Byte × Nat) :=
  plan.flatMap fun (q, pieces) => ((gotBytes got pieces).zipIdx).flatMap fun b =>
    ((widenByte c (q.pos + b.2) b.1.1 scale).zipIdx).map fun w => (q.dst + c.fac * b.2 + w.2, w.1, b.1.2)

/-- A line's bytes are posted (R239), each with the mark of the byte that remains, or written off where its device is
unreachable (R398); a bank that a change of CSPLIT holds does not accept it yet (R258) (DEDUCED, log entry 37). -/
def postCopyLine (c : Copy) (cells : List (Nat × Byte × Nat)) : M Unit := do
  let (lo, bs, skip) := cellSpan (layCells (cells.map fun x => (x.1, [x.2.1])))
  let va ← (if c.mode = 2 then do
      let e ← engineWord c (c.entryVa (lo / c.bs)) 4
      pure (viewAddr c lo e)
    else pure (lo % 2 ^ 57) : M Nat)
  let loc ← vecLoc c.env va bs.length accWrite
  let (dest, place) ← lineDest va loc
  let s ← get
  if !s.copyRoom c dest || (decide (2048 ≤ dest) && s.bankHeld .home place) then heldAgain
  else if s.lineClash c (if dest < 2048 then 2 ^ 60 + va / 128 else place / 128) then fault 13 0 (BitVec.ofNat 64 va)
  else if dest < 2048 ∧ s.unreachable dest then modify (lineLanded c.id 0)
  else
    let id ← newId
    let marks := (List.range bs.length).map fun i => ((cells.reverse.find? fun x => x.1 == lo + i).map (·.2.2)).getD 0
    addPost { id := id, key := c.key.getD noKey, core := c.core, slot := c.slot, launch := c.launch, stream := c.stream
              dest := dest, seq := 0, st := .waiting, va := BitVec.ofNat 57 va, place := place, bytes := bs
              marks := if marks.all (· == 0) then [] else marks, skip := skip, marker := none, copy := some c.id }
    if (s.launch c.launch).det then
      modify (modCopy c.id fun c => { c with wrote := (if dest < 2048 then 2 ^ 60 + va / 128 else place / 128) :: c.wrote })

/-- A line into the A-stage buffer, which keeps no marks (R239, R242). -/
def stageLine (c : Copy) (cells : List (Nat × Byte × Nat)) : M Unit := do
  match cells.find? fun x => x.2.2 != 0 with
  | some x => fault 23 (markSub x.2.2 6).toNat (markVal x.2.2)
  | none =>
    modify fun s => lineLanded c.id cells.length
      (cells.foldl (fun s x => s.setByte (placeStage c.cl x.1) x.2.1) s)

/-- The engine reads pieces: those in the window through a request, which it sends where it has none, and whose end it
awaits (R183, R266) (DEDUCED, log entry 32). -/
def engineFetch (c : Copy) (pieces : List (Nat × Nat)) : M (Option (List Got)) := do
  let s ← get
  let ws := pieces.filter fun q => inWindow q.1
  let req := c.req.bind fun id => s.wreqs.find? (·.id == id)
  match req with
  | some r => if !r.over then heldAgain
  | none => pure ()
  if !ws.isEmpty && req.isNone then
    let _ ← vecLocs c.env accRead pieces
    let id ← windowRequest (.copy c.id) engineKey 0 ws
    modify (modCopy c.id fun c => { c with req := some id })
    return none
  else
    let got ← fetchFor c.env engineKey (readLines (.l2 (dieOfCore c.core)) 0) 0 req pieces
    modify fun s => modCopy c.id (fun c => { c with req := none }) { s with wreqs := s.wreqs.filter fun r => some r.id != c.req }
    return some got

/-- The first marked piece among some faults (R242, R402). -/
def unmarked (got : List Got) (pieces : List (Nat × Nat)) : M Unit :=
  match pieces.find? fun q => (gotAt got q.1 q.2).mark != 0 with
  | some q =>
    let m := (gotAt got q.1 q.2).mark
    faultAt 23 (markSub m 6).toNat (markVal m) q.1
  | none => pure ()

/-- Entries of a block table in the window are fetched (R245) (DEDUCED, log entry 32). -/
def fetchTable (c : Copy) (ts : List Nat) : M Unit := do
  let pieces := fun (t : Nat) => linePieces 2 (c.entryVa t) 4
  match ← engineFetch c (ts.flatMap pieces) with
  | none => return ()
  | some got =>
    unmarked got (ts.flatMap pieces)
    modify (modCopy c.id fun c =>
      { c with entries := ts.foldl (fun e t => Tbl.set 0 e t (leNat ((gotBytes got (pieces t)).map (·.1)) + 1)) c.entries })

/-- A line of a copy whose sources are known is moved (R239 to R241) (DEDUCED, log entry 37). -/
def writeLineOf (c : Copy) (parts : List Part) (plan : List (Part × List (Nat × Nat))) (got : List Got) : M Unit := do
  unmarked got (parts.flatMap c.scalePieces)
  if c.mode = 2 then cowEntries c ((parts.map fun q => q.dst / c.bs).eraseDups)
  let scale := fun (g : Nat) => (gotAt got ((c.scale + 2 * g) % 2 ^ 57) 2).num
  let cells := lineCells c got scale plan
  modify (modCopy c.id fun c => { c with next := c.next + 1, entries := [] })
  if c.astage then stageLine c cells else postCopyLine c cells

/-- The next line of a copy: its sources are read, and it is written (R239 to R241); or the engine fetches first what lies in
the window (DEDUCED, log entries 32 and 37). -/
def moveLine (c : Copy) : M Unit := do
  let parts := c.line c.next
  match (c.tableNeeds parts).filter fun t => inWindow (c.entryVa t) && Tbl.get 0 c.entries t == 0 with
  | t :: ts => fetchTable c (t :: ts)
  | [] =>
    let plan ← planLine c parts
    match ← engineFetch c (plan.flatMap (·.2) ++ parts.flatMap c.scalePieces) with
    | none => return ()
    | some got => writeLineOf c parts plan got

/-- COPY_LINE (R239). -/
def execCopyLine (id : Nat) (s : State) : Outcome :=
  event (do
    let s ← get
    match s.copies.find? (·.id == id) with
    | none => enabled false
    | some c =>
      enabled (!c.stopped && decide (c.next < c.total) && !s.copyBehind c)
      engineTry c (moveLine c)) s

/-- The completion word is written with its value (R239): in the window it is a posted store of the copy's stream
(DEDUCED, log entry 37). -/
def completionWrite (c : Copy) (va : Nat) (v : Word) : M Unit := do
  let bs := leBytes 8 v.toNat
  match ← resolve c.env va 8 accWrite with
  | .event cl off _ =>
    if off % 8 = 0 ∧ off < 0x200 then modify (fireLine cl (off / 8) v) else noAperture va
  | .regs _ => fault 6 2 (BitVec.ofNat 64 va)
  | .param _ _ => noAperture va
  | l =>
    let (dest, place) ← lineDest va l
    let s ← get
    if dest < 2048 ∨ dest = hostDest then
      if !s.copyRoom c dest then heldAgain
      else
        let id ← newId
        addPost { id := id, key := c.key.getD noKey, core := c.core, slot := c.slot, launch := c.launch, stream := c.stream
                  dest := dest, seq := 0, st := .waiting, va := BitVec.ofNat 57 va, place := place, bytes := bs
                  marker := none, copy := some c.id }
    else
      lineWritable .home place
      modify fun s => s.store { copySource s c with via := .home } place bs

/-- A copy completes: its follow-on command enters the matrix queue, and then its completion word is written (R73, R239). -/
def finishCopy (c : Copy) : M Unit := do
  let s ← get
  match c.follow with
  | some f =>
    if (s.cluster c.cl).queue.length ≥ 32 then heldAgain
    else
      modify fun s => s.modCluster c.cl fun k =>
        { k with queue := k.queue ++ [{ key := c.key.getD noKey, seq := c.tag, core := c.core, slot := c.slot, cmd := some f }] }
  | none => pure ()
  match c.done with
  | some (va, v) => completionWrite c va v
  | none => pure ()
  match c.queueEntry, c.node with
  | some q, some _ => useGraph q
  | _, _ => pure ()
  modify fun s =>
    let s := setCopyState c 0 { s with copies := s.copies.filter (·.id != c.id) }
    match c.queueEntry, c.node with
    | some q, none => endWith q { status := 0 } s
    | some q, some n => nodeDoneAll q n s
    | none, _ => s

/-- COPY_COMPLETE (R239). -/
def execCopyComplete (id : Nat) (s : State) : Outcome :=
  event (do
    let s ← get
    match s.copies.find? (·.id == id) with
    | none => enabled false
    | some c =>
      enabled (!c.stopped && decide (c.next ≥ c.total ∧ c.landed ≥ c.total) && !s.copyBehind c)
      engineTry c (finishCopy c)) s

/-! ### Issue -/

/-- The shape registers of a copy (R237, R245): rows, planes, bytes of a row and pitches. -/
structure CopyShape where
  x : Nat
  rows : Nat
  planes : Nat
  sr : Nat
  dr : Nat
  sp : Nat
  dp : Nat
  deriving DecidableEq, Repr

/-- The shape that shape words give, or none where R237 refuses them. -/
def copyShape (w p1 p2 : Word) : CopyShape :=
  let x := field w 0 24
  let y := field w 24 16
  match field w 62 2 with
  | 0 => { x := y * 2 ^ 24 + x, rows := 1, planes := 1, sr := 0, dr := 0, sp := 0, dp := 0 }
  | 1 => { x := x, rows := y, planes := 1, sr := field p1 0 32, dr := field p1 32 32, sp := 0, dp := 0 }
  | _ => { x := x, rows := y, planes := field w 40 16, sr := field p1 0 32, dr := field p1 32 32, sp := field p2 0 32
           dp := field p2 32 32 }

/-- Whether R237 accepts a shape word in register `c`; a paged view takes one dimension (R245). -/
def shapeOK (w : Word) (c : Nat) (view : Bool) : Bool :=
  let dims := field w 62 2
  dims != 3 && field w 56 6 == 0 && (dims == 2 || field w 40 16 == 0) && (dims == 0 || field w 24 16 != 0) &&
    decide (c + dims ≤ 63) && !(view && dims != 0)

/-- The barrier object of a copy: an 8-byte word of a cluster's memory, own or a peer's (R238). -/
def barPlace (va : Nat) : M Nat := do
  let own := va / 2 ^ 55 % 4 = 1 ∧ va / 2 ^ 52 % 8 = 1
  let peer := va / 2 ^ 55 % 4 = 2 ∧ va / 2 ^ 41 % 8 = 1
  if va % 8 = 0 ∧ (own ∨ peer) then
    match (resolve (← curEnv) va 8 accWrite).run (← get) with
    | .ok (.bank p) _ => return p
    | _ => coproc 0x11 (BitVec.ofNat 64 va)
  else coproc 0x11 (BitVec.ofNat 64 va)

/-- The KV4 rule on widening (R239): whole groups of 16 source bytes. -/
def kv4Rows (c : Copy) : Bool :=
  c.x % 16 == 0 && (List.range c.rowCount).all fun r => c.rowSrc r % 16 == 0

/-- Whether a copy stays within the A-stage buffer (R239). -/
def stageFits (c : Copy) : Bool :=
  decide (c.dst < 0x40000) && (List.range c.rowCount).all fun r => decide (c.rowDst r + c.fac * c.x ≤ 0x40000)

/-- `n` bytes from an address in pieces that each lie within one aligned block of `u` bytes. -/
def cutSpan (u : Nat) : Nat → Nat → Nat → List (Nat × Nat)
  | 0, _, _ => []
  | f + 1, a, n =>
    if n = 0 then []
    else
      let k := min n (u - a % u)
      (a, k) :: cutSpan u f (a + k) (n - k)

/-- The places of `n` bytes at an address, as far as it can be translated now. -/
def State.spanAt (s : State) (e : Env) (va n : Nat) : List (Nat × Nat × Nat) :=
  match (resolve e va 1 accRead).run s with
  | .ok (.window a) _ => [(2 ^ 60 + a, n, va)]
  | .ok l _ => (l.place?.map fun p => (p, n, va)).toList
  | _ => []

/-- The places that `n` view bytes have in a view: those behind each table entry, and, where the block is not shared, those of
the block (R246). -/
def State.viewSpan (s : State) (c : Copy) (v n : Nat) : List (Nat × Nat × Nat) :=
  match (resolve c.env (c.entryVa (v / c.bs)) 4 accRead).run s with
  | .ok l _ =>
    match l.place? with
    | none => []
    | some p =>
      let e := leNat (s.bytes p 4)
      let va := viewAddr c v e
      (2 ^ 61 + p * 2 ^ 22 + v % c.bs, n, va) :: (if e / 2 ^ 31 = 1 then [] else s.spanAt c.env va n)
  | _ => []

/-- Where the destination bytes of a copy lie: places, lengths and addresses, through the page tables and the block table as
they stand at its issue (R244) (DEDUCED, log entry 37). -/
def State.destSpans (s : State) (c : Copy) : List (Nat × Nat × Nat) :=
  (List.range c.rowCount).flatMap fun r =>
    let a := c.rowDst r
    let n := c.fac * c.x
    if c.astage then [(placeStage c.cl a, n, a)]
    else if c.mode = 2 then (cutSpan (min 4096 c.bs) (n / 128 + 2) a n).flatMap fun q => s.viewSpan c q.1 q.2
    else (cutSpan 4096 (n / 4096 + 2) a n).flatMap fun q => s.spanAt c.env (q.1 % 2 ^ 57) q.2

/-- The first address at which spans meet the destination of another copy (R244). -/
def Copy.meets (d : Copy) (spans : List (Nat × Nat × Nat)) : Option Nat :=
  spans.findSome? fun q => d.spans.findSome? fun r =>
    if q.1 < r.1 + r.2 ∧ r.1 < q.1 + q.2.1 then some (q.2.2 + (r.1 - q.1)) else none

/-- The address at which a new copy of a deterministic launch overlaps one of another queue, in flight in the same cluster
(R244) (DEDUCED, log entry 37). -/
def State.overlap (s : State) (c : Copy) (spans : List (Nat × Nat × Nat)) : Option Nat :=
  s.copies.findSome? fun d => if d.cl == c.cl && d.launch == c.launch && !d.stopped && !c.sameQueue d then d.meets spans else none

/-- The tag after one (R238) (DEDUCED, log entry 37). -/
def nextTag (t : BitVec 16) : BitVec 16 := if t = BitVec.allOnes 16 then 1 else t + 1

/-- A copy enters the engine with its tag (R238); one that overlaps another faults and writes nothing (R244)
(DEDUCED, log entry 37). -/
def enterCopy (c : Copy) (s : State) : State :=
  let spans := if (s.launch c.launch).det then s.destSpans c else []
  let c := { c with total := c.lines, spans := spans.map fun q => (q.1, q.2.1) }
  let hit := s.overlap c spans
  let s := s.modCore c.core fun k =>
    { k with tag := c.tag, issued := k.issued + 1, copies := Tbl.set 0 k.copies c.tag.toNat (1 + 4 * (k.issued + 1)) }
  let s := (c.key.map fun key => renew key (fun t => { t with copies := Tbl.set 0 t.copies c.tag.toNat 0 }) s).getD s
  let s := { s with copies := s.copies ++ [c] }
  match hit with
  | some va => copyFault c { asyncTrap 13 0 (BitVec.ofNat 64 va) with kind := .imprecise } s
  | none => s

/-- Copies of a core in flight (R238). -/
def State.copiesOf (s : State) (core : Nat) : Nat := (s.copies.filter fun c => c.core == core && !c.stopped).length

/-- Whether posted stores of a context are still to be performed: a copy comes after its context's earlier accesses
(R238). -/
def State.postsOut (s : State) (key : Nat) : Bool :=
  s.posts.any fun p => p.key == key && p.copy.isNone && p.marker.isNone && (p.st == .waiting || p.st == .sent)

/-- The follow-on command that a context names by its number (R233, R379) (DEDUCED, log entry 45). -/
def State.followOf (s : State) (key n : Nat) : Option Follow :=
  match (s.tablesOf key).findSome? fun t => Tbl.get none t.follow n with
  | some f => some f
  | none => Tbl.get none (s.core (coreOfKey key)).follow n

/-- A copy's fields as its instruction gives them, with the checks of R238 that do not depend on the copy as a whole. -/
def readCopy (mode : Nat) (o : ExC) : M Copy := do
  let s ← get
  let key := s.cur
  let core := coreOfKey key
  let x := s.ctx key
  let fmt := if x.pp then field x.pfx 0 4 else 0
  let w ← useX o.c.toNat
  if !shapeOK w o.c.toNat (mode != 0) then coproc 0x10 w
  let p1 ← (if field w 62 2 ≥ 1 then useX (o.c.toNat + 1) else pure 0)
  let p2 ← (if field w 62 2 ≥ 2 then useX (o.c.toNat + 2) else pure 0)
  let sh := copyShape w p1 p2
  let xa ← useX o.a.toNat
  let xb ← useX o.b.toNat
  let xe ← (if o.cw = 1 then useX o.e.toNat else pure 0)
  let v ← (if o.cw = 1 then useX o.val.toNat else pure 0)
  if xe.toNat % 8 != 0 then coproc 0x11 xe
  let xbar ← (if o.be = 1 then useX o.bar.toNat else pure 0)
  let bar ← (if o.be = 1 then do
      let p ← barPlace (xbar.toNat % 2 ^ 57)
      pure (some p)
    else pure none)
  let pool ← (if mode != 0 then useX o.pool.toNat else pure 0)
  let ring ← (if mode = 2 then useX o.ring.toNat else pure 0)
  let scale ← (if fmt = 5 then useX (field x.pfx 4 6) else pure 0)
  let a := if o.ast = 1 then xa.toNat else xa.toNat % 2 ^ 57
  let b := xb.toNat % 2 ^ 57
  let c : Copy :=
    { id := 0, launch := x.launch, key := some key, core := core, slot := slotOfKey key, cl := clusterOfCore core
      tag := nextTag (s.core core).tag, env := { s.envOf key with mig := x.mig }
      x := sh.x, rows := sh.rows, planes := sh.planes, sr := sh.sr, dr := sh.dr, sp := sh.sp, dp := sh.dp
      src := if mode = 0 then b else if mode = 1 then 0 else a, dst := if mode = 2 then 0 else a, table := b, astage := o.ast == 1, fmt := fmt, scale := scale.toNat % 2 ^ 57
      stream := o.str.toNat, mode := mode, pool := pool.toNat, ring := ring.toNat % 2 ^ 57, bsz := o.bsz.toNat
      follow := if o.fe = 1 then s.followOf key o.fol.toNat else none
      done := if o.cw = 1 then some (xe.toNat % 2 ^ 57, v) else none, bar := bar, next := 0, total := 0, landed := 0, cow := []
      wrote := [], req := none, stopped := false, faulted := false, queueEntry := none, node := none }
  return c

/-- The checks of a copy as a whole (R233, R239, R245). -/
def checkCopy (o : ExC) (w : Word) (c : Copy) : M Unit := do
  if c.fmt = 5 && !kv4Rows c then coproc 0x10 w
  if c.astage && !stageFits c then coproc 4 (BitVec.ofNat 64 c.dst)
  if o.fe = 1 && c.follow.isNone then coproc 8 (o.fol.setWidth 64)
  if c.mode != 0 && c.pool % 128 != 0 then coproc 0x10 (BitVec.ofNat 64 c.pool)

/-- A copy instruction (R236, R238): a prefix stands only before a `cpy` that widens into the A-stage (R99, R239)
(DEDUCED, log entry 37). -/
def copyForm (mode : Nat) (o : ExC) (s : State) : Outcome :=
  outcome (do
    let s ← get
    if !s.mayIssue s.cur then throw (.refuse .noContext)
    let x ← curCtx
    let f := field x.pfx 0 4
    if x.pp && !(mode == 0 && o.ast == 1 && (f == 4 || f == 5)) then fault 11 0 (s.iw.setWidth 64)
    let pc ← nextPc 16
    let c ← readCopy mode o
    checkCopy o (x.xr o.c.toNat) c
    memOrder true
    if s.postsOut s.cur || decide (s.copiesOf c.core ≥ 1024) then heldAgain
    let id ← newId
    modify fun s => enterCopy { c with id := id } (uncover s.cur s)
    modCur fun x => { (x.setX o.d.toNat (c.tag.setWidth 64)) with sr := x.sr &&& ~~~1#64 }
    modify (complete pc (o.yld == 1) o.dly.toNat)) s

/-- `cpy` (R238). -/
def execCpy (o : ExC) (s : State) : Outcome := copyForm 0 o s

/-- `cpyt` (R245). -/
def execCpyt (o : ExC) (s : State) : Outcome := copyForm 1 o s

/-- `cpyt.cow` (R246). -/
def execCpytCow (o : ExC) (s : State) : Outcome := copyForm 2 o s

/-- A copy's state in a table that has counted `issued` copies (R243). -/
def tagState (issued v : Nat) : Nat := if v = 0 ∨ issued - v / 4 ≥ 32768 then 0 else v % 4

/-- The state of the copy that a context names by its tag (R243, R379). -/
def State.copyOf (s : State) (key t : Nat) : Nat :=
  match (s.tablesOf key).find? fun u => Tbl.get 0 u.copies t != 0 with
  | some u => tagState u.issued (Tbl.get 0 u.copies t)
  | none => tagState (s.core (coreOfKey key)).issued (Tbl.get 0 (s.core (coreOfKey key)).copies t)

/-- `cpyq` (R243). -/
def execCpyq (o : ExT) (s : State) : Outcome :=
  extI o.toLow (do
    let t := (← useX o.a.toNat).toNat % 65536
    let s ← get
    writeX o.d (BitVec.ofNat 64 (s.copyOf s.cur t))) s

end Sys2Proof.Machine
end

