-- ==== Sys2Proof/Machine/Traps.lean ====
section
/-!
DEFINITION. Traps at instruction boundaries (01 R28, R43; 11 R413), the return from one with its replays (01 R20, R29, R38),
and rollback (18 R394 to R396).
-/

namespace Sys2Proof.Machine

open Sys2Proof

/-- TRAP_ENTRY (R27, R43): the first due trap of a context is taken. -/
def execTrapEntry (key : Nat) (s : State) : Outcome :=
  event (do
    enabled ((← get).trapDue key)
    modify (takeDue key)) s

/-! ### Replay -/

/-- What a long word of the vector pipeline dispatches, with its own checks (R38, R96). -/
def longVop (opc fn : Nat) (o : Lg) : Option (VOp × (Word → Word → M Unit)) :=
  let m := LgM.ofLg o
  match opc with
  | 0x10 => some (.int fn o, noPre)
  | 0x11 => some (.float fn o, noPre)
  | 0x12 => some (.cmp fn o, noPre)
  | 0x13 => some (.misc fn o, noPre)
  | 0x14 => some (.perm fn o, noPre)
  | 0x15 => some (.cvt fn o, noPre)
  | 0x16 => some (.red fn o, noPre)
  | 0x17 => some (.quant fn m, if fn = 0 then quantRoom m else if fn = 2 then vbaqPlace m else noPre)
  | 0x20 => some (.load fn m, noPre)
  | 0x21 => some (.store fn m, if fn = 3 then noPre else streamRoom m)
  | _ => none

/-- What an extended word of the vector or matrix pipeline dispatches in a core (R38, R97). -/
def extVop (s : State) (core opc fn : Nat) (lo : Low) (tail : BitVec 64) : Option (VOp × (Word → Word → M Unit)) :=
  let t := ExT.ofTail lo tail
  let m := ExM.ofTail lo tail
  match opc with
  | 0x10 => some (.expr (.ofTail lo tail), noPre)
  | 0x20 =>
    if fn = 0 then some (.acted true 0 none, claimTiles t)
    else if fn = 1 then some (.acted true 0 none, releaseTiles t)
    else some (.macz t, noPre)
  | 0x21 => some (if fn = 0 then .mld m else .wload m, noPre)
  | 0x22 => some (.mma m, noPre)
  | 0x23 => some (.mseq m, noPre)
  | 0x24 => some (if fn = 0 then .macrd m else .macwr m, noPre)
  | 0x25 => some (.acted true m.aoff.toNat (followFault s core m), registerFollow m)
  | _ => none

/-- The instruction of a recorded word (R38). -/
def replayOp (s : State) (core : Nat) (w : BitVec 128) : Option (VOp × (Word → Word → M Unit)) :=
  match checkRaw w with
  | .ok (.long opc fn o) => longVop opc.toNat fn.toNat o
  | .ok (.ext opc fn lo tail) => extVop s core opc.toNat fn.toNat lo tail
  | _ => none

/-- Whether an instruction in flight is one that a check refused when it was dispatched again (R38). -/
def VOp.refused : VOp → Bool
  | .acted _ _ (some _) => true
  | _ => false

/-- Whether a replay of the `eret` under way has faulted, so that those after it are cancelled (R38). -/
def Ctx.replayFaulted (c : Ctx) : Bool :=
  match c.replayFrom with
  | none => false
  | some q =>
    let mine := fun (n : BitVec 16) => decide ((n - q).toNat < (c.drseq - q).toNat)
    (c.due.any fun t => t.kind == .imprecise && !t.tag && mine t.seq) || c.pend.any fun p => p.op.refused && mine p.seq

/-- A cancelled replay has its own number and entry (R38). -/
def cancelledReplay (key : Nat) (old : RingEnt) (s : State) : State :=
  s.modCtx key fun c =>
    let e : RingEnt := { old with used := true, seq := c.drseq, can := true, flt := false, done := false }
    { c with ring := Tbl.set {} c.ring (c.drseq.toNat % 64) e, drseq := c.drseq + 1 }

/-- One entry is dispatched again at privilege `priv` (R38): its recorded operands and prefix stand in the place of the
registers; a check that fails makes it an instruction in flight that faults (DEDUCED, log entry 38). -/
def replayOne (priv : Nat) (old : RingEnt) : M Unit := do
  let s ← get
  let key := s.cur
  let c := s.ctx key
  match replayOp s (coreOfKey key) old.w with
  | none => pure ()
  | some (op, pre) =>
    if c.ringFull then heldAgain
    else if c.replayFaulted then modify (cancelledReplay key old)
    else
      let pfx : Option Word := if old.pfxp then some (old.pfxv.setWidth 64) else none
      let bad := fun (t : Trap) => recordPend key (.acted op.isMatrix (((op.recorded pfx).1).getD 0) (some t)) old.w old.pc pfx
        old.dra old.drb [] priv
      match dispatchFault c pfx op with
      | some (code, sub) => modify (bad (asyncTrap code sub (old.w.setWidth 64)))
      | none =>
        match (dispatchWith op pfx old.dra old.drb old.w old.pc priv pre).run { s with iw := old.w } with
        | .ok _ s' => set s'
        | .error (.trap t) _ => modify (bad t)
        | .error _ _ => heldAgain

/-- The queued entries are dispatched again in order (R38); a wait keeps those that have been
(DEDUCED, log entry 38). -/
def replayAll (priv : Nat) : List RingEnt → M Unit
  | [] => return ()
  | e :: es => do
    replayOne priv e
    modCur fun c => { c with replay := es }
    replayAll priv es

/-! ### The return from a trap -/

/-- The SR that `eret` restores: ESR, with CTX, DET, MIG and VS kept and the reserved bits 0 (R22, R29). -/
def returnSr (c : Ctx) : Word := (c.sr &&& 0xFF0380#64) ||| (c.esr &&& 0xC7F#64)

/-- Lanes that its trap took away are claimed back and refilled, so that the context has the same lanes again with the same
contents (R20): what a renegotiation has given it since counts toward them. The answer says whether the launch goes on
(DEDUCED, log entry 25). -/
def reclaim : M Bool := do
  let s ← get
  let key := s.cur
  let c := s.ctx key
  if c.spilled = 0 then return true
  else if c.spillDue ||
      decide (s.freeGroups (clusterOfCore (coreOfKey key)) < c.spillBase + c.spilled - c.grant) then throw (.hold .reclaim false)
  else
    let s := s.setCtx key { (c.setGrant (max c.grant (c.spillBase + c.spilled))).settle with spilled := 0, spillBase := 0 }
    match (refillLanes key (32 * c.spillBase) (32 * c.spilled)).run s with
    | .ok _ s' =>
      set s'
      return true
    | .error (.trap t) s' =>
      set (saveFail c.launch (t.at'.setWidth 64) s')
      return false
    | .error _ s' =>
      modify fun s => keepMisses s s'
      heldAgain

/-- The freeze that a trap in a level update laid on its launch is lifted (R332). -/
def liftFreeze (key : Nat) (s : State) : State :=
  let c := s.ctx key
  if c.ecause.getLsbD 35 then
    s.modLaunch c.launch fun u =>
      let left := u.freezes.erase key
      { u with freezes := left, st := if u.st == .frozen && left.isEmpty && !u.stalled then .running else u.st }
  else s

/-- A member whose rollback is due and has not been made (R394). -/
def Ctx.rollsBack (c : Ctx) : Bool := c.rolling && c.rollDue

/-- The members that a rollback holds are released at the `eret` of the one that trapped (R394). -/
def releaseTeam (key : Nat) (s : State) : State :=
  match s.teamOf key with
  | none => s
  | some g =>
    let others := (s.teamMembers (s.ctx key).launch g).filter (· != key)
    if (s.ctx key).rolling || !others.all fun k => (s.ctx k).rolling && !(s.ctx k).rollsBack then s
    else others.foldl (fun s k => s.modCtx k fun c =>
      { c with rolling := false, st := if c.st == .held then .ready else c.st
               saved := if c.saved == .held then .ready else c.saved }) s

/-- `eret` (01 R29): the lanes come back, the queued entries are dispatched again, and the context goes on at EPC with the
status that the trap saved (DEDUCED, log entry 25). -/
def execEret (_ : Sh) (s : State) : Outcome :=
  outcome (instr false 0 (do
    privileged
    let c ← curCtx
    if field c.esr 10 2 > 1 then reserved
    if ← reclaim then
      let key ← curKey
      let c ← curCtx
      let sr := returnSr c
      modCur fun c => { c with replayFrom := some (c.replayFrom.getD c.drseq) }
      replayAll (field sr 10 2) c.replay
      modify fun s =>
        releaseTeam key (liftFreeze key (s.modCtx key fun c => { c with sr := sr, replayFrom := none, rolled := false }))
    return c.epc)) s

/-! ### Rollback -/

/-- Undo entries are written back, newest first (R394) (DEDUCED, log entry 39). -/
def undoAll : List Undo → State → State
  | [], s => s
  | u :: us, s =>
    undoAll us (((logWrite u.place 8 s).setBytes u.place u.bytes).setMarks u.place u.marks)

/-- The undo entries of a team in a cluster are written back and leave the log. -/
def undoCluster (l : Nat) (g : Nat) (cl : Nat) (s : State) : State :=
  let mine := fun (u : Undo) => u.launch == l && u.team == g
  (undoAll ((s.cluster cl).undo.filter mine) s).modCluster cl fun c => { c with undo := c.undo.filter fun u => !mine u }

/-- One member goes back to its checkpoint (R394): its instructions in flight are cancelled, its lanes and slices are
zeroed, its ring is emptied, and only its asynchronous traps stay (DEDUCED, log entries 25 and 39). -/
def restoreMember (l : Nat) (g : Group) (key : Nat) (s : State) : State :=
  let s := abandonWait key s
  let cl := clusterOfCore (coreOfKey key)
  let s := { s with wreqs := s.wreqs.filter (·.key != key) }
  let s := s.modCluster cl fun c => { c with queue := c.queue.filter fun m => !(m.key == key && m.cmd.isNone) }
  let s := if (s.core (coreOfKey key)).stopped = some key then s.modCore (coreOfKey key) fun k => { k with stopped := none } else s
  let c := s.ctx key
  let k : Check := c.check.getD (c.checkpoint 0)
  let s := s.setCtx key
    { c with pc := k.pc, x := k.x, xp := k.xp, sr := k.sr, pfx := k.pfx, v := [], vp := [], sl := [], slp := [], ring := []
             pend := [], barw := [], rollDue := false, fetched := none, replay := [], replayFrom := none, due := c.due.filter fun t => t.kind == .async, barred := none, spilled := 0
             spillBase := 0, spillDue := false, st := .held, wait := .none, rolling := true }
  match s.roleOf key g with
  | some r => s.modLaunch l fun u => { u with arrivals := Tbl.set 0 u.arrivals (bindKey g.g r) k.arrivals }
  | none => s

/-- Whether a vacate or a switch of a launch is in progress, which a rollback waits for (R396). -/
def State.preempted (s : State) (l : Nat) : Bool :=
  let q := (s.launch l).q
  let n := fun (u : Queue) (off k : Nat) => leNat ((u.entry.drop off).take k)
  (s.queue q).st == .switchingOut || (s.queue q).st == .switchingIn ||
    s.queues.any fun p => p.2.st == .running && p.2.started && !p.2.closing && n p.2 0 1 == 5 && n p.2 0x10 8 == q

/-- Whether every member stands at an instruction boundary where a rollback can stop it (R394, R396). -/
def State.membersStopped (s : State) (key : Nat) (g : Group) : Bool :=
  (s.teamMembers (s.ctx key).launch g).all fun k =>
    (s.ctx k).st != .absent && (k == key || (((s.ctx k).priv == 0 || (s.ctx k).rolling) && !s.accessWaits k))

/-- The report of R395. -/
def rollbackFail (key : Nat) (f : Trap) (reason : Nat) (s : State) : State :=
  let c := s.ctx key
  endLaunch (s.launch c.launch).q
    { status := 10, code := f.code.toNat, sub := f.sub.toNat, a := c.epc.setWidth 64, b := BitVec.ofNat 64 reason
      core := coreOfKey key, ctx := slotOfKey key } s

/-- A trap that was kept aside for a rollback which was not made is taken (R394). -/
def takeAside (key : Nat) (s : State) : State :=
  let c := s.ctx key
  match c.due with
  | t :: ts =>
    if c.live && c.rolling && !c.rollDue && (t.kind == .precise || t.kind == .after) then
      takeTrap key c.pc c.pc t ((abandonWait key s).modCtx key fun c => { c with rolling := false, due := ts, st := .ready, wait := .none })
    else s
  | [] => s

/-- A rollback of a team for the trap `f` of a member (R394) (DEDUCED, log entry 39). -/
def rollTeam (key : Nat) (g : Group) (f : Trap) (s : State) : State :=
  let l := (s.ctx key).launch
  let ms := s.teamMembers l g
  let epc := (s.ctx key).epc
  if (s.launch l).uncovered.contains g.g then
    let s := takeTrap key epc (s.ctx key).pc f ((abandonWait key s).modCtx key fun c =>
      { c with rolling := false, rollDue := false, due := c.due.erase f, st := .ready, wait := .none })
    ms.foldl (fun s k => takeAside k s) s
  else if ms.any fun k => (s.die (dieOfCore (coreOfKey k))).dead then rollbackFail key f 2 s
  else if s.clusters.any fun c => c.2.ovf.contains (l, g.g) then rollbackFail key f 1 s
  else
    let s := s.modCtx key fun c => { c with due := c.due.erase f }
    let s := (s.clusters.map (·.1)).foldl (fun s cl => undoCluster l g.g cl s) s
    let s := ms.foldl (fun s k => restoreMember l g k s) s
    let s := s.modCtx key fun c => { c with rolling := false, rollDue := false, rolled := true, st := .ready }
    enterTrap key (s.ctx key).pc f s

/-- ROLLBACK (18 R394) (DEDUCED, log entry 39). -/
def execRollback (key : Nat) (s : State) : Outcome :=
  event (do
    let s ← get
    let c := s.ctx key
    match s.teamOf key, c.due with
    | some g, f :: _ =>
      enabled (c.rollsBack && !s.preempted c.launch && s.membersStopped key g)
      set (rollTeam key g f s)
    | _, _ => enabled false) s

end Sys2Proof.Machine
end

