-- ==== Sys2Proof/Machine/Gateway.lean ====
section
/-!
DEFINITION. The gateway queue (08 R255; 11 R335 to R337): takes, counts, and the timeout of a take.
-/

namespace Sys2Proof.Machine

open Sys2Proof

/-- The gateway queue is accepted on gateway cores only (R255). -/
def onGateway : M Nat := do
  let core := coreOfKey (← curKey)
  if gatewayCore core then return core else illegal

/-- The block that a take returns, if it is there: the next expected one in a deterministic launch, else the oldest ready
one (R337). -/
def Core.nextBlock (k : Core) (det : Bool) : Option Nat :=
  if det then if Tbl.get 0 k.gready k.gnext != 0 then some k.gnext else none
  else k.gqueue.head?

/-- Blocks that are ready and have no queue entry take the free ones, in ascending index (R337). -/
def Core.refillQueue (k : Core) : Core :=
  let waiting := (k.gready.map (·.1)).filter fun b => !k.gqueue.contains b
  { k with gqueue := k.gqueue ++ waiting.take (256 - k.gqueue.length) }

/-- A block is taken: its READY bit and its count are cleared (R336, R337). -/
def Core.takeBlock (k : Core) (det : Bool) (b : Nat) : Core :=
  let nblk := field k.gwrx 32 16
  let next := if k.gnext + 1 ≥ nblk then 0 else k.gnext + 1
  { k with gready := Tbl.set 0 k.gready b 0
           gcount := Tbl.set 0 k.gcount b 0
           gqueue := k.gqueue.filter (· != b)
           gnext := if det then next else k.gnext }.refillQueue

/-- `gwq` with IMM 0 (R255): a block, or a wait of up to x[a] clocks. A waiting take is Held; a trap abandons it with no
effect, and it counts its clocks anew when it runs again (DESIGN CHOICE, log entry 59). -/
def execGwqTake (o : ExT) (s : State) : Outcome :=
  extT o (do
    let core ← onGateway
    let n ← useX o.a.toNat
    let c ← curCtx
    let s ← get
    let k := s.core core
    match k.nextBlock c.det with
    | some b =>
      let dev := Tbl.get 0 k.gready b - 1
      modify fun s => s.modCore core fun k => k.takeBlock c.det b
      writeX o.d (BitVec.ofNat 64 (b + dev * 2 ^ 32))
    | none =>
      if n = 0 then writeX o.d (BitVec.allOnes 64)
      else
        match c.wait with
        | .gateway _ u _ _ => throw (.hold (.gateway o.d u (o.yld == 1) o.dly.toNat) false)
        | _ => throw (.hold (.gateway o.d (s.clock + n.toNat) (o.yld == 1) o.dly.toNat) false)) s

/-- `gwq` with IMM 1 (R255, R337). -/
def execGwqCount (o : ExT) (s : State) : Outcome :=
  extT o (do
    let core ← onGateway
    writeX o.d (BitVec.ofNat 64 ((← get).core core).gready.length)) s

/-- GWQ_TAKE_TIMEOUT (R255): a take that has waited its clocks returns all ones, where no block is there for it or about to be
(DESIGN CHOICE, log entries 1 and 59). -/
def execGwqTakeTimeout (key : Nat) (s : State) : Outcome :=
  event (do
    let s ← get
    let c := s.ctx key
    match c.wait with
    | .gateway rd u yld dly =>
      let k := s.core (coreOfKey key)
      enabled (c.live && c.st != .migrating && decide (u ≤ s.clock) && k.gdone.isEmpty && (k.nextBlock c.det).isNone)
      modify (completeWith key { len := 16, yld := yld, dly := dly } none none fun c => c.setX rd.toNat (BitVec.allOnes 64))
    | _ => enabled false) s

end Sys2Proof.Machine
end

