-- ==== Sys2Proof/Machine/Coherence.lean ====
section
/-!
DEFINITION. Coherence between dies (09 R271 to R276; 15 R349, R350), and the links between dies (18 R399 to R401). An access
performs the request that it needs in its own step (Machine/Caches.lean); the events here are the requests that the dies send
otherwise, message by message.
-/

namespace Sys2Proof.Machine

open Sys2Proof

/-! ### Links -/

/-- Whether a link carries messages (R399): it is Active, or the die is itself (DEDUCED, log entry 40). -/
def State.linkUp (s : State) (d n : Nat) : Bool := d == n || linkState d n (s.link d n).st == 0

/-- A request that needs a sleeping link wakes it (R400) (DEDUCED, log entry 40). -/
def needLink (d n : Nat) (s : State) : State :=
  if d != n && (s.link d n).st == 1 then modLinks d n (fun k => { k with st := 2 }) s else s

/-! ### Requests at the home -/

/-- A message in flight (R272). -/
def Msg.is (m : Msg) (kind die line : Nat) : Bool := m.kind == kind && m.die == die && m.line == line

/-- Messages of one kind to several dies; a sleeping link wakes for them. -/
def sendAll (home kind line : Nat) (dies : List Nat) (s : State) : State :=
  dies.foldl (fun s d =>
    let s := needLink home d s
    { s with msgs := s.msgs ++ [{ kind := kind, die := d, line := line, dirty := false }] }) s

/-- One message is taken out of flight. -/
def takeMsg (kind die line : Nat) : M Msg := do
  let s ← get
  match s.msgs.find? fun m => m.is kind die line with
  | none => throw (.refuse .notEnabled)
  | some m =>
    set { s with msgs := s.msgs.erase m }
    return m

/-- The request of a line changed. -/
def modReqOf (line : Nat) (f : Req → Req) (s : State) : State :=
  { s with reqs := s.reqs.map fun r => if r.line == line then f r else r }

/-- The host as one of the holders whose answer an eviction awaits: its BIRsp (R307). -/
def hostHolder : Nat := 6

/-- Messages of one kind with the line's bytes to several dies (R272). -/
def sendData (home line : Nat) (dies : List Nat) (s : State) : State :=
  dies.foldl (fun s d =>
    let s := needLink home d s
    { s with msgs := s.msgs ++ [{ kind := 4, die := d, line := line, dirty := false, data := s.bytes line 128 }] }) s

/-- The home needs an entry in a full set for a request, which waits with its entries in the queues: it sends BInv to the
holders of the victim, and BISnp to the host (R274, R307, R347, R350). -/
def startEviction (kind die home line : Nat) : M Unit := do
  let s ← get
  match s.filterVictim line with
  | none => throw (.refuse .notEnabled)
  | some v =>
    let hs := (s.dirOf v).holders
    let all := hs ++ (if (s.dirOf v).hosted then [hostHolder] else [])
    enabled (!all.isEmpty && !s.lineBusy v && !s.reqs.any fun r => r.kind == 3 && s.filterSet r.line == s.filterSet line)
    modify fun s =>
      let s := askHost true v (acceptBoth (some die) line s)
      let r : Req := { die := home, line := v, kind := 3, acks := all, kept := none, data := false, waits := some (kind, die, line) }
      sendAll home 5 v hs { s with reqs := s.reqs ++ [r] }

/-- The home starts RdS (0), RdX (1) or Upg (2): the queues of the slices have counted it, and its entry is used (R272, R348,
R350). A line in I has its entry from here on (R271). -/
def startRequest (kind die home line : Nat) (s : State) : State :=
  let s := startAtHome die true line s
  let e := s.dirOf line
  let s := if e.live then s else setDir line { e with owner := some die } s
  let r : Req := { die := die, line := line, kind := kind, acks := [], kept := none, data := true }
  if kind = 0 then
    match e.owner with
    | none =>
      let alone := e.sharers.isEmpty && !e.hosted && !s.lineWatched line
      let e := if alone then { e with owner := some die } else { e with sharers := e.sharers ++ [die] }
      sendData home line [die] { (setDir line e s) with reqs := s.reqs ++ [r] }
    | some o => sendAll home 0 line [o] { s with reqs := s.reqs ++ [{ r with acks := [o] }] }
  else
    let upgrade := kind == 2 && e.holders.contains die
    let others := e.holders.filter (· != die)
    let fwd := if upgrade then [] else (e.owner.toList).filter (· != die)
    let s := { s with reqs := s.reqs ++ [{ r with kind := if upgrade then 2 else 1, acks := others }] }
    let s := sendAll home 1 line fwd (sendAll home 2 line (others.filter fun d => !fwd.contains d) s)
    if others.isEmpty then (if upgrade then sendAll home 4 line [die] s else sendData home line [die] s) else s

/-- Whether a die may make a request to a line, apart from the link and the snoop filter (R269, R273, R285, R307, R349). -/
def State.mayRequest (s : State) (kind die line : Nat) : Bool :=
  let st := s.dieLine die line
  let e := s.dirOf line
  decide (die < 4) && line % 128 == 0 && !(s.die die).dead && !s.lostPhys line && !s.lineBusy line &&
    s.queuesOpen (some die) line &&
    (if kind = 2 then st == 1 || st == 3 || st == 0 else st == 0) && Tbl.get 0 (s.die die).wbuf line == 0 &&
    (kind == 2 || !e.holders.contains die) && (if kind = 0 then !e.hostOwned else !e.hosted && !s.lineWatched line)

/-- A request of a die reaches the home (R272 to R274, R349). -/
def request' (kind die line : Nat) : M Unit := do
  let s ← get
  match homeDie line with
  | none => throw (.refuse .notEnabled)
  | some home =>
    enabled (s.mayRequest kind die line)
    if !s.linkUp die home then
      enabled ((s.link die home).st == 1)
      modify (needLink die home)
    else if s.filterFull line then startEviction kind die home line
    else modify fun s => startRequest kind die home line (acceptBoth (some die) line s)

/-- RDS (R272) (DEDUCED, log entry 9). -/
def execRds (die line : Nat) (s : State) : Outcome := event (request' 0 die line) s

/-- RDX (R272) (DEDUCED, log entry 9). -/
def execRdx (die line : Nat) (s : State) : Outcome := event (request' 1 die line) s

/-- UPG (R272) (DEDUCED, log entry 9). -/
def execUpg (die line : Nat) (s : State) : Outcome := event (request' 2 die line) s

/-- The request that waited for an eviction, counted at its start, goes on if its die still needs it (R348, R350). -/
def resumeRequest (w : Nat × Nat × Nat) (s : State) : State :=
  let (kind, die, line) := w
  match homeDie line with
  | none => s
  | some home => if s.mayRequest kind die line && !s.filterFull line then startRequest kind die home line s else s

/-- A request is over: its entry takes the state of R272. A line that has come under a line-watch unit meanwhile is granted
in S (R285). -/
def finishRequest (r : Req) (s : State) : State :=
  let e := s.dirOf r.line
  let s := { s with reqs := s.reqs.filter (·.line != r.line) }
  match r.kind with
  | 0 =>
    if e.owner = none then s
    else if e.owner = some r.die then
      if s.lineWatched r.line then setDir r.line { e with owner := none, sharers := e.sharers ++ [r.die] } s else s
    else
      match r.kept with
      | some o => setDir r.line { e with owner := some o, sharers := (e.sharers.filter (· != r.die)) ++ [r.die] } s
      | none => setDir r.line { e with owner := none, sharers := (e.holders.filter (· != r.die)) ++ [r.die] } s
  | 3 => (r.waits.map resumeRequest).getD id (setDir r.line {} s)
  | _ =>
    if s.lineWatched r.line then setDir r.line { e with owner := none, sharers := [r.die] } s
    else setDir r.line { e with owner := some r.die, sharers := [] } s

/-- The requests of a line that have every answer and their data are over. -/
def settleRequest (line : Nat) (s : State) : State :=
  match s.reqs.find? fun r => r.line == line && r.acks.isEmpty && !r.data with
  | some r => finishRequest r s
  | none => s

/-- The state in which a die holds a line once its data has come (R272, R285). -/
def State.grants (s : State) (die line : Nat) : Nat :=
  if s.lineWatched line then 1
  else
    match s.reqs.find? (·.line == line) with
    | some r => if r.kind = 0 then (if (s.dirOf line).owner = some die then 2 else 1) else 4
    | none => 1

/-- DATA (R272): the requester holds the line, with the bytes that came or those that it has. -/
def execData (die line : Nat) (s : State) : Outcome :=
  event (do
    let _ ← takeMsg 4 die line
    modify fun s =>
      let st := s.grants die line
      let s := if st = 4 then dirtyLine line s else s
      let s := if s.dieLine die line = 0 then roomL2 die line s else s
      settleRequest line (modReqOf line (fun r => { r with data := false }) (setDieLine die line st s))) s

/-- A snoop at a die (R273, R275, R276): it waits for a tile that pins the line and for the link; what the die holds of the
line, in its write-back buffer where it has been evicted. -/
def snoop (kind die line : Nat) : M (Nat × Bool) := do
  let s ← get
  enabled (s.linkUp ((homeDie line).getD die) die && !s.tileHolds line && !(s.die die).dead)
  let _ ← takeMsg kind die line
  let b := Tbl.get 0 (s.die die).wbuf line
  return if b != 0 then (b, true) else (s.dieLine die line, false)

/-- FWDS (R272, R273): the owner sends its data to the reader. -/
def execFwds (die line : Nat) (s : State) : Outcome :=
  event (do
    let (st, buffered) ← snoop 0 die line
    let dirty := !buffered && decide (st ≥ 3)
    modify fun s =>
      let s := if buffered then s else setDieLine die line (if st = 4 then 3 else if st = 2 then 1 else st) s
      let req := ((s.reqs.find? (·.line == line)).map (·.die)).getD die
      { s with msgs := s.msgs ++ [{ kind := 4, die := req, line := line, dirty := false, data := s.bytes line 128 }
                                  , { kind := 3, die := die, line := line, dirty := dirty }] }) s

/-- FWDX (R272, R273): the owner sends its data to the new owner and drops the line. -/
def execFwdx (die line : Nat) (s : State) : Outcome :=
  event (do
    let _ ← snoop 1 die line
    modify fun s =>
      let s := setDieLine die line 0 s
      let req := ((s.reqs.find? (·.line == line)).map (·.die)).getD die
      { s with msgs := s.msgs ++ [{ kind := 4, die := req, line := line, dirty := false, data := s.bytes line 128 }
                                  , { kind := 3, die := die, line := line, dirty := false }] }) s

/-- INV (R272): a holder drops the line. -/
def execInv (die line : Nat) (s : State) : Outcome :=
  event (do
    let _ ← snoop 2 die line
    modify fun s =>
      let s := setDieLine die line 0 s
      { s with msgs := s.msgs ++ [{ kind := 3, die := die, line := line, dirty := false }] }) s

/-- An answer reaches the home: once all have, a new owner that nobody forwards to has its grant (R272). -/
def answered (m : Msg) (s : State) : State :=
  let s := modReqOf m.line (fun r =>
    { r with acks := r.acks.filter (· != m.die), kept := if m.dirty then some m.die else r.kept }) s
  match s.reqs.find? (·.line == m.line) with
  | none => s
  | some r =>
    let granted := (s.msgs.any fun q => q.kind == 4 && q.line == m.line) || !r.data
    if r.acks.isEmpty && r.data && !granted then
      let home := (homeDie m.line).getD r.die
      if r.kind = 2 then sendAll home 4 m.line [r.die] s else sendData home m.line [r.die] s
    else settleRequest m.line s

/-- INVACK (R272). -/
def execInvack (die line : Nat) (s : State) : Outcome :=
  event (do
    let m ← takeMsg 3 die line
    modify (answered m)) s

/-- BINV (R274) (DEDUCED, log entry 9). -/
def execBinv (die line : Nat) (s : State) : Outcome :=
  event (do
    let (st, _) ← snoop 5 die line
    modify fun s =>
      let s := setDieLine die line 0 s
      let data := if st ≥ 3 then s.bytes line 128 else []
      { s with msgs := s.msgs ++ [{ kind := 6, die := die, line := line, dirty := decide (st ≥ 3), data := data }] }) s

/-- BINVACK (R274): its data goes to memory, and the entry is free once every holder has answered. -/
def execBinvack (die line : Nat) (s : State) : Outcome :=
  event (do
    let m ← takeMsg 6 die line
    modify fun s => answered { m with dirty := false } (if m.data.isEmpty then s else cleanLine line s)) s

/-- WB (R272, R273): a die gives up a line. Where the home performs a request to it, the line lies in the die's write-back
buffer until then; the home discards the write-back of a die that no longer holds the line. -/
def execWb (die line : Nat) (s : State) : Outcome :=
  event (do
    let s ← get
    let st := s.dieLine die line
    let b := Tbl.get 0 (s.die die).wbuf line
    enabled (decide (die < 4) && line % 128 == 0 && !(s.die die).dead && !s.tileHolds line)
    let away := fun (s : State) => setDieLine die line 0 s
    match s.reqs.find? (·.line == line) with
    | some r =>
      enabled (st != 0 && b == 0 && r.die != die)
      modify fun s => (away s).modDie die fun k => { k with wbuf := Tbl.set 0 k.wbuf line st }
    | none =>
      enabled ((st != 0 || b != 0) && s.linkUp die ((homeDie line).getD die) && s.queuesOpen none line)
      modify fun s =>
        let s := backAtHome line s
        let e := s.dirOf line
        let dirty := e.holders.contains die && decide (max st b ≥ 3)
        let e := { e with owner := e.owner.filter (· != die), sharers := e.sharers.filter (· != die) }
        let s := (away s).modDie die fun k => { k with wbuf := Tbl.set 0 k.wbuf line 0 }
        setDir line (if e.live then e else {}) (if dirty then cleanLine line s else s)) s

/-! ### A die that does not answer -/

/-- A line that a lost die held in M or O is written to memory marked (R401). -/
def markLost (line : Nat) (s : State) : State := cleanLine line (s.setMarks line (List.replicate 128 (markOf line true)))

/-- The lines of a lost die (R401): what it held dirty is lost. -/
def loseLines (d : Nat) (s : State) : State :=
  let s := (s.die d).lines.foldl (fun s p => if p.2 ≥ 3 then markLost p.1 s else s) s
  let s := (s.die d).wbuf.foldl (fun s p => if p.2 ≥ 3 then markLost p.1 s else s) s
  let gone := s.dir.map fun p =>
    (p.1, { p.2 with owner := p.2.owner.filter (· != d), sharers := p.2.sharers.filter (· != d) })
  let empty := fun (p : Nat × Core) => (p.1, if dieOfCore p.1 = d then { p.2 with l1 := [] } else p.2)
  let drain := fun (p : Nat × Cluster) => (p.1, if dieOfCluster p.1 = d then { p.2 with pool := [] } else p.2)
  { (s.modDie d fun k => { k with lines := [], wbuf := [] }) with
    dir := gone.filter (·.2.live), cores := s.cores.map empty, clusters := s.clusters.map drain }

/-- Messages of a lost die (R401): a snoop to it counts as answered without data, and a reader whose data it would have
sent has it from memory. What it asked for is dropped. -/
def loseMessages (d : Nat) (s : State) : State :=
  let own := fun (line : Nat) => homeDie line == some d || s.reqs.any fun r => r.line == line && r.die == d && r.kind != 3
  let left := s.msgs.filter fun m => !own m.line
  let msgs := left.flatMap fun m =>
    if m.die != d || m.kind == 4 then [m]
    else
      let ack : Msg := { kind := if m.kind ≥ 5 then 6 else 3, die := d, line := m.line, dirty := false }
      if m.kind ≤ 1 then
        match s.reqs.find? (·.line == m.line) with
        | some r => [{ kind := 4, die := r.die, line := m.line, dirty := false }, ack]
        | none => [ack]
      else [ack]
  { s with msgs := msgs, reqs := s.reqs.filter fun r => !own r.line }

/-- The host holds nothing more of a line: an eviction that waited for its BIRsp goes on (R274, R307). -/
def hostAnswered (line : Nat) (s : State) : State :=
  if (s.dirOf line).hosted then s else answered { kind := 6, die := hostHolder, line := line, dirty := false } s

/-- What the host held of a line is lost with its attachment: the halves that it owned are marked (R401). -/
def loseHosted (line : Nat) (e : Dir) (s : State) : State :=
  let half := fun (o : Nat) (h : HostTake) (s : State) =>
    if h == .owned then s.setMarks (line + o) (List.replicate 64 (markOf (line + o) true)) else s
  let e' := { e with host := .none, upper := .none }
  hostAnswered line (setDir line (if e'.live then e' else {}) (half 0 e.host (half 64 e.upper s)))

/-- The host attachment is lost with M0 (R401): what the host owned of HBM is marked, and no BIRsp is awaited
(DEDUCED, log entry 41). -/
def loseAttachment (s : State) : State :=
  (s.dir.filter (·.2.hosted)).foldl (fun s p => loseHosted p.1 p.2 s) { s with snoops := [] }

/-- The requests of a lost die, and those for lines that are lost, wait in no queue any more (R401). -/
def loseMisses (d : Nat) (s : State) : State :=
  { s with misses := s.misses.filter fun m => m.via.die != some d && !s.lostPhys m.line }

/-- Whether the place of a posted store is lost with a die: host memory with M0 (R401). -/
def State.postLost (s : State) (p : Post) : Bool :=
  p.st != .committed && p.st != .lost && decide (2048 ≤ p.dest) &&
    (if p.dest = hostDest then (s.die 4).dead
     else (s.die (p.dest - 2048)).dead || (p.marker.isNone && decide (p.place < 2 ^ 52) && s.lostPhys p.place))

/-- A posted store to a lost place is not performed (R401): its context takes UncorrectableData, or its copy faults; a marker
is gone (DEDUCED, log entry 41). -/
def losePost (p : Post) (s : State) : State :=
  let s := if p.st == .sent && p.dest != hostDest then
      modStream p.core p.stream p.dest (fun k => { k with unacked := k.unacked - 1 }) s else s
  let s := { s with posts := s.posts.filter (·.id != p.id) }
  let at' := if p.place < 2 ^ 52 then BitVec.ofNat 64 (lineOf p.place) else Config.freeLine p.place
  let t := asyncTrap 23 0xFE at'
  if p.marker.isSome then s
  else
    match p.copy with
    | none => raise p.key t s
    | some id =>
      lineLanded id 0 (match s.copies.find? (·.id == id) with
        | some c => if c.stopped then s else copyFault c { t with at' := p.va } s
        | none => s)

/-- The posted stores to lost places (R401). -/
def losePosts (s : State) : State := (s.posts.filter s.postLost).foldl (fun s p => losePost p s) s

/-- Each launch with a core on a lost die ends (R401): with RollbackFail where a rollback of a team with a member there is
due (R394), else with a fault (DEDUCED, log entry 41). -/
def loseLaunch (d l : Nat) (s : State) : State :=
  let u := s.launch l
  if u.active && u.cores.any fun k => dieOfCore k == d then
    let due := (s.launchCtxs l).find? fun k => (s.ctx k).rollsBack && match s.teamOf k with
      | some g => (s.teamMembers l g).any fun j => dieOfCore (coreOfKey j) == d
      | none => false
    match due.bind fun k => (s.ctx k).due.head?.map fun t => (k, t) with
    | some (k, t) => rollbackFail k t 2 s
    | none => endLaunch u.q { status := 1, code := 24, b := BitVec.ofNat 64 d } s
  else s

/-- A die is declared Unresponsive (R400, R401): the entries whose copies its engines run end too (DEDUCED, log entry 41). -/
def declareDead (d : Nat) (s : State) : State :=
  let s := (List.range 4).foldl (fun s h => if h = d then s else modLink h d (fun k => { k with st := 4, retry := 3 }) s) s
  let s := loseMisses d (loseMessages d (loseLines d (s.modDie d fun k => { k with dead := true })))
  let s := losePosts (if d = 4 then loseAttachment s else s)
  let s := (s.launches.map (·.1)).foldl (fun s l => loseLaunch d l s) s
  let s := (s.copies.filter fun c => dieOfCluster c.cl == d).foldl (fun s c =>
    match c.queueEntry with
    | some q => endLaunch q { status := 1, code := 24, b := BitVec.ofNat 64 d } s
    | none => s) s
  let s := (s.ctxs.map (·.1)).foldl (fun s k => raise k (asyncTrap 24 0 (BitVec.ofNat 64 d)) s) s
  logError (BitVec.ofNat 32 (d * 2 ^ 25)) 5 0 s

/-- Whether a die waits for the answer of another (R400): a snoop of a home to a compute die, or a request to the memory die
that it joins. -/
def State.awaits (s : State) (die peer : Nat) : Bool :=
  if peer < 4 then
    die != peer && s.msgs.any fun m =>
      m.die == peer && (m.kind ≤ 2 || m.kind == 5) && homeDie m.line == some die
  else decide (peer < 6) && linkState die peer 0 == 0

/-- SNOOP_TIMEOUT (R400): an unanswered snoop starts a retrain (DEDUCED, log entry 40). -/
def execSnoopTimeout (die peer : Nat) (s : State) : Outcome :=
  event (do
    let s ← get
    enabled (decide (die < 4) && !(s.die die).dead && !(s.die peer).dead && s.awaits die peer && decide ((s.link die peer).st ≤ 2))
    modify (modLinks die peer fun k => { k with st := 3 })) s

/-- LINK_RETRAIN_DONE (R400, R406): a successful retrain sends again what is unanswered; the third failure declares the die
Unresponsive (DEDUCED, log entry 40). -/
def execLinkRetrainDone (die peer : Nat) (ok : Bool) (s : State) : Outcome :=
  event (do
    let s ← get
    enabled (decide (die < 4 ∧ peer < 6) && (s.link die peer).st == 3)
    if ok then
      modify (activateAll (laneOfLink die peer))
      let n := ((← get).repair.filter fun r => laneOfLink die peer r.unit && r.act).length
      modify (modLinks die peer fun k => { k with st := 0, retry := 0, spare := min 2 n })
    else
      let n := (s.link die peer).retry + 1
      modify (modLinks die peer fun k => { k with retry := n })
      if n ≥ 3 then modify (declareDead peer)) s

/-- LINK_IDLE_SLEEP (R399): a link without traffic sleeps, unless its IDLE is 0 (DEDUCED, log entry 40). -/
def execLinkIdleSleep (die peer : Nat) (s : State) : Outcome :=
  event (do
    let s ← get
    let k := s.link die peer
    enabled (decide (die < 4 ∧ peer < 6) && linkState die peer k.st == 0 && k.idle != 0 &&
      !s.msgs.any fun m => m.die == peer || m.die == die)
    modify (modLinks die peer fun k => { k with st := 1 })) s

/-- LINK_WAKE (R276, R400): a link that a request needs is Active again. -/
def execLinkWake (die peer : Nat) (s : State) : Outcome :=
  event (do
    let s ← get
    let k := s.link die peer
    enabled (decide (die < 4 ∧ peer < 6 ∧ die ≠ peer) && (k.st == 1 || k.st == 2))
    modify (modLinks die peer fun k => { k with st := 0 })) s

end Sys2Proof.Machine
end

