-- ==== Sys2Proof/Machine/Control.lean ====
section
/-!
DEFINITION. Branches, jumps, the prefix, traps by instruction and no-operation (05 R125 to R127, R132; 04 R79), and the
expiry of the issue hints (04 R87).
-/

namespace Sys2Proof.Machine

open Sys2Proof

/-- A conditional branch (R125). -/
def branch (rel : Word → Word → Bool) (o : Sh) (s : State) : Outcome :=
  jump (do
    let a ← useX o.rs1.toNat
    let b ← useX o.rs2.toNat
    let c ← curCtx
    return if rel a b then relTarget c.pc o.imm else c.pc + 8) s

/-- `beq` (05 R125). -/
def execBeq (o : Sh) (s : State) : Outcome := branch (fun a b => a == b) o s

/-- `bne` (05 R125). -/
def execBne (o : Sh) (s : State) : Outcome := branch (fun a b => a != b) o s

/-- `blt`, signed (05 R125). -/
def execBlt (o : Sh) (s : State) : Outcome := branch (fun a b => decide (a.toInt < b.toInt)) o s

/-- `bge`, signed (05 R125). -/
def execBge (o : Sh) (s : State) : Outcome := branch (fun a b => decide (b.toInt ≤ a.toInt)) o s

/-- `bltu`, unsigned (05 R125). -/
def execBltu (o : Sh) (s : State) : Outcome := branch (fun a b => decide (a.toNat < b.toNat)) o s

/-- `bgeu`, unsigned (05 R125). -/
def execBgeu (o : Sh) (s : State) : Outcome := branch (fun a b => decide (b.toNat ≤ a.toNat)) o s

/-- `j` (05 R125). -/
def execJ (o : Sh) (s : State) : Outcome := jump (do return relTarget (← curCtx).pc o.imm) s

/-- `call`: xd receives P + 8 (05 R125). -/
def execCall (o : Sh) (s : State) : Outcome :=
  jump (do
    let c ← curCtx
    writeX o.rd ((c.pc + 8).setWidth 64)
    return relTarget c.pc o.imm) s

/-- The target of a jump by register; one that is not a multiple of 4 faults at the jump (R79, R125). -/
def regTarget (o : Sh) : M Va := do
  let a ← useX o.rs1.toNat
  let t : Va := (a + immX o.imm).setWidth 57
  if t.toNat % 4 != 0 then fault 4 2 (t.setWidth 64) else return t

/-- `jr` (05 R125). -/
def execJr (o : Sh) (s : State) : Outcome := jump (regTarget o) s

/-- `callr` (05 R125). -/
def execCallr (o : Sh) (s : State) : Outcome :=
  jump (do
    let t ← regTarget o
    writeX o.rd (((← curCtx).pc + 8).setWidth 64)
    return t) s

/-- `fmt` (05 R127; 01 R24): the prefix is recorded and pending. -/
def execFmt (fmt : BitVec 4) (o : Sh) (s : State) : Outcome :=
  short (modCur fun c =>
    { c with pfx := BitVec.ofNat 64 (o.imm.toNat % 16 * 1024 + o.rs1.toNat * 16 + fmt.toNat), sr := c.sr ||| 1#64 }) s

/-- `nop` (05 R132). -/
def execNop (_ : Sh) (s : State) : Outcome := short (pure ()) s

/-- The long-form `nop` (05 R132). -/
def execNopLong (o : Lg) (s : State) : Outcome := longI o.toLow (pure ()) s

/-- The extended-form `nop` (05 R132). -/
def execNopExt (o : ExT) (s : State) : Outcome := extI o.toLow (pure ()) s

/-- `brk`: a precise Break at the instruction (05 R132). -/
def execBrk (_ : Sh) (s : State) : Outcome :=
  short (do fault 20 0 ((← curCtx).pc.setWidth 64)) s

/-- `trap`: an after-completion SoftwareTrap (05 R132). -/
def execTrap (o : Sh) (s : State) : Outcome :=
  short (modify fun s => { s with after := some (afterTrap 21 0 (o.imm.setWidth 64)) }) s

/-- A word that no opcode map lists raises IllegalOpcode before the prefix is looked at (04 R94, R98). -/
def execIllegalOpcode (s : State) : Outcome :=
  outcome (do
    let s ← get
    if !s.mayIssue s.cur then throw (.refuse .noContext) else illegal) s

/-- The yield hint of a context ends: another context of its core has issued, or 10 clocks have passed (04 R87)
(DESIGN CHOICE, log entry 1; DEDUCED, log entry 15). -/
def execYieldExpiry (key : Nat) (s : State) : Outcome :=
  event (do
    match (← get).ctx key |>.wait with
    | .hint true n => modify fun s => s.modCtx key fun c =>
        if n = 0 then c.wake
        else { c with wait := .hint false n }
    | _ => enabled false) s

/-- The issue-delay hint of a context has counted down (04 R87)
(DESIGN CHOICE, log entry 1; DEDUCED, log entry 15). -/
def execDelayExpiry (key : Nat) (s : State) : Outcome :=
  event (do
    match (← get).ctx key |>.wait with
    | .hint yld (_ + 1) => modify fun s => s.modCtx key fun c =>
        if yld then { c with wait := .hint true 0 }
        else c.wake
    | _ => enabled false) s

end Sys2Proof.Machine
end

