-- ==== Sys2Proof/Machine/Fabric.lean ====
section
/-!
DEFINITION. The events of posted stores and window accesses (07 R194 to R201; 09 R266, R277; 16 R382), of lost devices and
ports (18 R397, R398; 16 R380), of the gateway areas (11 R336, R337), and of the host's attachment (10 R306, R307).
-/

namespace Sys2Proof.Machine

open Sys2Proof

/-! ### Commits -/

/-- A posted store of a peer by its number. -/
def State.peerPost (s : State) (dev core stream : Nat) (seq : BitVec 12) : Option RemoteStore :=
  s.peerPosts.find? fun p => p.dev == dev && p.core == core && p.stream == stream && p.seq == seq

/-- The lines of the tile that starts with a posted store of a peer, as far as they have arrived; the store alone where it
starts none. -/
def State.peerLines (s : State) (p : RemoteStore) : List RemoteStore :=
  (List.range (max 1 p.tile)).filterMap fun i => s.peerPost p.dev p.core p.stream (p.seq + BitVec.ofNat 12 i)

/-- The next posted store of a peer that a window of this device may commit: all of a tile's data is there first (R188,
R197, R201). -/
def State.nextPeer (s : State) (k dev core stream : Nat) : Option RemoteStore :=
  (s.peerPost dev core stream (s.expected k)).filter fun p =>
    (p.marker || s.marksLet dev core stream 0) && decide ((s.peerLines p).length = max 1 p.tile)

/-- The source of a posted store hears that it was performed or rejected (R197, R199) (DEDUCED, log entry 56). -/
def peerHears (p : RemoteStore) (done : Bool) (s : State) : State := sendOut (.verdict p.dev p.core p.stream p.seq done) s

/-- A tile of another device makes younger tiles of this package that hold one of its lines, and have not all of theirs, give
up their lines (R190) (DEDUCED, log entry 34). -/
def gatewayTile (dev age : Nat) (lines : List Nat) (s : State) : State :=
  let older := fun (u : Tile) => decide (age < u.age) || (age == u.age && decide (dev < s.devId))
  let yields := fun (u : Tile) =>
    if older u && decide (u.got < u.lines.length) && (u.lines.take u.got).any lines.contains then { u with got := 0 } else u
  { s with tiles := s.tiles.map yields }

/-- The lines that stores at a gateway would write. -/
def State.landingLines (s : State) (src : Nat) (ls : List Line) : List Nat :=
  match (landLines src ls).run s with
  | .ok rs _ => rs.flatten.map fun r => lineOf r.place
  | .error _ _ => []

/-- A line of a peer's store as it arrives at the gateway. -/
def peerLine (q : RemoteStore) : Line := { va := q.va.toNat, bytes := q.bytes, skip := q.skip, marks := q.marks }

/-- A posted store of a peer leaves the window and is performed, a tile's lines together, or rejected with its numbers
consumed (R189, R199); its source hears which. One that writes host memory stays until its GO (R306). -/
def landPeer (k : Nat) (p : RemoteStore) : M Unit := do
  let ls := (← get).peerLines p
  let r ← if p.marker then pure Landing.performed else landStore (gatewaySource p.dev) p.dev p.go (ls.map peerLine)
  match r with
  | .sent tile => modify fun s => { s with peerPosts := s.peerPosts.map fun q => if q = p then { q with go := some tile } else q }
  | _ => modify fun s => ls.foldl (fun s q =>
      peerHears q (r == .performed) (advanceWindow k q.marker { s with peerPosts := s.peerPosts.filter (· != q) })) s

/-- The stores of one window that may commit do so, in order (R197); a held line stops them for now. -/
def drainPeer (dev core stream : Nat) : Nat → State → State
  | 0, s => s
  | n + 1, s =>
    let k := windowKey dev core stream 0
    match s.nextPeer k dev core stream with
    | none => s
    | some p =>
      let s := if p.tile > 1 then gatewayTile p.dev p.age (s.landingLines p.dev ((s.peerLines p).map peerLine)) s else s
      match (landPeer k p).run s with
      | .ok _ s => drainPeer dev core stream n s
      | .error _ s' => keepMisses s s'

/-- Every stream of a source core is drained: a marker on one may let stores of others commit (R201). -/
def drainCore (dev core : Nat) : Nat → State → State
  | 0, s => s
  | n + 1, s =>
    drainCore dev core n
      ((List.range 16).foldl (fun s t => drainPeer dev core t s.peerPosts.length s) s)

/-- A posted store that arrives from a peer (R197 to R199): held in its window or rejected where its number lies outside. -/
def peerArrives (p : RemoteStore) (s : State) : State :=
  let k := windowKey p.dev p.core p.stream 0
  let ahead := (p.seq - s.expected k).toNat
  if s.isLost p.dev then s
  else
    let s :=
      if 64 ≤ ahead then peerHears p false s
      else if (s.peerPost p.dev p.core p.stream p.seq).isSome then s
      else { s with peerPosts := s.peerPosts ++ [p] }
    drainCore p.dev p.core (s.peerPosts.length + 1) s

/-- Whether a marker keeps a posted store to another device from committing: one of a `mark` that the store follows is
not committed on every stream (R201). -/
def State.markedOff (s : State) (p : Post) : Bool :=
  s.posts.any fun q => q.core == p.core && q.dest == p.dest && (q.st == .waiting || q.st == .sent) && q.marker != p.marker &&
    match q.marker with
    | some m => decide (m < p.copy.getD p.id)
    | none => false

/-- The posted stores that commit together with one: the lines of its tile (R189) (DEDUCED, log entry 34). -/
def State.together (s : State) (p : Post) : List Post :=
  match p.tile with
  | some t => s.posts.filter fun q => q.tile == some t && q.dest == p.dest && q.st != .committed
  | none => [p]

/-- Whether a store with an earlier number of the same stream to the same destination has not been committed (R197). -/
def State.numberedBefore (s : State) (p : Post) : Bool :=
  s.posts.any fun q => q.core == p.core && q.stream == p.stream && q.dest == p.dest && q.st == .sent && q.id != p.id &&
    decide ((p.seq - q.seq).toNat < 2048)

/-- A line of a posted store of this device as it arrives at its own gateway. -/
def Post.line (p : Post) : Line := { va := p.va.toNat, bytes := p.bytes, skip := p.skip, marks := p.marks }

/-- A posted store of this package is performed: at a place of the package, at this device through its own gateway, or at
another device; a window one only while the domain is enabled (R383). A line of a copy was accepted at its bank when it was
posted (R258). A rejected one raises StreamError in its context, and its bytes count for nothing (R199, R212)
(DEDUCED, log entry 34). -/
def commitOwn (p : Post) : M Unit := do
  let s ← get
  let committed := modPost p.id fun q => { q with st := .committed }
  enabled (s.domEn || decide (2048 ≤ p.dest))
  if p.dest < 2048 ∧ p.dest ≠ s.devId then
    enabled (!s.markedOff p && !s.numberedBefore p)
    modify committed
  else
    let dev := if p.dest < 2048 then s.devId else 2048
    let k := p.window s.devId
    let die := if p.dest < 2048 then 0 else p.dest - 2048
    let ls := s.together p
    enabled (p.seq == s.expected k && (p.marker.isSome || s.marksLet dev p.core p.stream die) && ls.all (·.st == .sent))
    let commit := fun (s : State) => ls.foldl (fun s q =>
      modPost q.id (fun q => { q with st := .committed }) (advanceWindow k q.marker.isSome s)) s
    if p.marker.isSome then modify commit
    else if p.dest < 2048 then
      match (landStore { p.source s with via := .home } s.devId p.go (ls.map Post.line)).run s with
      | .ok .performed s => set (commit s)
      | .ok .rejected s => set (commit (modPost p.id (fun q => { q with bytes := [], skip := [] }) (streamError p s)))
      | .ok (.sent t) s => set (modPost p.id (fun q => { q with go := some t }) s)
      | .error _ s' => waitsAt s s'
    else if s.lineWaits (p.source s).via p.place then waitsAt s (noteMiss (p.source s).via true p.place s)
    else modify fun s => commit (performPost (p.source s) p s)

/-- STREAM_COMMIT (R197). -/
def execStreamCommit (p : PostRef) (s : State) : Outcome :=
  event (match p with
    | .peer r => do
      enabled (← get).domEn
      modify (peerArrives r)
    | .own id => do
      match (← get).posts.find? (·.id == id) with
      | none => enabled false
      | some p =>
        enabled (p.st == .sent && p.dest != hostDest)
        commitOwn p) s

/-- The acknowledgement of a posted store (R196, R197). One from another device that comes for a store that was not
committed there tells of its rejection (R199): its bytes count for nothing (R212). -/
def acknowledge (p : Post) (s : State) : State :=
  let s := if p.st == .sent then streamError p s else s
  let s := modStream p.core p.stream p.dest (fun k => { k with unacked := k.unacked - 1 })
    { s with posts := s.posts.filter (·.id != p.id) }
  match p.copy with
  | none => s
  | some c => lineLanded c (if p.st == .sent then 0 else p.count) s

/-- STREAM_ACK (R196, R383). -/
def execStreamAck (id : Nat) (s : State) : Outcome :=
  event (do
    let s ← get
    match s.posts.find? (·.id == id) with
    | none => enabled false
    | some p =>
      let away := decide (p.dest < 2048) && p.dest != s.devId
      enabled ((p.st == .committed || (p.st == .sent && away && p.marker.isNone)) && (decide (2048 ≤ p.dest) || s.domEn))
      set (acknowledge p s)) s

/-- CXL_GO (R306): a store to host uncached memory is performed when the host returns GO. -/
def execCxlGo (id : Nat) (s : State) : Outcome :=
  hostEvent (do
    let s ← get
    match s.posts.find? (·.id == id) with
    | none => enabled false
    | some p =>
      enabled (p.dest == hostDest && p.st == .sent)
      modify fun s =>
        let s := performPost (p.source s) p s
        let s := { s with posts := s.posts.filter (·.id != id) }
        match p.copy with
        | some c => lineLanded c p.count s
        | none => s) s

/-! ### Window accesses -/

/-- The places of pieces at a target, with their lengths, each under its own check (R266, R382). -/
def targetPlaces (src bit : Nat) : List (Nat × Nat) → M (List (Nat × Nat))
  | [] => return []
  | (va, n) :: t => do
    match (← targetLoc src va n bit).place? with
    | some p => return (p, n) :: (← targetPlaces src bit t)
    | none => fault 6 1 0

/-- The marks of bytes that leave with them, empty where none is marked (R402). -/
def State.placeMarks (s : State) (ps : List (Nat × Nat)) : List Nat :=
  let ms := ps.flatMap fun q => (List.range q.2).map fun i => s.byteMark (q.1 + i)
  if ms.all (· == 0) then [] else ms

/-- What a window access reads, or the word of a `ramo`: its pieces. -/
def opPieces (op : RemoteOp) (va : Va) : List (Nat × Nat) :=
  match op with
  | .read n => [(va.toNat, n)]
  | .ramo _ _ => [(va.toNat, 8)]
  | .tile _ parts => parts.map fun q => (q.1.toNat, q.2)

/-- The lines that pieces of a target lie in. -/
def State.targetLines (s : State) (src : Nat) (pieces : List (Nat × Nat)) : List Nat :=
  match (targetPlaces src 3 pieces).run s with
  | .ok ps _ => ps.map fun q => lineOf q.1
  | .error _ _ => []

/-- A window access is performed at its place in this package, by the home slices (R277): the bytes read with their marks, or
the old word of a `ramo`; `none` where it is refused (R266, R382). A tile is read at once (R189). A held line makes it
wait. -/
def atTarget (src : Nat) (w : Source) (va : Va) (op : RemoteOp) : M (Option (List Byte × List Nat)) := do
  let bit := match op with
    | .ramo _ _ => 5
    | _ => 3
  match (targetPlaces src bit (opPieces op va)).run (← get) with
  | .error (.hold _ _) s' =>
    modify fun s => keepMisses s s'
    heldAgain
  | .error _ _ => return none
  | .ok ps s' =>
    set s'
    match op with
    | .ramo fn v =>
      let p := (ps.head?.map (·.1)).getD 0
      if va.toNat % 8 != 0 then return none
      lineWritable .home p
      let s ← get
      let old := s.bytes p 8
      let marks := s.placeMarks ps
      set ((s.store w p (leBytes 8 (amoWord 64 fn (leNat old) v.toNat))).setMarks p marks)
      return some (old, marks)
    | _ =>
      readLines .home 0 ((ps.map fun q => lineOf q.1).eraseDups)
      let s ← get
      return some (ps.flatMap fun q => s.bytes q.1 q.2, s.placeMarks ps)

/-- What a part of a request asks of its target (R194). -/
def ReqKind.op (k : ReqKind) (n : Nat) : RemoteOp :=
  match k with
  | .ramo fn v _ _ => .ramo fn v
  | _ => .read n

/-- The parts of a request that name a device and have no answer yet, with their numbers. -/
def WReq.open (r : WReq) (dev : Nat) : List (Nat × Va × Nat) :=
  (r.parts.zipIdx.filter fun p => p.1.1 == dev && (Tbl.get [] r.answers p.2).isEmpty).map fun p => (p.2, p.1.2.1, p.1.2.2)

/-- A request of the list changed. -/
def modReq (id : Nat) (f : WReq → WReq) (s : State) : State :=
  { s with wreqs := s.wreqs.map fun r => if r.id == id then f r else r }

/-- The parts of a request that this device sent to itself are performed, in order; one that is refused refuses the
request (DEDUCED, log entry 52). -/
def ownParts (r : WReq) (dev : Nat) (w : Source) : List (Nat × Va × Nat) → M Unit
  | [] => return ()
  | (i, va, n) :: t => do
    match ← atTarget dev w va (r.kind.op n) with
    | none => modify (modReq r.id fun r => { r with refused := dev :: r.refused })
    | some (bs, marks) =>
      modify (modReq r.id fun r =>
        { r with answers := Tbl.set [] r.answers i bs, amarks := Tbl.set [] r.amarks i marks })
      ownParts r dev w t

/-- WINDOW_ACCESS_AT_TARGET (R266, R277). The answer to a peer leaves the package (DEDUCED, log entries 52 and
56). -/
def execWindowAccessAtTarget (r : ReqRef) (s : State) : Outcome :=
  event (match r with
    | .peer p => do
      let s ← get
      enabled s.domEn
      if !s.isLost p.dev then
        modify fun s => match p.op with
          | .tile age _ => gatewayTile p.dev age (s.targetLines p.dev (opPieces p.op p.va)) s
          | _ => s
        match (atTarget p.dev (gatewaySource p.dev) p.va p.op).run (← get) with
        | .ok data s => set (sendOut (.answer p.dev p.id data) { s with peerReqs := s.peerReqs.filter (· != p) })
        | .error _ s' => modify fun s =>
            let s := keepMisses s s'
            if s.peerReqs.contains p then s else { s with peerReqs := s.peerReqs ++ [p] }
    | .own id => do
      let s ← get
      match s.wreqs.find? (·.id == id) with
      | none => enabled false
      | some r =>
        let dev := s.devId
        enabled (s.domEn && !r.partDone dev && !r.refused.contains dev && !(r.open dev).isEmpty)
        match (ownParts r dev { s.sourceOf r.key with via := .home } (r.open dev)).run s with
        | .ok _ s => set s
        | .error _ s' => waitsAt s s') s

/-- What a response brings goes to the parts of its device in order (DEDUCED, log entry 16). -/
def fillParts {α : Type} [DecidableEq α] (bs : List α) : List (Nat × Va × Nat) → Tbl (List α) → Tbl (List α)
  | [], t => t
  | (i, _, n) :: ps, t => fillParts (bs.drop n) ps (Tbl.set [] t i (bs.take n))

/-- WINDOW_RESPONSE (R194, R383): the response of a device to its part of a request, with the marks of its bytes (R402). This
device's own response carries what was performed here. -/
def execWindowResponse (id dev : Nat) (ok : Bool) (data : Carried) (s : State) : Outcome :=
  event (do
    let s ← get
    match s.wreqs.find? (·.id == id) with
    | none => enabled false
    | some r =>
      enabled ((r.parts.any (·.1 == dev)) && !r.partDone dev && s.domEn)
      if dev = s.devId then
        enabled (r.refused.contains dev || (r.open dev).isEmpty)
        modify fun s => finishReq id (modReq id (fun r => { r with returned := dev :: r.returned }) s)
      else if ok then
        let ps := r.open dev
        enabled (data.bytes.length == (ps.map (·.2.2)).sum && (data.marks.isEmpty || data.marks.length == data.bytes.length))
        modify fun s => finishReq id (modReq id (fun r =>
          { r with answers := fillParts data.bytes ps r.answers, amarks := fillParts data.marks ps r.amarks
                   returned := dev :: r.returned }) s)
      else
        modify fun s => finishReq id (modReq id (fun r =>
          { r with refused := dev :: r.refused, returned := dev :: r.returned }) s)) s

/-! ### Lost devices and ports -/

/-- Whether something of this device waits for another one: a request, or an acknowledgement. -/
def State.waitsFor (s : State) (dev : Nat) : Bool :=
  s.posts.any (fun p => p.dest == dev && p.st != .lost) ||
    s.wreqs.any fun r => r.parts.any (·.1 == dev) && !r.partDone dev

/-- FENCE_TIMEOUT (R397) (DESIGN CHOICE, log entry 1). -/
def execFenceTimeout (dev : Nat) (s : State) : Outcome :=
  event (do
    let s ← get
    enabled (decide (dev < 2048) && !s.isLost dev && s.waitsFor dev)
    modify (loseDevice dev)) s

/-- Whether a port is trained (R380). -/
def State.portUp (s : State) (p : Nat) : Bool := (s.reg (0x700100 + 8 * p)).getLsbD 16

/-- PORTp.UP. -/
def setPortUp (p : Nat) (up : Bool) (s : State) : State :=
  let off := 0x700100 + 8 * p
  s.setReg off (setField (s.reg off) 16 1 (if up then 1 else 0))

/-- ROUTE_LOSS_TIMEOUT (R397): the route byte of a device still names a port whose link is down. -/
def execRouteLossTimeout (dev : Nat) (s : State) : Outcome :=
  event (do
    let s ← get
    let p := Tbl.get 0 s.routes dev
    enabled (decide (dev < 2048 ∧ p < 24) && s.domEn && !s.isLost dev && !s.portUp p)
    modify (loseDevice dev)) s

/-- PORT_TRAINED (R380, R406): the retirements of the port's lanes take effect. The port is up on all its lanes, or on
the half of them without retired lanes; with both halves hit it stays down. -/
def execPortTrained (p : Nat) (s : State) : Outcome :=
  event (do
    enabled (decide (p < 24) && !(← get).portUp p)
    modify (activateAll (laneOfPort p))
    let s ← get
    let hit := fun (half : Nat) => s.repair.any fun r => laneOfPort p r.unit && r.act && decide (unitIndex r.unit / 4 % 2 = half)
    modify (setPortUp p !(hit 0 && hit 1))) s

/-- PORT_LINK_DOWN (R397). -/
def execPortLinkDown (p : Nat) (s : State) : Outcome :=
  event (do
    enabled (decide (p < 24) && (← get).portUp p)
    modify (setPortUp p false)) s

/-! ### Gateway areas -/

/-- GATEWAY_BLOCK_READY (R336, R337): the block that was completed first sets its READY bit and enters the queue where there
is room, with the device that wrote its last byte. -/
def execGatewayBlockReady (core blk dev : Nat) (s : State) : Outcome :=
  event (do
    let k := (← get).core core
    enabled (gatewayCore core && k.gdone.head? == some (blk, dev))
    modify fun s => s.modCore core fun k =>
      { k with gready := Tbl.set 0 k.gready blk (dev + 1), gdone := k.gdone.drop 1
               gqueue := if k.gqueue.length < 256 then k.gqueue ++ [blk] else k.gqueue }) s

/-! ### The host attachment -/

/-- A line leaves every die whose copy `gone` names, dirty data to memory; the directory follows. -/
def dropCopies (line : Nat) (gone : Nat → Bool) (s : State) : State :=
  let ds := [0, 1, 2, 3].filter fun d => s.dieLine d line != 0 && gone (s.dieLine d line)
  let dirty := ds.any fun d => decide (s.dieLine d line ≥ 3)
  let s := ds.foldl (fun s d => setDieLine d line 0 s) s
  let e := s.dirOf line
  let e := { e with owner := e.owner.filter fun d => !ds.contains d, sharers := e.sharers.filter fun d => !ds.contains d }
  setDir line (if e.live then e else {}) (if dirty then cleanLine line s else s)

/-- What the host holds of the 64-byte line of an address is recorded (R306, R307); an entry that the home creates for it is
used (R350). -/
def setHost (pa : Nat) (h : HostTake) (s : State) : State :=
  let line := lineOf pa
  let s := if h != .none && !(s.dirOf line).live then useDir line s else s
  let e := s.dirOf line
  let e := if pa % 128 < 64 then { e with host := h } else { e with upper := h }
  setDir line (if e.live then e else {}) s

/-- HOST_SNOOP (R306): the host takes a line of its window back from the package (DEDUCED, log entry 23). -/
def execHostSnoop (pa : Nat) (take : HostTake) (s : State) : Outcome :=
  hostEvent (do
    let s ← get
    enabled (physKind pa == some 2 && !s.tileHolds pa && !s.lineBusy pa)
    modify (dropCopies (lineOf pa) fun st =>
      match take with
      | .none => false
      | .shared => decide (st ≥ 2)
      | .owned => true)) s

/-- Whether a host request to a line of HBM can be performed now: none to it is in progress, no tile holds it, and what it
needs is there (R269, R273, R275, R307). -/
def State.hostMay (s : State) (pa : Nat) (entry : Bool) : Bool :=
  physKind pa == some 0 && !s.lostPhys pa && !s.tileHolds pa && !(s.late.any fun w => lineOf w.place == lineOf pa) &&
    s.queuesOpen none (lineOf pa) && s.homeOpen [] (lineOf pa) entry

/-- A request of the host that its line's home performs, with room for an entry where it needs one (R307, R348). -/
def hostAtHome (line : Nat) (entry : Bool) (s : State) : State :=
  let s := match homeDie line with
    | some h => if entry then roomAtHome h line s else s
    | none => s
  atHome none false line s

/-- MemRd of HBM by the host (R307): dirty copies of the dies are recalled, and the host may become a holder of the line; it is
owner of none that a line-watch unit watches (R285) (DEDUCED, log entries 23 and 56). -/
def execMemrd (pa : Nat) (take : HostTake) (s : State) : Outcome :=
  hostEvent (do
    let s ← get
    let line := lineOf pa
    enabled (s.hostMay pa (take != .none) && (s.dirOf line).hostAt pa != .owned)
    let take := if take == .owned && s.lineWatched line then HostTake.shared else take
    modify fun s =>
      let s := dropCopies line (fun st => decide (st ≥ 3) || (take == .shared && st == 2) || take == .owned)
        (hostAtHome line (take != .none) s)
      let s := if take == .none then s else setHost pa take s
      let p := pa / 64 * 64
      sendOut (.drs p (s.bytes p 64) (s.placeMarks [(p, 64)])) s) s

/-- The bytes of a 64-byte line of the host are written to device memory (R285, R286, R307). -/
def hostWrite (pa : Nat) (bytes : List Byte) (s : State) : State :=
  s.store { kind := 3, die := 4, via := .held } (pa / 64 * 64) bytes

/-- MemWr of HBM by the host (R307): every copy of the dies goes, then the line is written (DEDUCED, log entries 23 and 56). -/
def execMemwr (pa : Nat) (bytes : List Byte) (s : State) : Outcome :=
  hostEvent (do
    let s ← get
    enabled (s.hostMay pa false && bytes.length == 64)
    modify fun s =>
      sendOut (.ndr (pa / 64 * 64)) (hostWrite pa bytes (dropCopies (lineOf pa) (fun _ => true) (hostAtHome (lineOf pa) false s)))) s

/-- The host gives a line up, with its data where it held it dirty; what waited for it goes on (R307). -/
def hostGives (pa : Nat) (bytes : List Byte) : M Unit := do
  let s ← get
  enabled (physKind pa == some 0 &&
    (bytes.isEmpty || ((s.dirOf (lineOf pa)).hostAt pa == .owned && bytes.length == 64)))
  modify fun s => flushLate (hostAnswered (lineOf pa) (setHost pa .none (if bytes.isEmpty then s else hostWrite pa bytes s)))

/-- MemInv (R307, R348). -/
def execMeminv (pa : Nat) (bytes : List Byte) (s : State) : Outcome :=
  hostEvent (do
    let s ← get
    enabled (!s.lineBusy pa && s.queuesOpen none (lineOf pa) && (s.dirOf (lineOf pa)).hostAt pa != .none)
    modify (hostAtHome (lineOf pa) false)
    hostGives pa bytes
    modify (sendOut (.ndr (pa / 64 * 64)))) s

/-- BIRsp, the host's answer to a BISnp that this device has sent (R307) (DEDUCED, log entry 23). -/
def execBirsp (pa : Nat) (bytes : List Byte) (s : State) : Outcome :=
  hostEvent (do
    enabled ((← get).snoops.contains (pa / 64 * 64))
    modify fun s => { s with snoops := s.snoops.filter (· != pa / 64 * 64) }
    hostGives pa bytes) s

end Sys2Proof.Machine
end

