-- ==== Sys2Proof/Machine/Launch.lean ====
section
/-!
DEFINITION. Launches (11 R319 to R325; 16 R359 to R362): how the device reads a launch's records through its own tables,
what it refuses, the start of the control contexts, and the end of a launch.
-/

namespace Sys2Proof.Machine

open Sys2Proof

/-! ### Reading records -/

/-- The answer of a read that has to wait: it is no reason of R361. -/
def recHeld : Nat := 255

/-- A read of records: the state as it stands after its accesses, and the reason of a refusal (R361, R367). -/
abbrev Rec := EStateM Nat State

/-- A read through a launch's tables: one that must wait, and one that faults. -/
def recAccess {α : Type} (m : M α) : Rec α := fun s =>
  match m.run s with
  | .ok a s' => .ok a s'
  | .error (.hold _ _) s' => .error recHeld s'
  | .error _ s' => .error 7 s'

/-- A piece of a record within one line, read at its home: a translation fault or marked data stops the load (R361), and a page
that is being migrated or a line that cannot be read now makes it wait (R307, R348, R367). -/
def recPiece (e : Env) (va n : Nat) : Rec (List Byte) :=
  recAccess (do
    let (pa, mt) ← translate e va accRead
    match ← physLoc va pa mt with
    | .mem p mt =>
      if mt != 3 then
        lineFree .home p
        modify (lineRead .home 0 p)
      let s ← get
      if s.firstMark p n != 0 then fault 23 0 0 else return s.bytes p n
    | _ => noAperture va)

/-- The pieces of a record. -/
def recPieces (e : Env) : List (Nat × Nat) → Rec (List Byte)
  | [] => return []
  | (va, n) :: ps => do
    let bs ← recPiece e va n
    return bs ++ (← recPieces e ps)

/-- `n` bytes of a record as a unit reaches them. -/
def readAs (e : Env) (va n : Nat) : Rec (List Byte) := recPieces e (linePieces (n / 128 + 2) (va % 2 ^ 57) n)

/-- `n` bytes of a record at a device-virtual address of a launch, where they can be read (R361)
(DEDUCED, log entry 22). -/
def readRec (l va n : Nat) : Rec (List Byte) := do readAs ((← get).launchEnv l) va n

/-- Bits `lo` to `lo + n − 1` of a number. -/
def bitsAt (w lo n : Nat) : Nat := w / 2 ^ lo % 2 ^ n

/-- `n` bytes of a record as a number, or the refusal of R361. -/
def recNat (l va n : Nat) : Rec Nat := do return leNat (← readRec l va n)

/-- A check of R361. -/
def refuseIf (b : Bool) (reason : Nat) : Rec Unit := if b then throw reason else return ()

/-- The members of a group record (R319). -/
def readMembers (l : Nat) : Nat → Nat → Rec (List Nat)
  | 0, _ => return []
  | n + 1, va => do
    let m ← recNat l va 2
    refuseIf (decide (m ≥ 2048)) 1
    return m :: (← readMembers l n (va + 2))

/-- The group records of a launch (R319, R389). -/
def readGroups (l : Nat) : Nat → Nat → Rec (List Group)
  | 0, _ => return []
  | k + 1, va => do
    let w ← recNat l va 8
    let n := bitsAt w 16 12
    let rb := bitsAt w 32 1 == 1
    let rcm := bitsAt w 33 24
    refuseIf (n == 0 || decide (n > 2048) || bitsAt w 8 8 != 0 || bitsAt w 28 4 != 0 || bitsAt w 57 7 != 0 ||
      (!rb && rcm != 0)) 1
    let ms ← readMembers l n (va + 8)
    return { g := bitsAt w 0 8, members := ms, rb := rb, rcm := BitVec.ofNat 24 rcm } ::
      (← readGroups l k (va + 8 + 8 * ((n + 3) / 4)))

/-- The cores that group records name, each once, in ascending order. -/
def namedCores (gs : List Group) : List Nat :=
  let all := gs.flatMap (·.members)
  (List.range 2048).filter all.contains

/-- What R319 and R389 refuse: a group defined twice, a core twice in one group, in more than four groups, or in two
teams. -/
def groupsOK (gs : List Group) : Bool :=
  (gs.map (·.g)).eraseDups.length == gs.length && gs.all (fun g => g.members.eraseDups.length == g.members.length) &&
    (namedCores gs).all fun k =>
      decide ((gs.filter fun g => g.members.contains k).length ≤ 4) &&
        decide ((gs.filter fun g => g.rb && g.members.contains k).length ≤ 1)

/-- The groups of a launch, with the checks of reason 1. -/
def loadGroups (l : Nat) : Rec (List Group) := do
  let u := (← get).launch l
  let n := u.f 0x39 2 % 512
  let va := u.f 0x30 8 % 2 ^ 57
  refuseIf (decide (n < 1 ∨ n > 256) || va % 8 != 0) 1
  let gs ← readGroups l n va
  refuseIf (!groupsOK gs) 1
  return gs

/-- Reason 2: the grid group holds exactly the product of the grid extents, each 1 to 2,048, and each gdim is at least 1
(R321, R360). -/
def gridOK (u : Launch) (gs : List Group) : Bool :=
  let ds := List.range 4
  ds.all (fun d => decide (1 ≤ u.grid d ∧ u.grid d ≤ 2048 ∧ 1 ≤ u.gdim d)) &&
    match gs.find? fun g => g.g == u.f 0x38 1 with
    | some g => g.members.length == (ds.map u.grid).prod
    | none => false

/-- A clause that R325 accepts: its reserved bits are 0, and no coefficient is 3, −4 or −3. -/
def clauseOK (w : Word) : Bool :=
  field w 15 17 == 0 && [0, 3, 6, 9].all fun lo => !(decide (3 ≤ field w lo 3 ∧ field w lo 3 ≤ 5))

/-- The rules of a launch (R325). -/
def readRules (l : Nat) : Nat → Nat → Rec (List (Word × Word))
  | 0, _ => return []
  | k + 1, va => do
    let a ← recNat l va 8
    let b ← recNat l (va + 8) 8
    let r := (BitVec.ofNat 64 a, BitVec.ofNat 64 b)
    refuseIf (!(clauseOK r.1 && clauseOK r.2)) 4
    return r :: (← readRules l k (va + 16))

/-- The neighbour entries of a block (R323, R324): one whose bits [30:27] are not 0 is refused with the others, which R324 does
not say (DESIGN CHOICE, log entry 72). -/
def checkNeighbours (l nblk : Nat) (level : BitVec 32) : Nat → Nat → Rec Unit
  | 0, _ => return ()
  | k + 1, va => do
    let w ← recNat l va 4
    refuseIf (bitsAt w 27 4 != 0) 3
    if bitsAt w 31 1 == 0 then
      let i := bitsAt w 0 16
      refuseIf (decide (i ≥ nblk)) 3
      let ln ← recNat l (((← get).launch l).ltab + 64 * i) 4
      refuseIf (spanTooWide (BitVec.ofNat 32 ln) level) 3
    checkNeighbours l nblk level k (va + 4)

/-- The descriptors of a level table (R324) (DEDUCED, log entry 22). An ENTRY or NBPTR that is no multiple of 4 is refused with
them, which R324 does not say (DESIGN CHOICE, log entry 72). -/
def checkBlocks (l nblk : Nat) (gs : List Group) (rules : List (Word × Word)) : Nat → Rec Unit
  | 0 => return ()
  | k + 1 => do
    let va := ((← get).launch l).ltab + 64 * (nblk - (k + 1))
    let b ← readRec l va 64
    let f := fun off n => leNat ((b.drop off).take n)
    let step := f 4 4
    let w := f 8 8
    let nbc := bitsAt w 8 5
    let defined := match rules[bitsAt w 0 3]? with
      | some r => r.1.getLsbD 14
      | none => false
    let role := gs.any fun g => g.g == bitsAt w 48 8 && decide (bitsAt w 32 16 < g.members.length)
    refuseIf (decide (step < 1 ∨ step > 2 ^ 29) || decide (nbc > 26) || bitsAt w 5 3 != 0 || bitsAt w 13 19 != 0 ||
      bitsAt w 56 8 != 0 || f 0x14 4 != 0 || f 0x38 8 != 0 || f 0x10 4 % 4 != 0 || f 0x18 8 % 4 != 0 || !defined || !role) 3
    checkNeighbours l nblk (BitVec.ofNat 32 (f 0 4)) nbc (f 0x18 8)
    checkBlocks l nblk gs rules k

/-- The parameter windows of a launch (R362): address and size of each. -/
def readParams (l : Nat) : Nat → Nat → Rec (List (Nat × Nat))
  | 0, _ => return []
  | k + 1, va => do
    let a ← recNat l va 8
    let w ← recNat l (va + 8) 8
    refuseIf (bitsAt w 32 32 != 0) 6
    return (a % 2 ^ 57, bitsAt w 0 32) :: (← readParams l k (va + 16))

/-- The checks of R361 in order of their reasons, but for those of the rules, which the level table's rest on
(DEDUCED, log entry 22). -/
def loadTables (l : Nat) : Rec (List Group × List (Word × Word) × List (Nat × Nat)) := do
  let u := (← get).launch l
  let gs ← loadGroups l
  refuseIf (!gridOK u gs) 2
  let nrule := bitsAt (u.f 0x48 4) 20 4
  let dmax := bitsAt (u.f 0x38 4) 20 4
  let rules ← (if u.lvlT then do
      refuseIf (decide (nrule > 8)) 4
      readRules l nrule (u.f 0x50 8 % 2 ^ 57)
    else return [])
  if u.lvlT then
    refuseIf (decide (u.nblk > 65536 ∨ dmax < 1 ∨ dmax > 11)) 3
    checkBlocks l u.nblk gs rules u.nblk
  refuseIf (u.pbase % 4096 != 0 || u.psize % 4096 != 0 || decide (u.psize < 0x90000)) 5
  let params ← readParams l 16 (u.f 0x58 8 % 2 ^ 57)
  return (gs, rules, params)

/-! ### Cores -/

/-- Whether a core is not retired and its slot 0 is Free (R361). -/
def State.coreFree (s : State) (k : Nat) : Bool := !(s.core k).retired && s.slotFree (keyOf k 0)

/-- Whether a core is in service and its slot 0 is Free: one that is vacated is not in service while another launch that named
it is in Loading (R361). -/
def State.coreReady (s : State) (k : Nat) : Bool :=
  s.coreFree k && !(s.launches.any (fun p => (p.2.image k).isSome) &&
    s.launches.any fun p => p.2.st == .loading && p.2.cores.contains k)

/-- The cores that the group records of a launch name, as far as they can be read (R361). -/
def State.coresNamed (s : State) (l : Nat) : List Nat :=
  match (loadGroups l).run s with
  | .ok gs _ => namedCores gs
  | .error _ _ => []

/-- Whether a launch record can start: every participating core is ready. Records that are refused need none, and ones that
cannot be read yet wait (R361). -/
def State.recordReady (s : State) (record : List Byte) : Bool :=
  match (loadGroups 0).run (s.modLaunch 0 fun _ => { record := record }) with
  | .ok gs _ => (namedCores gs).all s.coreReady
  | .error r _ => r != recHeld

/-! ### The start of a launch -/

/-- A refusal of R361; its detail is not stated (log entry 5) (DEDUCED, log entry 22). -/
def refuse (q reason : Nat) (s : State) : State :=
  endLaunch q { status := 2, a := BitVec.ofNat 64 reason, b := Config.freeWord s.fresh } { s with fresh := s.fresh + 1 }

/-- INF bits are cleared (R324). -/
def clearInf (l : Nat) (s : State) : State :=
  (List.range (s.launch l).nblk).foldl (fun s b => setBlockBits l b false (s.blockDone l b) s) s

/-- The table floor at Loading: the smallest LEVEL + STEP of a block that is not done (R327). -/
def firstFloor (s : State) (l : Nat) : BitVec 32 :=
  let keys := ((List.range (s.launch l).nblk).filter fun b => !s.blockDone l b).map fun b =>
    (s.level l b + s.step' l b).toInt
  match keys with
  | [] => 0
  | k :: t => BitVec.ofInt 32 (t.foldl min k)

/-- The binding table as a launch writes it (R320). -/
def firstBinding (gs : List Group) : Tbl (BitVec 16) :=
  gs.foldl (fun t g => g.members.zipIdx.foldl (fun t m =>
    Tbl.set 0 t (bindKey g.g m.2) (BitVec.ofNat 16 (0x8000 + m.1))) t) []

/-- A core's control context starts (R313, R361), with its copy tags and follow-on commands anew (R238). -/
def startControl (l core : Nat) (s : State) : State :=
  let u := s.launch l
  let x1 := match u.gridRole core with
    | some r => BitVec.ofNat 64 r
    | none => BitVec.allOnes 64
  let s := s.modCore core fun k => { k with tag := 0, issued := 0, copies := [], follow := [], stopped := none }
  startCtx l (keyOf core 0) core (u.f 0x10 8 % 2 ^ 57) x1 0 0 .control s

/-- The clusters whose cores all take part in a launch. -/
def wholeClusters (cores : List Nat) : List Nat :=
  (cores.map clusterOfCore).eraseDups.filter fun cl => (List.range 8).all fun i => cores.contains (cl * 8 + i)

/-- A launch whose tables are loaded begins to run: the event units of its whole clusters are reset (R207), its control
contexts start, and its teams have their first checkpoint (R390). -/
def beginLaunch (l : Nat) (gs : List Group) (rules : List (Word × Word)) (params : List (Nat × Nat)) (s : State) : State :=
  let cores := namedCores gs
  let s := s.modLaunch l fun u =>
    { u with st := .running, cores := cores, groups := gs, bind := firstBinding gs, params := params, rules := rules
             loadNo := s.fresh, kfloor := s.wlog.length }
  let s := { s with fresh := s.fresh + 1 }
  let s := if (s.launch l).lvlT then clearInf l s else s
  let floor := firstFloor s l
  let s := s.modLaunch l fun u => { u with floor := floor }
  let s := (wholeClusters cores).foldl (fun s cl => resetEventUnit cl s) s
  let s := cores.foldl (fun s k => startControl l k s) s
  gs.foldl (fun s g => teamCheckpoint l g s) s

/-- A core of a launch on a lost die ends it (R401) (DEDUCED, log entry 22). -/
def deadDie (s : State) (gs : List Group) : Option Nat :=
  ((namedCores gs).map dieOfCore).find? fun d => (s.die d).dead

/-- The level table of a launch that is loaded is about to be written (R324, R367). -/
def useRecords (l : Nat) : M Unit := do
  if !(← get).late.isEmpty then heldAgain
  let u := (← get).launch l
  if u.lvlT then usePages l u.ltab (64 * u.nblk) accTable

/-- A launch in Loading is loaded: it is refused (R361), or it runs. It waits while a record cannot be read, and for the slots
of its cores, which another launch may have taken meanwhile (R361). -/
def loadLaunch (l : Nat) : M Unit := do
  let s0 ← get
  let q := (s0.launch l).q
  match (loadTables l).run s0 with
  | .error r s => if r = recHeld then waitsAt s0 s else set (refuse q r s)
  | .ok (gs, rules, params) s =>
    match deadDie s gs with
    | some d => set (endLaunch q { status := 1, code := 24, b := BitVec.ofNat 64 d } s)
    | none =>
      enabled ((namedCores gs).all s.coreFree)
      set s
      unheld s0 q (useRecords l)
      modify (beginLaunch l gs rules params)

/-- LAUNCH (R361): a launch in Loading. -/
def execLaunch (l : Nat) (s : State) : Outcome :=
  event (do
    let s ← get
    enabled ((s.launch l).st == .loading && (s.queue (s.launch l).q).st != .switchingOut)
    loadLaunch l) s

/-! ### The end of a launch -/

/-- Whether a launch has nothing left to run (R322, R328): its contexts have ended, and its blocks are done. -/
def State.launchDone (s : State) (l : Nat) : Bool :=
  let u := s.launch l
  (s.launchCtxs l).isEmpty && (!u.lvlT || (List.range u.nblk).all fun b => s.blockDone l b)

/-- Whether every copy and posted store of a launch is acknowledged (R322). -/
def State.launchQuiet (s : State) (l : Nat) : Bool :=
  !s.copies.any (·.launch == l) && !s.posts.any fun p => p.launch == l && p.st != .lost

/-- LAUNCH_END (R322): a launch that is done is Ending until its copies and posted stores are acknowledged, and then it is
Ended: its entry ends, or its graph node is done. -/
def execLaunchEnd (l : Nat) (s : State) : Outcome :=
  event (do
    let s ← get
    let u := s.launch l
    enabled ((u.st == .running || u.st == .ending) && !u.isGraph && s.launchDone l)
    if s.launchQuiet l then
      match u.node with
      | some (q, n) =>
        unheld s q (useGraph q)
        modify fun s => nodeDoneAll q n (clearLaunch l s)
      | none => set (endLaunch u.q { status := 0 } s)
    else
      enabled (u.st == .running)
      set (s.modLaunch l fun u => { u with st := .ending })) s

end Sys2Proof.Machine
end

