-- ==== Sys2Proof/Machine/Queue.lean ====
section
/-!
DEFINITION. The queue unit (16 R354 to R359, R364): how entries start, COPY and EVENT entries, and task graphs as entries (11
R334).
-/

namespace Sys2Proof.Machine

open Sys2Proof

/-! ### Entries -/

/-- `n` bytes at an offset of an entry, as a number. -/
def entryNat (b : List Byte) (off n : Nat) : Nat := leNat ((b.drop off).take n)

/-- Whether an entry is zero from an offset on. -/
def zeroFrom (b : List Byte) (off : Nat) : Bool := (b.drop off).all (· == 0)

/-- PTROOT's reserved bits are 0 (R359). -/
def rootOK (b : List Byte) : Bool := entryNat b 8 8 % 4096 == 0 && decide (entryNat b 8 8 < 2 ^ 52)

/-- The reserved bits of a launch record are 0 (R360). -/
def recordOK (b : List Byte) : Bool :=
  let small := fun off => decide (entryNat b off 8 < 2 ^ 57)
  bitsAt (entryNat b 0 2) 12 4 == 0 && rootOK b && [0x10, 0x30, 0x40, 0x50, 0x58, 0x60, 0x70, 0x78].all small &&
    bitsAt (entryNat b 0x38 4) 17 3 == 0 && bitsAt (entryNat b 0x38 4) 24 8 == 0 &&
    bitsAt (entryNat b 0x48 8) 17 3 == 0 && bitsAt (entryNat b 0x48 8) 24 40 == 0 && entryNat b 0x6C 4 == 0

/-- An entry that the device performs (R357): a listed kind, reserved fields 0, and control entries on a control queue
only (DEDUCED, log entry 43). -/
def entryOK (ctlq : Bool) (b : List Byte) : Bool :=
  let flags := entryNat b 1 1
  match entryNat b 0 1 with
  | 1 => recordOK b
  | 2 => flags == 0 && rootOK b && decide (entryNat b 0x18 8 < 4096) && zeroFrom b 0x20
  | 3 => flags == 0 && rootOK b && decide (entryNat b 0x48 8 < 4096) && zeroFrom b 0x50
  | 4 => decide (flags < 8) && flags / 2 != 3 && rootOK b && entryNat b 0x10 8 % 8 == 0 && zeroFrom b 0x20
  | 5 => ctlq && flags == 0 && rootOK b && decide (entryNat b 0x10 8 < 64) &&
      decide (1 ≤ entryNat b 0x20 8 ∧ entryNat b 0x20 8 < 2048) && zeroFrom b 0x28
  | 6 => ctlq && decide (flags < 2) && decide (entryNat b 0x10 8 < 64) && zeroFrom b 0x18
  | _ => false

/-- The HEAD entry of a queue as the device reads it (R354, R357). -/
def State.headEntry (s : State) (q : Nat) : List Byte :=
  let u := s.queue q
  s.bytes (u.base.toNat + 128 * (u.head.toNat % 2 ^ u.sz)) 128

/-- Queues with an entry to start (R358). -/
def State.waiting (s : State) (q : Nat) : Bool :=
  let u := s.queue q
  u.en && u.st == .idle && u.head != u.tail

/-- The launches that a queue has switched out. -/
def State.switchedOf (s : State) (q : Nat) : List Nat :=
  (s.launches.filter fun p => p.2.q == q && p.2.st == .switched).map (·.1)

/-- Whether the engines have room for copies that come back (R4, R376). -/
def State.copiesFit (s : State) (back : List Copy) : Bool :=
  let back := back.filter fun c => !c.stopped
  back.all fun c =>
    decide (s.copiesOf c.core + (back.filter fun d => d.core == c.core).length ≤ 1024 ∧
      (s.copies.filter fun d => d.cl == c.cl && !d.stopped).length + (back.filter fun d => d.cl == c.cl).length ≤ 8192)

/-- Whether what a queue switched out can come back (R376): its cores are in service, its slots Free, its lanes and tiles not
with others, and the engines have room for its copies (R4) (DEDUCED, log entry 44). -/
def State.switchReady (s : State) (q : Nat) : Bool :=
  let ls := s.switchedOf q
  let saved := ls.flatMap fun l => (s.launch l).saved
  let tile := fun (l : Nat) (cl : Nat) (o : Nat × Nat) =>
    !(s.launch l).cores.contains (o.2 - 1) || Tbl.get 0 (s.cluster cl).owner o.1 == 0
  ls.all (fun l => (s.launch l).cores.all s.coreReady && (s.launch l).units.clusters.all fun c => c.2.owner.all (tile l c.1)) &&
    saved.all (fun x => s.slotFree x.key) && s.copiesFit (ls.flatMap fun l => (s.launch l).units.copies) &&
    (List.range 256).all fun cl =>
      decide (((saved.filter fun x => clusterOfCore (coreOfKey x.key) == cl).map fun x => x.ctx.grant).sum ≤ s.freeGroups cl)

/-- Whether the HEAD entry of a queue can start (R361, R376). -/
def State.canStart (s : State) (q : Nat) : Bool :=
  let b := s.headEntry q
  if !entryOK (s.queue q).ctlq b then true
  else if entryNat b 0 1 = 1 then s.recordReady b
  else if entryNat b 0 1 = 6 ∧ entryNat b 1 1 = 1 then
    let t := entryNat b 0x10 8
    (s.queue t).st != .switchedOut || s.switchReady t
  else true

/-- The smallest effective priority among waiting queues. -/
def State.bestPrio (s : State) : Nat :=
  (((List.range 64).filter s.waiting).map fun q => (s.queue q).eprio).foldl min 4

/-- The queue whose entry starts next (R358) (DESIGN CHOICE, log entry 2). -/
def State.nextQueue (s : State) : Option Nat :=
  let p := s.bestPrio
  let last := Tbl.get 63 s.lastQueue p
  ((List.range 64).map fun i => (last + 1 + i) % 64).find? fun q => s.waiting q && (s.queue q).eprio == p && s.canStart q

/-- A launch is in Loading: the cores that its group records name take part in it from here on (R361, R377, R406). -/
def startLoading (l q : Nat) (node : Option (Nat × Nat)) (record : List Byte) (s : State) : State :=
  let s := s.modLaunch l fun _ => { st := .loading, q := q, node := node, record := record }
  s.modLaunch l fun u => { u with cores := s.coresNamed l }

/-- An entry is taken (R355 to R358): the queue is Running, or the entry is refused as it stands. -/
def startEntry (q : Nat) (s : State) : State :=
  let u := s.queue q
  let b := s.headEntry q
  let s := { s with lastQueue := Tbl.set 63 s.lastQueue u.eprio q }
  let s := s.modQueue q fun u =>
    { u with st := .running, entry := b, head := u.head + 1, started := false, errorNext := false, eprio := u.prio }
  if !entryOK u.ctlq b then endWith q { status := 3 } s
  else if entryNat b 0 1 = 1 then startLoading q q none b s
  else s

/-- QUEUE_ENTRY_START (R358). -/
def execQueueEntryStart (s : State) : Outcome :=
  event (do
    match (← get).nextQueue with
    | none => enabled false
    | some q => modify (startEntry q)) s

/-- QUEUE_PROMOTION (R358): a queue that has waited QPROMO.T µs rises by one priority. -/
def execQueuePromotion (q : Nat) (s : State) : Outcome :=
  event (do
    let s ← get
    enabled (decide (q < 64) && s.waiting q && field (s.reg 0x08) 0 32 != 0 && decide ((s.queue q).eprio > 0))
    modify fun s => s.modQueue q fun u => { u with eprio := u.eprio - 1 }) s

/-- A queue that performs an entry of a kind it has not begun. -/
def State.performs (s : State) (q kind : Nat) : Bool :=
  let u := s.queue q
  decide (q < 64) && u.st == .running && entryNat u.entry 0 1 == kind && !u.started && !u.closing

/-! ### The accesses of entries -/

/-- How a unit accesses memory for an entry, through its PTROOT and ASID (R359, R364). -/
def entryEnv (core : Nat) (b : List Byte) (launch : Nat) : Env :=
  { core := core, tlb := false, launch := launch, ptroot := entryNat b 8 8 % 2 ^ 52 / 4096 * 4096, asid := entryNat b 2 2
    priv := 0, mig := false, pslot := 0, imageOf := none }

/-- Where the word of an EVENT entry or a graph node lies: the queue unit stands in no core or cluster, so that a local
aperture, or the window, is not there for it (DEDUCED, log entry 43). -/
def wordLoc (e : Env) (va kind : Nat) : M Loc := do
  if va / 2 ^ 55 % 4 = 1 ∨ va / 2 ^ 55 % 4 = 3 then noAperture va
  else if va % 8 != 0 then fault 4 3 (BitVec.ofNat 64 va)
  else resolve e va 8 kind

/-- A word is read (R334, R364): an acquire at `.sy` (DEDUCED, log entry 43). -/
def readWord (e : Env) (va : Nat) : M Word := do
  match ← wordLoc e va accRead with
  | .mem p _ =>
    lineFree .home p
    modify (lineRead .home 0 p)
    return BitVec.ofNat 64 (leNat ((← get).bytes p 8))
  | .bank p =>
    lineFree .home p
    return BitVec.ofNat 64 (leNat ((← get).bytes p 8))
  | .regs _ => fault 6 1 (BitVec.ofNat 64 va)
  | _ => noAperture va

/-- A word is written as a release at `.sy` (R364): one in host memory that is not cached is performed with its GO, which the
entry awaits (R306, R308) (DEDUCED, log entry 43). -/
def writeWord (e : Env) (va : Nat) (v : Word) : M Unit := do
  match ← wordLoc e va accWrite with
  | .mem p mt =>
    if mt = 3 then
      let id ← newId
      addPost { id := id, key := noKey, core := 0, slot := 0, launch := e.launch, stream := 0, dest := hostDest, seq := 0
                st := .waiting, va := BitVec.ofNat 57 va, place := p, bytes := leBytes 8 v.toNat, marker := none, copy := none
                kind := 3 }
    else
      lineWritable .home p
      modify fun s => s.store { kind := 3, die := 4 } p (leBytes 8 v.toNat)
  | .bank p =>
    lineWritable .home p
    modify fun s => s.store { kind := 3, die := 4 } p (leBytes 8 v.toNat)
  | .event cl off _ => if off % 8 = 0 ∧ off < 0x200 then modify (fireLine cl (off / 8) v) else noAperture va
  | .regs _ => fault 6 2 (BitVec.ofNat 64 va)
  | _ => noAperture va

/-- What a unit does for an entry: a fault ends the entry (R364), and a wait leaves it as it is. -/
def entryTry (q : Nat) (act : M Unit) : M Unit := do
  let s ← get
  match act.run s with
  | .ok _ s' => set s'
  | .error (.trap t) s' => set (endLaunch q (faultReport t) s')
  | .error _ s' => waitsAt s s'

/-! ### COPY and EVENT -/

/-- The number of the launch that the copies of entries stand in, which is none. -/
def copyLaunch (q : Nat) : Nat := 2 ^ 20 + q

/-- Whether the engine of a cluster holds as many copies as it can: 8,192, and 1,024 of the core whose place a COPY entry takes
(R4, R238). -/
def State.engineFull (s : State) (cl : Nat) : Bool :=
  decide (s.copiesOf (cl * 8) ≥ 1024) || decide ((s.copies.filter fun c => c.cl == cl && !c.stopped).length ≥ 8192)

/-- A COPY entry enters the engine of its cluster as a `cpy` once there is room (R4, R364); its posted stores count as those of
the cluster's first core (DEDUCED, log entries 41 and 43). -/
def entryCopy (q : Nat) (node : Option Nat) (b : List Byte) : M Unit := do
  let cl := entryNat b 0x48 2 / 64 % 4 * 64 + entryNat b 0x48 2 % 64
  if ((← get).die (dieOfCluster cl)).dead then fault 24 0 (BitVec.ofNat 64 (dieOfCluster cl))
  if (← get).engineFull cl then heldAgain
  let w := BitVec.ofNat 64 (entryNat b 0x20 8)
  if !shapeOK w 0 false then coproc 0x10 w
  let done := entryNat b 0x38 8
  if done % 8 != 0 then coproc 0x11 (BitVec.ofNat 64 done)
  let sh := copyShape w (BitVec.ofNat 64 (entryNat b 0x28 8)) (BitVec.ofNat 64 (entryNat b 0x30 8))
  let place := entryNat b 0x48 2
  let core := (place / 64 % 4 * 64 + place % 64) * 8
  let id ← newId
  let c : Copy :=
    { id := id, launch := copyLaunch q, key := none, core := core, slot := 0, cl := clusterOfCore core, tag := 0
      env := entryEnv core b (copyLaunch q), x := sh.x, rows := sh.rows, planes := sh.planes, sr := sh.sr, dr := sh.dr
      sp := sh.sp, dp := sh.dp, src := entryNat b 0x18 8 % 2 ^ 57, dst := entryNat b 0x10 8 % 2 ^ 57, table := 0
      astage := false, fmt := 0, scale := 0, stream := place / 256 % 16, mode := 0, pool := 0, ring := 0, bsz := 0
      follow := none
      done := if done = 0 then none else some (done % 2 ^ 57, BitVec.ofNat 64 (entryNat b 0x40 8)), bar := none, next := 0
      total := 0, landed := 0, cow := [], wrote := [], req := none, stopped := false, faulted := false
      queueEntry := some q, node := node }
  modify fun s => { s with copies := s.copies ++ [{ c with total := c.lines }] }

/-- COPY (R364). -/
def execCopy (q : Nat) (s : State) : Outcome :=
  event (do
    let s ← get
    enabled (s.performs q 3)
    modify fun s => s.modQueue q fun u => { u with started := true }
    entryTry q (entryCopy q none (s.queue q).entry)) s

/-- EVENT_SIGNAL (R364). -/
def execEventSignal (q : Nat) (s : State) : Outcome :=
  event (do
    let s ← get
    let b := (s.queue q).entry
    enabled (s.performs q 4 && entryNat b 1 1 % 2 == 1)
    entryTry q (do
      writeWord (entryEnv 0 b (copyLaunch q)) (entryNat b 0x10 8) (BitVec.ofNat 64 (entryNat b 0x18 8))
      modify (endWith q { status := 0 }))) s

/-- The comparisons of an EVENT wait (R364). -/
def waitHolds (cmp : Nat) (w v : Word) : Bool :=
  if cmp = 0 then w == v else if cmp = 1 then w != v else decide (v.toNat ≤ w.toNat)

/-- EVENT_WAIT (R364): the comparison holds, or the access faults. -/
def execEventWait (q : Nat) (s : State) : Outcome :=
  event (do
    let s ← get
    let b := (s.queue q).entry
    enabled (s.performs q 4 && entryNat b 1 1 % 2 == 0)
    entryTry q (do
      let w ← readWord (entryEnv 0 b (copyLaunch q)) (entryNat b 0x10 8)
      if waitHolds (entryNat b 1 1 / 2) w (BitVec.ofNat 64 (entryNat b 0x18 8)) then modify (endWith q { status := 0 })
      else heldAgain)) s

/-! ### Task graphs -/

/-- A node that the graph unit accepts (R333): a successor that the graph does not have, and bytes 0x38 to 0x3F that are not 0,
are refused too, where R333 names KIND alone (DESIGN CHOICE, log entry 72). -/
def nodeOK (b : List Byte) (count : Nat) : Bool :=
  let w := entryNat b 0 4
  let ns := bitsAt w 4 4
  decide (1 ≤ w % 16 ∧ w % 16 ≤ 7 ∧ ns ≤ 8) && bitsAt w 23 9 == 0 && entryNat b 0x30 8 == 0 && zeroFrom b 0x38 &&
    (List.range ns).all fun i => decide (entryNat b (0x20 + 2 * i) 2 < count)

/-- The nodes of a graph are read (R361 gives the refusal where they cannot be). -/
def checkNodes (q count : Nat) : Nat → Rec Unit
  | 0 => return ()
  | k + 1 => do
    let b ← readRec q (((← get).launch q).nodeVa k) 64
    refuseIf (!nodeOK b count) 0
    checkNodes q count k

/-- GRAPH (R334, R364): the nodes are read; node 0 is ready, and each other node waits for its edges
(DEDUCED, log entry 42). -/
def execGraph (q : Nat) (s : State) : Outcome :=
  event (do
    let s0 ← get
    enabled (s0.performs q 2)
    let s := s0.modQueue q fun u => { u with started := true }
    let s := s.modLaunch q fun _ => { st := .running, q := q, record := (s.queue q).entry }
    let n := (s.launch q).nodeCount
    match (checkNodes q n n).run s with
    | .error r s =>
      if r = recHeld then waitsAt s0 s
      else if r = 7 then set (refuse q 7 s)
      else
        set (endLaunch q { status := 2, a := Config.freeWord s.fresh, b := Config.freeWord (s.fresh + 1) }
          { s with fresh := s.fresh + 2 })
    | .ok _ s =>
      set s
      unheld s0 q (useGraph q)
      modify fun s => setNodeSt q 0 1 ((List.range n).foldl (fun s i => waitNode q i (s.fullCount q i) s) s)) s

/-- A word that a node names. -/
def nodeWord (q n : Nat) : M Word := do
  let s ← get
  readWord (entryEnv 0 (s.launch q).record (copyLaunch q)) (s.node q n 8 8)

/-- A switch node delivers done to one successor and skip to the others (R334). -/
def choose (s : State) (q n i : Nat) : List (Nat × Bool) := (s.succs q n).zipIdx.map fun p => (p.1, p.2 == i)

/-- Done to the first successor and nothing to the others (R334). -/
def takeFirst (s : State) (q n : Nat) : List (Nat × Bool) := ((s.succs q n).take 1).map fun m => (m, true)

/-- Done to the second successor and skip to the first (R334). -/
def takeSecond (s : State) (q n : Nat) : List (Nat × Bool) := (choose s q n 1).take 2

/-- A loop node goes round (R334): the body returns to waiting, and its first node has its edge
(DEDUCED, log entry 42). -/
def loopAgain (q n : Nat) (s : State) : State :=
  let it := s.node q n 4 4
  let arg := s.node q n 0x18 4
  let s := setNode q n 4 (leBytes 4 (it + 1)) s
  let body := (List.range (arg / 65536)).map fun i => arg % 65536 + i
  let s := body.foldl (fun s b => waitNode q b (s.fullCount q b) s) s
  let s := waitNode q n 1 s
  endGraph q (deliver q graphFuel (takeFirst s q n) s)

/-- A ready node runs, or a waiting one looks at its word again (R334) (DEDUCED, log entry 42). -/
def runNode (q n : Nat) : M Unit := do
  let s ← get
  let u := s.launch q
  match s.nodeKind q n with
  | 3 =>
    match (readRec q (s.node q n 0x18 8) 128).run s with
    | .error r s' =>
      set (if r = recHeld then s' else refuse q 7 s')
      if r = recHeld then heldAgain
    | .ok b s' =>
      if entryNat b 0 1 != 3 || !entryOK false b then set (endLaunch q { status := 3 } s')
      else
        set (setNodeSt q n 2 s')
        entryCopy q (some n) b
  | 4 =>
    let w ← nodeWord q n
    if w = BitVec.ofNat 64 (s.node q n 0x10 8) then modify (nodeDoneAll q n)
    else if s.nodeSt q n = 1 then modify (setNodeSt q n 2)
    else heldAgain
  | 5 =>
    let w ← nodeWord q n
    modify (nodeDone q n (if w != 0 then takeFirst s q n else takeSecond s q n))
  | 6 =>
    let w ← nodeWord q n
    if w.toInt < (BitVec.ofNat 64 (s.node q n 0x10 8)).toInt then modify (loopAgain q n)
    else modify (nodeDone q n (takeSecond s q n))
  | 7 =>
    let w ← nodeWord q n
    if w.toNat < (s.succs q n).length then modify (nodeDone q n (choose s q n w.toNat))
    else
      let left := ((List.range u.nodeCount).filter fun m => s.nodeSt q m == 0).length
      modify (endLaunch q { status := 6, a := BitVec.ofNat 64 left })
  | _ =>
    match (readRec q (s.node q n 0x18 8) 128).run s with
    | .error r s' =>
      set (if r = recHeld then s' else refuse q 7 s')
      if r = recHeld then heldAgain
    | .ok b s' =>
      if !recordOK b then set (endLaunch q { status := 3 } s')
      else if !s'.recordReady b then heldAgain
      else set (startLoading (nodeLaunch q n) q (some (q, n)) b (setNodeSt q n 2 s'))

/-- GRAPH_NODE (R334): a ready node runs, or a wait node that runs sees its word. -/
def execGraphNode (q n : Nat) (s : State) : Outcome :=
  event (do
    let s ← get
    let st := s.nodeSt q n
    enabled (decide (q < 64) && (s.launch q).st == .running && (s.launch q).isGraph && decide (n < (s.launch q).nodeCount) &&
      (st == 1 || (st == 2 && s.nodeKind q n == 4)))
    unheld s q (useGraph q)
    entryTry q (runNode q n)) s

end Sys2Proof.Machine
end

