-- ==== Sys2Proof/Machine/Switch.lean ====
section
/-!
DEFINITION. Pre-emption: SWITCH entries (16 R372 to R376) and VACATE entries (16 R377 to R379), with the order among them and
rollbacks (18 R396).
-/

namespace Sys2Proof.Machine

open Sys2Proof

/-! ### Stopping contexts -/

/-- A context is Absent from its next instruction boundary (R312, R372): a wait that a trap would end is abandoned, and one
at a barrier stands (DEDUCED, log entry 45). -/
def makeAbsent (key : Nat) (s : State) : State :=
  let core := coreOfKey key
  let s := if (s.ctx key).barred.isSome then s else abandonWait key s
  let s := if (s.core core).stopped = some key then s.modCore core fun k => { k with stopped := none } else s
  s.modCtx key fun c => { c with saved := if c.st == .gated then c.saved else c.st, st := .absent }

/-- Whether a context stands at a boundary where it can be stopped (DEDUCED, log entry 45). -/
def State.atBoundary (s : State) (key : Nat) : Bool :=
  let c := s.ctx key
  c.st != .absent && c.st != .migrating && !s.accessWaits key

/-- Whether an entry of the matrix queue is an `mseq` that a switch-out or a vacate has stopped (R230). -/
def State.seqStopped (s : State) (m : MEnt) : Bool :=
  let c := s.ctx m.key
  m.cmd.isNone && c.st == .absent && c.pend.head?.any fun p => p.seq == m.seq && p.op.isSeq

/-- Whether the oldest instruction in flight of a stopped context stays in flight: it is an `mseq`, or stands behind a
stopped one in the matrix queue (R230, R372) (DEDUCED, log entry 44). -/
def State.staysInFlight (s : State) (key : Nat) : Bool :=
  match (s.ctx key).pend with
  | [] => false
  | p :: _ => p.op.queues && (p.op.isSeq ||
      ((s.cluster (clusterOfCore (coreOfKey key))).queue.takeWhile fun m => !(m.key == key && m.seq == p.seq)).any s.seqStopped)

/-- Whether stopped contexts are done with what they had in flight (R372, R378): their vector and matrix instructions, and
the posted stores of their cores. -/
def State.drained (s : State) (keys cores : List Nat) : Bool :=
  keys.all (fun k => (s.ctx k).st == .absent &&
    (((s.ctx k).pend.isEmpty && !(s.ctx k).spillDue) || s.staysInFlight k)) &&
    !s.posts.any fun p => cores.contains p.core && p.st != .lost

/-- What stopped contexts' instructions in flight have asked for is dropped; they ask again when they go on. -/
def dropRequests (keys : List Nat) (s : State) : State :=
  let reqs := keys.flatMap fun k => (s.ctx k).pend.filterMap (·.req)
  keys.foldl (fun s k => s.modCtx k fun c => { c with pend := c.pend.map fun p => { p with req := none } })
    { s with wreqs := s.wreqs.filter fun r => !reqs.contains r.id }

/-- Whether a rollback of a launch is in progress (R396). -/
def State.rollingIn (s : State) (l : Nat) : Bool := (s.launchCtxs l).any fun k => (s.ctx k).rolling

/-- The launches that a queue runs, but for the graph itself. -/
def State.targets (s : State) (t : Nat) : List Nat := (s.queueLaunches t).filter fun l => !(s.launch l).isGraph

/-! ### The save area -/

/-- Bytes of a save area are written, within one page (R373). -/
def saveBytes (l va : Nat) (bs : List Byte) : M Unit := do
  let va := va % 2 ^ 57
  let (pa, mt) ← translate ((← get).launchEnv l) va accWrite
  match ← physLoc va pa mt with
  | .mem p _ => modify (devWrite p bs)
  | _ => noAperture va

/-- Bytes with their marks from one place to another (DEDUCED, log entries 16 and 50). -/
def copyPlaces (src dst : Nat) : Nat → State → State
  | 0, s => s
  | n + 1, s => copyPlaces (src + 1) (dst + 1) n (s.setByteMarked dst (s.byte src) (s.byteMark src))

/-- A page of a save area, as the device reaches it to write or to read it: each of its lines is taken at its home first (R307,
R373). -/
def takePage (l va kind : Nat) : M Nat := do
  let (pa, mt) ← translate ((← get).launchEnv l) (va % 2 ^ 57) kind
  match ← physLoc va pa mt with
  | .mem p _ =>
    (List.range 32).forM fun i =>
      if kind = accWrite then do
        lineWritable .home (p + 128 * i)
        modify fun s => logWrite (p + 128 * i) 128 (lineWritten .home (p + 128 * i) s)
      else do
        lineFree .home (p + 128 * i)
        modify (lineRead .home 0 (p + 128 * i))
    return p
  | _ => noAperture va

/-- `n` pages of a save area are taken in turn: what is done with each. -/
def eachPage (l va kind n : Nat) (act : Nat → Nat → State → State) : M Unit :=
  (List.range n).forM fun i => do
    let p ← takePage l (va + 4096 * i) kind
    modify (act i p)

/-- Pages of a unit's memory are written to a save area. -/
def savePages (l va place n : Nat) : M Unit :=
  eachPage l va accWrite n fun i p => copyPlaces (place + 4096 * i) p 4096

/-- Pages of a unit's memory are read back from a save area. -/
def loadPages (l va place n : Nat) : M Unit :=
  eachPage l va accRead n fun i p s => copyPlaces p (place + 4096 * i) 4096 (logWrite (place + 4096 * i) 4096 s)

/-- A page of free bytes (R373) (DEDUCED, log entry 44). -/
def freePage (p : Nat) (s : State) : State :=
  { (s.setBytes p ((List.range 512).flatMap fun i => leBytes 8 (Config.freeWord (s.fresh + i)).toNat)) with
    fresh := s.fresh + 512 }

/-- Pages of a save area whose bytes R373 leaves open are written with free bytes (DEDUCED, log entry 44). -/
def freePages (l va n : Nat) : M Unit := eachPage l va accWrite n fun _ p => freePage p

/-- Pages of a save area are read (R376). -/
def probePages (l va n : Nat) : M Unit := eachPage l va accRead n fun _ _ s => s

/-- A page of a cluster's accumulators: 256 elements of a tile. -/
def saveAccPage (cl page p : Nat) (s : State) : State :=
  s.setBytes p ((List.range 256).flatMap fun e => leBytes 16 (Tbl.get 0 (s.cluster cl).acc (page * 256 + e)).toNat)

/-- A page of a cluster's accumulators comes back, where a core of the launch holds its tile. -/
def loadAccPage (cores : List Nat) (cl page p : Nat) (s : State) : State :=
  let o := Tbl.get 0 (s.cluster cl).owner (page / 64)
  if o != 0 && cores.contains (o - 1) then
    s.modCluster cl fun c => { c with acc := (List.range 256).foldl (fun a e =>
      Tbl.set 0 a (page * 256 + e) (BitVec.ofNat 128 (leNat (s.bytes (p + 16 * e) 16)))) c.acc }
  else s

/-- A cluster's accumulators are written to a save area, tile after tile and row after row (DEDUCED, log entry 44). -/
def saveAcc (l va cl : Nat) : M Unit := eachPage l va accWrite 256 (saveAccPage cl)

/-- The accumulators that a launch's cores hold are read back (DEDUCED, log entry 44). -/
def loadAcc (l va cl : Nat) (cores : List Nat) : M Unit := eachPage l va accRead 256 (loadAccPage cores cl)

/-- SAVE (R360): 2 MiB aligned, so that its lower bits count for nothing (DEDUCED, log entry 44). -/
def Launch.saveVa (u : Launch) : Nat := u.f 0x70 8 % 2 ^ 57 / 2 ^ 21 * 2 ^ 21

/-- The dies whose cores all take part in a launch. -/
def wholeDies (cores : List Nat) : List Nat :=
  (cores.map dieOfCore).eraseDups.filter fun d => (List.range 512).all fun i => cores.contains (d * 512 + i)

/-- Where a save area holds a core's scratchpad, or its image (R373, R378). -/
def scratchRecord (k : Nat) : Nat := 0x10000000 + 0xC00000 * clusterOfCore k + 0x800000 + 0x80000 * (k % 8)

/-- The ranges of units' memory that a save area holds, but for the scratchpads of cores (R373): offset there, place, and
pages. -/
def savedRanges (cores : List Nat) : List (Nat × Nat × Nat) :=
  let cluster := fun cl => 0x10000000 + 0xC00000 * cl
  ((cores.map clusterOfCore).eraseDups.map fun cl => (cluster cl + 0x400000, placeStage cl 0, 64)) ++
    ((wholeClusters cores).map fun cl => (cluster cl + 0x480000, placeCluster cl 0, 512)) ++
    ((wholeDies cores).map fun d => (0xD0000000 + 0x5000000 * d, placeDie d 0, 16384))

/-- Where a save area holds a cluster's record (R373). -/
def clusterRecord (u : Launch) (cl : Nat) : Nat := u.saveVa + 0x10000000 + 0xC00000 * cl

/-- The ranges of a save area whose bytes R373 leaves open: the control regions, copy records and weight slots of clusters,
and the scheduler state of dies (DEDUCED, log entry 44). -/
def openRanges (cores : List Nat) (copies : Nat → Nat) : List (Nat × Nat) :=
  ((cores.map clusterOfCore).eraseDups.flatMap fun cl =>
    let c := 0x10000000 + 0xC00000 * cl
    [(c, 16), (c + 0x10000, (64 * copies cl + 4095) / 4096), (c + 0x200000, 512)]) ++
    (cores.map dieOfCore).eraseDups.map fun d => (0xD4000000 + 0x5000000 * d, 4096)

/-! ### Context records -/

/-- The number of a context state, in the order of R311 (DEDUCED, log entry 44). -/
def CtxState.number : CtxState → Nat
  | .free => 0
  | .ready => 1
  | .held => 2
  | .sleeping => 3
  | .gated => 4
  | .migrating => 5
  | .absent => 6

/-- The state that a record's number stands for, of those that a record holds (DEDUCED, log entry 44). -/
def CtxState.ofNumber (n : Nat) : CtxState := if n = 2 then .held else if n = 3 then .sleeping else .ready

/-- Words as bytes. -/
def wordBytes (ws : List Word) : List Byte := ws.flatMap fun w => leBytes 8 w.toNat

/-- A ring entry as a context record holds it (R374). -/
def RingEnt.words (e : RingEnt) : List Word :=
  if e.used then [e.pc.setWidth 64, e.w.setWidth 64, e.w.extractLsb' 64 64, e.dra, e.drb, e.status] else [0, 0, 0, 0, 0, 0]

/-- The pieces of a context record (R374): offset and bytes. The words of the held-trap area after the held traps hold a
member's checkpoint, as free words (R396) (DEDUCED, log entry 44). -/
def ctxPieces (s : State) (key : Nat) : List (Nat × List Byte) :=
  let c := s.ctx key
  let owner := match c.owner with
    | some k => slotOfKey k
    | none => 0
  let poison := ((List.range 64).map fun i => if c.mark i != 0 then 2 ^ i else 0).sum
  let held := ((c.due.take 8).flatMap fun t => [causeWord c.inUpdate t, t.val]) ++
    (if c.check.isSome then (List.range (16 - 2 * min 8 c.due.length)).map fun i => Config.freeWord (s.fresh + i) else [])
  let ring := (List.range 64).flatMap fun j => (Tbl.get {} c.ring j).words
  [(0, wordBytes (c.pc.setWidth 64 :: (List.range 63).map fun i => c.xr (i + 1))),
   (0x200, wordBytes [s.srOf key, c.pfx, c.epc.setWidth 64, c.ecause, c.etval, c.esr]),
   (0x230, leBytes 8 ((if c.live then c.saved else .free).number + c.grant * 2 ^ 8 + c.request * 2 ^ 12)),
   (0x238, leBytes 8 (c.pslot + owner * 2 ^ 32 + (if c.standing == .control then 2 ^ 48 else 0))),
   (0x240, wordBytes held),
   (0x2C0, leBytes 8 c.drseq.toNat),
   (0x300, leBytes 8 c.mail.length),
   (0x308, wordBytes c.mail),
   (0x350, leBytes 8 poison),
   (0x358, leBytes 8 c.replay.length),
   (0x360, c.replay.flatMap fun e => leBytes 2 e.seq.toNat),
   (0x400, wordBytes ring)]

/-- Where a context's record lies (R373). -/
def ctxRecordVa (u : Launch) (key : Nat) : Nat := u.saveVa + 0x100000 + 0x1000 * key

/-- A ring entry read back. -/
def ringOf (ws : List Word) : RingEnt :=
  let st := ws.getD 5 0
  { used := st.getLsbD 0, seq := BitVec.ofNat 16 (field st 16 16), pc := (ws.getD 0 0).setWidth 57
    w := (ws.getD 2 0) ++ (ws.getD 1 0), dra := ws.getD 3 0, drb := ws.getD 4 0, pfxp := st.getLsbD 48
    pfxv := BitVec.ofNat 14 (field st 34 14), can := st.getLsbD 3, flt := st.getLsbD 2, done := st.getLsbD 1 }

/-- A held trap read back: what ECAUSE and ETVAL do not hold comes from the trap as saved (R374). -/
def trapOf (cause val : Word) (t : Trap) : Trap :=
  let kind := if cause.getLsbD 32 then .imprecise else if cause.getLsbD 33 then .after
    else if t.kind == .async then .async else .precise
  { t with kind := kind, code := BitVec.ofNat 8 (field cause 0 8), sub := BitVec.ofNat 8 (field cause 8 8), val := val
           seq := BitVec.ofNat 16 (field cause 16 16), tag := cause.getLsbD 34
           at' := if val = t.val then t.at' else val.setWidth 57 }

/-- The entries queued for replay, by their numbers (R38, R374): those of the ring, or as saved where the ring holds them no
more. -/
def replayOf (ring : Tbl RingEnt) (saved : List RingEnt) (seqs : List (BitVec 16)) : List RingEnt :=
  seqs.filterMap fun q =>
    match saved.find? fun e => e.seq == q with
    | some e => some e
    | none =>
      let e := Tbl.get {} ring (q.toNat % 64)
      if e.used && e.seq == q then some e else none

/-- A context as its record gives it; what the record does not hold comes from the context as saved
(DEDUCED, log entry 44). -/
def ctxOfRecord (b : List Byte) (c : Ctx) : Ctx :=
  let w := fun off => BitVec.ofNat 64 (entryNat b off 8)
  let poison := entryNat b 0x350 8
  let stand := entryNat b 0x230 8
  let role := entryNat b 0x238 8
  let st := CtxState.ofNumber (bitsAt stand 0 3)
  let regs := (List.range 63).map (· + 1)
  let c := regs.foldl (fun (c : Ctx) i =>
    c.setXMarked i (w (8 * i)) (if poison.testBit i then (if c.mark i = 0 then markOf 0 false else c.mark i) else 0)) c
  let ring := (List.range 64).foldl (fun t j =>
    Tbl.set {} t j (ringOf ((List.range 6).map fun i => w (0x400 + 48 * j + 8 * i)))) []
  let seqs := (List.range (min 64 (bitsAt (entryNat b 0x358 8) 0 7))).map fun i => BitVec.ofNat 16 (entryNat b (0x360 + 2 * i) 2)
  { c with pc := (w 0).setWidth 57
           sr := (w 0x200 &&& 0xFF0F7F#64)
           pfx := w 0x208 &&& 0x3FFF#64
           epc := (w 0x210).setWidth 57 &&& ~~~3#57
           ecause := w 0x218 &&& 0xFFFFFFFFF#64
           etval := w 0x220
           esr := w 0x228
           st := st
           wait := if st == c.saved then c.wait else .none
           grant := min 8 (bitsAt stand 8 4)
           request := min 8 (bitsAt stand 12 4)
           pslot := bitsAt role 0 32
           owner := c.owner.map fun k => keyOf (coreOfKey k) (bitsAt role 32 4)
           standing := if bitsAt role 48 16 = 1 then .control else if c.standing == .control then .helper else c.standing
           due := (c.due.take 8).zipIdx.map fun t => trapOf (w (0x240 + 16 * t.2)) (w (0x248 + 16 * t.2)) t.1
           drseq := BitVec.ofNat 16 (entryNat b 0x2C0 2)
           mail := (List.range (min 8 (entryNat b 0x300 8))).map fun i => w (0x308 + 8 * i)
           replay := replayOf ring c.replay seqs
           ring := ring }

/-! ### Switching out -/

/-- The binding table as the save area holds it: group by group in the order of the records (R373)
(DEDUCED, log entry 44). -/
def bindBytes (u : Launch) : List Byte :=
  u.groups.flatMap fun g => (List.range g.members.length).flatMap fun r =>
    leBytes 2 (Tbl.get 0 u.bind (bindKey g.g r)).toNat

/-- Bytes are written piece by piece, each within a line. -/
def saveList (l va : Nat) (bs : List Byte) : Nat → M Unit
  | 0 => return ()
  | n + 1 => do
    if bs.isEmpty then return ()
    let k := 128 - va % 128
    saveBytes l va (bs.take k)
    saveList l (va + k) (bs.drop k) n

/-- A context's lanes are spilled, and its record is written (R372, R374). -/
def saveCtx (l key : Nat) : M Unit := do
  let s ← get
  spillLanes key 0 (s.ctx key).vl
  let va := ctxRecordVa (s.launch l) key
  (ctxPieces s key).forM fun p => saveList l (va + p.1) p.2 (p.2.length / 128 + 2)
  if (s.ctx key).check.isSome then modify fun s => { s with fresh := s.fresh + 16 }

/-- How many copies of a launch are in a cluster's engine. -/
def State.copiesIn (s : State) (l cl : Nat) : Nat := (s.copies.filter fun c => c.launch == l && c.cl == cl).length

/-- A core's scratchpad is written to a save area, and CSPLIT after it where the L1 leaves room (R373)
(DEDUCED, log entry 44). -/
def saveScratch (l k : Nat) : M Unit := do
  let s ← get
  let va := (s.launch l).saveVa + scratchRecord k
  savePages l va (placeCore k 0) (s.scratchSize k / 4096)
  if (s.core k).split != 0 then saveBytes l (va + s.scratchSize k) (leBytes 8 (s.core k).split.toNat)

/-- The Free slots of a launch's cores in which messages wait (R253). -/
def State.mailSlots (s : State) (l : Nat) : List Nat :=
  ((s.launch l).cores.flatMap fun k => (List.range 11).map (keyOf k)).filter fun key =>
    !(s.ctx key).live && (!(s.ctx key).mail.isEmpty || (s.die (dieOfCore (coreOfKey key))).parked.any (·.key == key))

/-- The slots of a launch's cores whose records a switch writes: those of its contexts, and those in which messages wait
(R253, R373). -/
def State.savedSlots (s : State) (l : Nat) : List Nat := s.launchCtxs l ++ s.mailSlots l

/-- The save area of a launch is written (R373): one that is still in Loading has its record alone (DEDUCED, log entry 44). -/
def saveArea (l : Nat) : M Unit := do
  let s ← get
  let u := s.launch l
  saveList l u.saveVa u.record (u.record.length / 128 + 2)
  if u.st == .loading then return ()
  let bind := bindBytes u
  saveList l (u.saveVa + 0x1000) bind (bind.length / 128 + 2)
  (s.savedSlots l).forM fun k => saveCtx l k
  (openRanges u.cores (s.copiesIn l)).forM fun r => freePages l (u.saveVa + r.1) r.2
  ((u.cores.map clusterOfCore).eraseDups).forM fun cl => saveAcc l (clusterRecord u cl + 0x100000) cl
  u.cores.forM fun k => saveScratch l k
  (savedRanges u.cores).forM fun r => savePages l (u.saveVa + r.1) r.2.1 r.2.2

/-- What a launch's units hold is taken out of the part, and its slots, lanes and claims are freed (R372)
(DEDUCED, log entry 44). -/
def takeUnits (l : Nat) (s : State) : State :=
  let u := s.launch l
  let keys := s.savedSlots l
  let s := dropRequests keys s
  let cls := (u.cores.map clusterOfCore).eraseDups
  let saved : List Saved := keys.map fun k => { key := k, ctx := s.ctx k }
  let dies := (u.cores.map dieOfCore).eraseDups
  let units : SavedUnits :=
    { lost := s.posts.filter fun p => keys.contains p.key && p.st == .lost
      parked := dies.flatMap fun d => ((s.die d).parked.filter fun p => keys.contains p.key).map fun p => (d, p)
      cores := u.cores.map fun k => (k, s.core k)
      clusters := cls.map fun c => (c, s.cluster c)
      copies := (s.copies.filter (·.launch == l)).map fun c => { c with req := none }
      bards := s.bards.filter (·.launch == l) }
  let reqs := (s.copies.filter (·.launch == l)).map (·.req)
  let s := { s with copies := s.copies.filter (·.launch != l), bards := s.bards.filter (·.launch != l)
                    wreqs := s.wreqs.filter fun r => !reqs.contains (some r.id) }
  let s := keys.foldl (fun s k => freeCtx k s) s
  let s := dies.foldl (fun s d => s.modDie d fun x => { x with parked := x.parked.filter fun p => !keys.contains p.key }) s
  let s := u.cores.foldl (fun s k => releaseAcc k s) s
  let s := cls.foldl (fun s cl => s.modCluster cl fun c =>
    { c with undo := c.undo.filter (·.launch != l), ovf := c.ovf.filter (·.1 != l)
             queue := c.queue.filter fun m => !(u.cores.contains m.core)
             seqr := if c.queue.head?.any fun m => u.cores.contains m.core then none else c.seqr }) s
  s.modLaunch l fun u => { u with st := .switched, saved := saved, units := units }

/-- A launch is switched out: one that is still in Loading holds no unit, and names its cores again when it comes back (R372)
(DEDUCED, log entry 44). -/
def takeOut (l : Nat) (s : State) : State :=
  if (s.launch l).st == .loading then s.modLaunch l fun u => { u with st := .switched, cores := [] } else takeUnits l s

/-- A switch-out reaches its end (R372): the launches are saved and taken out, or the save fails
(DEDUCED, log entry 44). -/
def finishSwitchOut (q t : Nat) (s : State) : State :=
  let ls := s.targets t
  match (ls.flatMap s.launchCtxs).findSome? fun k => (s.ctx k).due[8]?.map fun f => (k, f) with
  | some (k, f) =>
    let r : Report := { status := 1, code := f.code.toNat, sub := f.sub.toNat, a := (f.pc.getD (s.ctx k).pc).setWidth 64
                        b := f.val, core := coreOfKey k, ctx := slotOfKey k }
    endWith q r (endLaunch t r s)
  | none =>
    match (ls.forM saveArea).run s with
    | .ok _ s' =>
      let s := ls.foldl (fun s l => takeOut l s) s'
      let s := if (s.launch t).isGraph then s.modLaunch t fun u => { u with st := .switched } else s
      endWith q { status := 0 } (s.modQueue t fun u => { u with st := .switchedOut })
    | .error (.trap f) s' =>
      endWith q { status := 9, a := f.at'.setWidth 64 } (endLaunch t { status := 9, a := f.at'.setWidth 64 } s')
    | .error _ s' => keepMisses s s'

/-- The contexts of launches that can be stopped are stopped. -/
def stopAll (keys : List Nat) (s : State) : State :=
  (keys.filter s.atBoundary).foldl (fun s k => makeAbsent k s) s

/-- SWITCH_OUT (R372): it begins by stopping the target's launches, and ends once they are drained; a target that ends meanwhile
leaves nothing to switch out (DEDUCED, log entry 45). -/
def execSwitchOut (q : Nat) (s : State) : Outcome :=
  event (do
    let s ← get
    let u := s.queue q
    enabled (decide (q < 64) && u.st == .running && !u.closing && entryNat u.entry 0 1 == 6 && entryNat u.entry 1 1 == 0)
    let t := entryNat u.entry 0x10 8
    let ls := s.targets t
    let keys := ls.flatMap s.launchCtxs
    let cores := (ls.filter fun l => (s.launch l).st != .loading).flatMap fun l => (s.launch l).cores
    if !u.started then
      if (s.queue t).st != .running || (s.queueLaunches t).isEmpty then set (refuse q 8 s)
      else
        enabled (!ls.any s.rollingIn)
        let s := s.modQueue q fun u => { u with started := true }
        let s := writeProgress t (s.modQueue t fun u => { u with st := .switchingOut })
        let s := (s.queueLaunches t).foldl (fun s l => s.modLaunch l fun u =>
          { u with st := if u.st == .running || u.st == .ending then .frozen else u.st }) s
        set (stopAll keys s)
    else if (s.queue t).st != .switchingOut || (s.queue t).closing then set (refuse q 8 s)
    else if keys.any s.atBoundary then set (stopAll keys s)
    else
      enabled (s.drained keys cores)
      let s' := finishSwitchOut q t s
      enabled (s' != s)
      set s') s

/-! ### Switching in -/

/-- `n` bytes of a save area are read back (R376). -/
def readSaved (l va n : Nat) : M (List Byte) := do
  match (readRec l va n).run (← get) with
  | .ok b s =>
    set s
    return b
  | .error r s =>
    set s
    if r = recHeld then heldAgain else fault 0 0 (BitVec.ofNat 64 va)

/-- A context comes back with its record and its lanes (R376). -/
def restoreCtx (l : Nat) (x : Saved) : M Unit := do
  let b ← readSaved l (ctxRecordVa ((← get).launch l) x.key) 0x1000
  let c := if x.ctx.live then ctxOfRecord b x.ctx else { mail := (ctxOfRecord b x.ctx).mail }
  modify fun s => s.setCtx x.key { c with v := [], vp := [], sl := [], slp := [], mail := c.mail ++ (s.ctx x.key).mail }
  refillLanes x.key 0 c.vl
  modify fun s => joinGate x.key (deliverParked x.key s)

/-- The launch record and the binding table come back (R373, R376). -/
def restoreHeader (l : Nat) : M Unit := do
  let u := (← get).launch l
  let record ← readSaved l u.saveVa 128
  let n := (u.groups.map fun g => g.members.length).sum
  let bytes ← readSaved l (u.saveVa + 0x1000) (2 * n)
  let keys := u.groups.flatMap fun g => (List.range g.members.length).map fun r => bindKey g.g r
  let bind := keys.zipIdx.foldl (fun t k => Tbl.set 0 t k.1 (BitVec.ofNat 16 (entryNat bytes (2 * k.2) 2))) u.bind
  modify fun s => s.modLaunch l fun u => { u with record := record, bind := bind }

/-- A core's scratchpad and CSPLIT come back (R376) (DEDUCED, log entry 44). -/
def restoreScratch (l k : Nat) (saved : Core) : M Unit := do
  let va := ((← get).launch l).saveVa + scratchRecord k
  let new ← (if saved.split = 0 then pure 0 else do
    let b ← readSaved l (va + (8 - saved.split.toNat) * 65536) 8
    pure (min 8 (entryNat b 0 1)))
  modify (setSplit k new)
  loadPages l va (placeCore k 0) ((8 - new) * 16)

/-- The units of a launch come back (R376) (DEDUCED, log entry 44). -/
def restoreUnits (l : Nat) (s : State) : State :=
  let u := s.launch l
  let mine := fun (c : Nat) => u.cores.contains c
  let whole := wholeClusters u.cores
  let s := u.units.cores.foldl (fun s p => s.modCore p.1 fun k =>
    let k := { k with tag := p.2.tag, issued := p.2.issued, copies := p.2.copies, follow := p.2.follow }
    if gatewayCore p.1 then { k with gqueue := p.2.gqueue, gready := p.2.gready, gnext := p.2.gnext, gdone := p.2.gdone } else k) s
  let s := u.units.clusters.foldl (fun s p => s.modCluster p.1 fun c =>
    let old := p.2
    let tiles := old.owner.filter fun o => mine (o.2 - 1)
    let c := { c with owner := tiles.foldl (fun t o => Tbl.set 0 t o.1 o.2) c.owner, slots := old.slots
                      queue := c.queue ++ old.queue.filter fun m => mine m.core
                      seqr := if c.queue.isEmpty && old.queue.head?.any fun m => mine m.core then old.seqr else c.seqr
                      undo := (old.undo.filter (·.launch == l)) ++ c.undo, ovf := (old.ovf.filter (·.1 == l)) ++ c.ovf }
    if whole.contains p.1 then { c with lines := old.lines, counters := old.counters, mutexes := old.mutexes } else c) s
  let s := u.units.parked.reverse.foldl (fun s p => s.modDie p.1 fun d => { d with parked := p.2 :: d.parked }) s
  { s with copies := s.copies ++ u.units.copies, bards := s.bards ++ u.units.bards, posts := u.units.lost ++ s.posts }

/-- A launch that was switched out in Loading comes back to it (R372, R376) (DEDUCED, log entry 44). -/
def restoreLoading (l : Nat) : M Unit := do
  let record ← readSaved l ((← get).launch l).saveVa 128
  modify fun s =>
    let s := s.modLaunch l fun u => { u with st := .loading, record := record }
    s.modLaunch l fun u => { u with cores := s.coresNamed l }

/-- A launch that had begun comes back (R376) (DEDUCED, log entry 44). -/
def restoreBegun (l : Nat) : M Unit := do
  restoreHeader l
  modify (restoreUnits l)
  let s ← get
  let u := s.launch l
  (openRanges u.cores (s.copiesIn l)).forM fun r => probePages l (u.saveVa + r.1) r.2
  ((u.cores.map clusterOfCore).eraseDups).forM fun cl => loadAcc l (clusterRecord u cl + 0x100000) cl u.cores
  u.units.cores.forM fun k => restoreScratch l k.1 k.2
  (savedRanges u.cores).forM fun r => loadPages l (u.saveVa + r.1) r.2.1 r.2.2
  u.saved.forM fun x => restoreCtx l x
  modify fun s => s.modLaunch l fun u =>
    { u with st := if u.freezes.isEmpty && !u.stalled then .running else .frozen, saved := [], units := {} }

/-- A launch comes back (R376) (DEDUCED, log entry 44). -/
def restoreLaunch (l : Nat) : M Unit := do
  if ((← get).launch l).groups.isEmpty then restoreLoading l else restoreBegun l

/-- SWITCH_IN (R376). -/
def execSwitchIn (q : Nat) (s : State) : Outcome :=
  event (do
    let s ← get
    let u := s.queue q
    enabled (s.performs q 6 && entryNat u.entry 1 1 == 1)
    let t := entryNat u.entry 0x10 8
    if (s.queue t).st != .switchedOut then set (refuse q 8 s)
    else
      enabled (s.switchReady t)
      let s := s.modQueue t fun u => { u with st := .switchingIn }
      match ((s.switchedOf t).forM fun l => if (s.launch l).isGraph then
          modify (fun s => s.modLaunch l fun u => { u with st := .running }) else restoreLaunch l).run s with
      | .ok _ s' =>
        let s' := s'.modQueue t fun u =>
          { u with st := .running, tail := if u.shadowed then u.shadow else u.tail, shadowed := false }
        set (endWith q { status := 0 } (writeProgress t s'))
      | .error (.trap f) s' => set (endWith q { status := 0 } (endLaunch t { status := 9, a := f.at'.setWidth 64 } s'))
      | .error _ s' => waitsAt s s') s

/-! ### Vacating -/

/-- The cores that a VACATE entry lists (R364). -/
def vacateList (q : Nat) : Rec (List Nat) := do
  let b := ((← get).queue q).entry
  let n := entryNat b 0x20 8
  let bs ← readAs { entryEnv 0 b (copyLaunch q) with priv := 1 } (entryNat b 0x18 8) (2 * n)
  return (List.range n).map fun i => leNat ((bs.drop (2 * i)).take 2)

/-- The slots of a core that a vacate moves: those of the launches' contexts, and those that their helpers reserve (R377,
R378). -/
def State.heldSlots (s : State) (ls : List Nat) (k : Nat) : List Nat :=
  ((List.range 11).map (keyOf k)).filter fun key =>
    ((s.ctx key).live && ls.contains (s.ctx key).launch) ||
      s.ctxs.any fun p => p.2.live && ls.contains p.2.launch && p.2.home == some key

/-- The participating cores of launches. -/
def State.coresOf (s : State) (ls : List Nat) : List Nat := (ls.flatMap fun l => (s.launch l).cores).eraseDups

/-- The cores of a cluster that stay, in ascending order. -/
def staying (cores list : List Nat) (cl : Nat) : List Nat :=
  ((List.range 8).map (cl * 8 + ·)).filter fun k => cores.contains k && !list.contains k

/-- The first cluster without room for what a vacate would move (R377): the cluster, the slots needed, and those free. -/
def State.vacateShort (s : State) (ls list : List Nat) : Option (Nat × Nat × Nat) :=
  let cores := s.coresOf ls
  (list.map clusterOfCore).eraseDups.findSome? fun cl =>
    let need := ((list.filter fun k => clusterOfCore k == cl).map fun k => (s.heldSlots ls k).length).sum
    let free := ((staying cores list cl).map fun k => ((List.range 11).filter fun c => s.slotFree (keyOf k c)).length).sum
    if free < need then some (cl, need, free) else none

/-- The check of R377 that a VACATE fails, as its report. -/
def vacateRefusal (s : State) (t : Nat) (list : List Nat) : Option Report :=
  let ls := s.targets t
  let cores := s.coresOf ls
  let r := fun n => some { status := 2, a := BitVec.ofNat 64 n, b := Config.freeWord s.fresh : Report }
  if (s.queue t).st != .running then r 8
  else if list.eraseDups.length != list.length || list.any fun k => !cores.contains k then r 9
  else if (list.map clusterOfCore).any fun cl => (staying cores list cl).isEmpty then r 10
  else
    match s.vacateShort ls list with
    | some (cl, need, free) =>
      some { status := 2, a := BitVec.ofNat 64 (need * 65536 + free), b := BitVec.ofNat 64 cl }
    | none => none

/-- A vacated core leaves its copy tags and follow-on commands to the contexts that move from it; its copies keep their tags
(R379) (DEDUCED, log entry 45). -/
def leaveTables (l k : Nat) (s : State) : State :=
  let c := s.core k
  let s := s.modLaunch l fun u => { u with tables := Tbl.set {} u.tables k { copies := c.copies, follow := c.follow, issued := c.issued } }
  let tagged := fun (y : Copy) => if y.launch = l ∧ y.core = k ∧ y.origin.isNone then { y with origin := some k } else y
  { s with copies := s.copies.map tagged }

/-- One slot moves (R378): its context, with what names it, and its reservation (DEDUCED, log entry 45). -/
def moveSlot (old new : Nat) (s : State) : State :=
  let k := coreOfKey old
  let s := s.modDie (dieOfCore k) fun d =>
    { d with parked := d.parked.map fun p => if p.key = old then { p with key := new } else p }
  let rehome := fun (p : Nat × Ctx) => (p.1, if p.2.home = some old then { p.2 with home := some new } else p.2)
  let s := { s with ctxs := s.ctxs.map rehome }
  let c := s.ctx old
  if !c.live then s.modCtx new fun x => { x with mail := c.mail ++ x.mail }
  else
    let s := moveCtx old new s
    let s := s.modCtx new fun c => { c with st := c.saved, imageOf := some (c.imageOf.getD k), origins := k :: c.origins }
    let recore := fun (y : Copy) => if y.key = some new then
        { y with core := coreOfKey new, slot := slotOfKey new
                 env := { y.env with core := coreOfKey new, imageOf := some (y.env.imageOf.getD k) } }
      else y
    let s := { s with copies := s.copies.map recore }
    let s := s.modCluster (clusterOfCore k) fun u =>
      { u with queue := u.queue.map fun m => if m.key = new then { m with core := coreOfKey new, slot := slotOfKey new } else m }
    let s := if c.standing == .control then s.modCluster (clusterOfCore k) fun u =>
        { u with owner := u.owner.map fun o => (o.1, if o.2 = k + 1 then coreOfKey new + 1 else o.2) }
      else s
    joinGate new (deliverParked new s)

/-- The slots of one cluster move in turn to the cores that stay, going round (R378): the slots moved are answered with
their new places (DEDUCED, log entry 45). -/
def moveSlots : List Nat → List Nat → State → State × List (Nat × Nat)
  | [], _, s => (s, [])
  | old :: t, cores, s =>
    match cores.findIdx? fun k => (s.freeSlot k 0).isSome with
    | none => (s, [])
    | some i =>
      let k := cores.getD i 0
      let new := keyOf k ((s.freeSlot k 0).getD 0)
      let (s', m) := moveSlots t (cores.drop (i + 1) ++ cores.take (i + 1)) (moveSlot old new s)
      (s', (old, new) :: m)

/-- Binding entries of roles on listed cores follow (R320, R378). A role whose control context has ended is bound to the
first core that stays (DEDUCED, log entry 45). -/
def rebind (list : List Nat) (moved : List (Nat × Nat)) (stay : Nat → List Nat) (u : Launch) : Launch :=
  let put := fun (key : Nat) => BitVec.ofNat 16 (0x8000 + slotOfKey key * 2048 + coreOfKey key)
  let one := fun (e : BitVec 16) =>
    match bindPlace e with
    | none => e
    | some key =>
      if !list.contains (coreOfKey key) then e
      else
        match moved.find? fun m => m.1 == key with
        | some m => put m.2
        | none => put (keyOf ((stay (clusterOfCore (coreOfKey key))).headD (coreOfKey key)) 0)
  { u with bind := u.bind.map fun p => (p.1, one p.2), cores := u.cores.filter fun k => !list.contains k }

/-- What names bytes of a core's scratchpad by their place names those of the image from here on: undo entries, and the places
of copies (R379, R392) (DEDUCED, log entry 45). -/
def followImage (l k : Nat) (ps : List Nat) (s : State) : State :=
  let lo := placeCore k 0
  let inside := fun (p : Nat) => decide (lo ≤ p ∧ p < lo + 4096 * ps.length)
  let move := fun (p : Nat) => if inside p then ps.getD ((p - lo) / 4096) 0 + (p - lo) % 4096 else p
  let cut := fun (q : Nat × Nat) =>
    if inside q.1 then ((linePieces (q.2 / 128 + 2) q.1 q.2).map fun a => (move a.1, a.2)) else [q]
  { s with copies := s.copies.map fun c =>
             if c.launch == l then { c with spans := c.spans.flatMap cut, bar := c.bar.map move, wrote := c.wrote.map move } else c
           clusters := s.clusters.map fun c =>
             (c.1, { c.2 with undo := c.2.undo.map fun u => if u.launch = l then { u with place := move u.place } else u }) }

/-- A listed core's scratchpad is copied to its image in the cluster's record (R378, R379) (DEDUCED, log entry 45). -/
def imageCore (ls : List Nat) (k : Nat) : M Unit := do
  let s ← get
  match ls.find? fun l => (s.launch l).cores.contains k with
  | none => pure ()
  | some l =>
    let va := (s.launch l).saveVa + scratchRecord k
    let ps ← (List.range (s.scratchSize k / 4096)).mapM fun i => do
      let p ← takePage l (va + 4096 * i) accWrite
      modify (copyPlaces (placeCore k (4096 * i)) p 4096)
      pure p
    modify fun s => (followImage l k ps s).modLaunch l fun u => { u with images := u.images ++ [(k, ps)] }

/-- The moves of an accepted vacate (R378). -/
def moveListed (q t : Nat) (list : List Nat) (s : State) : State :=
  let ls := s.targets t
  let stay := staying (s.coresOf ls) list
  let slots := fun cl => ((List.range 8).map (cl * 8 + ·)).flatMap fun k => if list.contains k then s.heldSlots ls k else []
  let count := (list.flatMap fun k => (s.heldSlots ls k).filter fun key => (s.ctx key).live).length
  let s := list.foldl (fun s k => ((ls.find? fun l => (s.launch l).cores.contains k).map fun l => leaveTables l k s).getD s) s
  let (s, moved) := ((list.map clusterOfCore).eraseDups).foldl (fun (a : State × List (Nat × Nat)) cl =>
    let (s, m) := moveSlots (slots cl) (stay cl) a.1
    (s, a.2 ++ m)) (s, [])
  let s := ls.foldl (fun s l => s.modLaunch l (rebind list moved stay)) s
  endWith q { status := 0, a := BitVec.ofNat 64 count } s

/-- A vacate reaches its end (R378); a page of an image that cannot be written is a save write that failed (R365)
(DEDUCED, log entry 45). -/
def finishVacate (q t : Nat) (list : List Nat) : M Unit := do
  let s ← get
  let ls := s.targets t
  match (list.forM (imageCore ls)).run s with
  | .ok _ s' => set (moveListed q t list s')
  | .error (.trap f) s' =>
    let r : Report := { status := 9, a := f.at'.setWidth 64 }
    set (endWith q r (endLaunch t r s'))
  | .error _ s' => waitsAt s s'

/-- Whether a vacate can place what it moves: there are slots again where others have taken some since it was accepted, and each
core that stays has room for the copies that may come to it (R4, R377, R378) (DESIGN CHOICE, log entry 76). -/
def State.vacateFits (s : State) (ls list : List Nat) : Bool :=
  (s.vacateShort ls list).isNone && list.all fun k =>
    let come := ((list.filter fun j => clusterOfCore j == clusterOfCore k).map s.copiesOf).sum
    (staying (s.coresOf ls) list (clusterOfCore k)).all fun j => decide (s.copiesOf j + come ≤ 1024)

/-- Whether a helper moves to one of some cores: it arrives before they are vacated (R317, R378). -/
def State.arriving (s : State) (list : List Nat) : Bool :=
  s.ctxs.any fun c => c.2.st == .migrating && match c.2.moving with
    | some k => list.contains (coreOfKey k)
    | none => false

/-- VACATE (R377, R378): it begins by stopping the contexts of the listed cores, and ends once they are drained; a target that
ends meanwhile leaves nothing to vacate (DEDUCED, log entries 43 and 45) (DESIGN CHOICE, log entry 76). -/
def execVacate (q : Nat) (s : State) : Outcome :=
  event (do
    let s ← get
    let u := s.queue q
    enabled (decide (q < 64) && u.st == .running && !u.closing && entryNat u.entry 0 1 == 5)
    let t := entryNat u.entry 0x10 8
    let ls := s.targets t
    let listed := fun (list : List Nat) => (ls.flatMap s.launchCtxs).filter fun k => list.contains (coreOfKey k)
    if !u.started then
      match (vacateList q).run s with
      | .error r s' => if r = recHeld then waitsAt s s' else set (refuse q 7 s')
      | .ok list s' =>
        match vacateRefusal s' t list with
        | some r => set (endWith q r { s' with fresh := s'.fresh + 1 })
        | none =>
          enabled (!ls.any s.rollingIn)
          set (stopAll (listed list) (s'.modQueue q fun u => { u with started := true, listed := list }))
    else
      let list := u.listed
      let keys := listed list
      if (s.queue t).st != .running || ls.isEmpty then set (refuse q 8 s)
      else if keys.any s.atBoundary then set (stopAll keys s)
      else
        enabled (s.drained keys list && !s.arriving list && s.vacateFits ls list &&
          !ls.any fun l => (s.launch l).st == .loading)
        set (dropRequests keys s)
        finishVacate q t list) s

end Sys2Proof.Machine
end

