-- ==== Sys2Proof/Machine/Reset.lean ====
section
/-!
DEFINITION. A package reset: what it returns to the reset value, what outlives it, and what waited for it (07 R198, R207;
18 R401, R403, R406, R409).
-/

namespace Sys2Proof.Machine

open Sys2Proof

/-- A pending slice retirement takes effect at a reset, unless the slice that would take its place is retired too (R406)
(DEDUCED, log entry 46). -/
def activateSlice (u : BitVec 32) (s : State) : State :=
  if s.retired (sliceUnit (unitDie u) (unitIndex u ^^^ 8)) then s else activate u s

/-- The pending slice retirements, in the order of the map (R406). -/
def activateSlices (s : State) : State :=
  (s.repair.filter fun r => unitKind r.unit == 3 && !r.act).foldl (fun s r => activateSlice r.unit s) s

/-- A die boots its staged image, and its version floor rises to the image's version (R409). -/
def Firmware.boot (f : Firmware) : Firmware :=
  match f.staged with
  | none => f
  | some (v, d) => { f with version := v, digest := d, staged := none, floor := if f.floor.toNat < v.toNat then v else f.floor }

/-- What outlives a reset: the repair map, the soft-error counters, the firmware, the bytes of memory with their poison
marks, the cores that are out of service, and the model's own counters (R198, R403, R405, R409; log entry 3)
(DEDUCED, log entry 46). -/
def State.resetFrom (s : State) : State :=
  { State.reset with
    clock := s.clock
    agenda := s.agenda
    fresh := s.fresh
    outbox := s.outbox
    mem := s.mem
    marks := s.marks
    ecc := s.ecc
    repair := s.repair
    firmware := (List.range 6).foldl (fun t d => Tbl.set {} t d (Tbl.get {} s.firmware d).boot) s.firmware
    cores := (s.cores.filter fun p => p.2.retired).map fun p => (p.1, { retired := true }) }

/-- PACKAGE_RESET (R198, R207, R401, R406, R409) (DESIGN CHOICE, log entry 3). -/
def execPackageReset (s : State) : Outcome := event (modify fun s => activateSlices s.resetFrom) s

end Sys2Proof.Machine
end

