-- ==== Sys2Proof/Machine/ScalarAlu.lean ====
section
/-!
DEFINITION. Scalar integer instructions (05 R113 to R121): the operations once, then a meaning for each instruction.
-/

namespace Sys2Proof.Machine

open Sys2Proof

/-- R115: the operation of a function code of majors 0x08 and 0x09. -/
def alu (fn : Nat) (a b : Word) : Word :=
  match fn with
  | 0 => a + b
  | 1 => a - b
  | 2 => a &&& b
  | 3 => a ||| b
  | 4 => a ^^^ b
  | 5 => a <<< (b.toNat % 64)
  | 6 => a >>> (b.toNat % 64)
  | 7 => a.sshiftRight (b.toNat % 64)
  | 8 => a * b
  | 9 => BitVec.ofInt 64 (a.toInt * b.toInt / 2 ^ 64)
  | 10 => BitVec.ofNat 64 (a.toNat * b.toNat / 2 ^ 64)
  | 11 => divS a b
  | 12 => divU a b
  | 13 => remS a b
  | 14 => remU a b
  | _ => a &&& ~~~b

/-- R116: the operation of a function code of majors 0x0A and 0x0B. -/
def alu2 (fn : Nat) (a b : Word) : Word :=
  match fn with
  | 0 => if a.toInt < b.toInt then 1 else 0
  | 1 => if a.toNat < b.toNat then 1 else 0
  | 2 => if a.toInt < b.toInt then a else b
  | 3 => if a.toNat < b.toNat then a else b
  | 4 => if a.toInt < b.toInt then b else a
  | 5 => if a.toNat < b.toNat then b else a
  | 6 => BitVec.ofInt 64 (satS 64 (a.toInt + b.toInt))
  | 7 => BitVec.ofInt 64 (satS 64 (a.toInt - b.toInt))
  | 8 => BitVec.ofInt 64 (satU 64 ((a.toNat : Int) + b.toNat))
  | 9 => BitVec.ofInt 64 (satU 64 ((a.toNat : Int) - b.toNat))
  | 10 => BitVec.ofInt 64 (satS 64 (a.toInt * b.toInt))
  | 11 => BitVec.ofInt 64 (satU 64 ((a.toNat : Int) * b.toNat))
  | 12 => a.rotateLeft (b.toNat % 64)
  | _ => a.rotateRight (b.toNat % 64)

/-- Number of 1 bits among the low `n` bits. -/
def popLow (v : Nat) : Nat → Nat
  | 0 => 0
  | n + 1 => v % 2 + popLow (v / 2) n

/-- Number of 0 bits below the lowest 1 bit of the low `n` bits. -/
def ctzLow (v : Nat) : Nat → Nat
  | 0 => 0
  | n + 1 => if v % 2 = 1 then 0 else 1 + ctzLow (v / 2) n

/-- Number of 0 bits above the highest 1 bit in `w` bits. -/
def clzOf (w v : Nat) : Nat := w - bitLen (v % 2 ^ w)

/-- The low `n` bits of a word reversed. -/
def revBits (v : Nat) : Nat → Nat
  | 0 => 0
  | n + 1 => v % 2 * 2 ^ n + revBits (v / 2) n

/-- R117: the operation of a function code of major 0x0C. -/
def unary (fn : Nat) (a : Word) : Word :=
  match fn with
  | 0 => BitVec.ofNat 64 (popLow a.toNat 64)
  | 1 => BitVec.ofNat 64 (clzOf 64 a.toNat)
  | 2 => BitVec.ofNat 64 (ctzLow a.toNat 64)
  | 3 => BitVec.ofNat 64 (revBits a.toNat 64)
  | 4 => BitVec.ofNat 64 (leNat (leBytes 8 a.toNat).reverse)
  | 5 => signExt 8 a.toNat
  | 6 => signExt 16 a.toNat
  | 7 => signExt 32 a.toNat
  | 8 => BitVec.ofNat 64 (a.toNat % 2 ^ 8)
  | 9 => BitVec.ofNat 64 (a.toNat % 2 ^ 16)
  | _ => BitVec.ofNat 64 (a.toNat % 2 ^ 32)

/-- A register form: xd := f(xs1, xs2) (R112, R113). -/
def regForm (f : Word → Word → Word) (o : Sh) (s : State) : Outcome :=
  short (do
    let a ← useX o.rs1.toNat
    let b ← regOperand o
    writeX o.rd (f a b)) s

/-- An immediate form: xd := f(xs1, IMM) (R113). -/
def immForm (f : Word → Word → Word) (o : Sh) (s : State) : Outcome :=
  short (do
    let a ← useX o.rs1.toNat
    writeX o.rd (f a (immX o.imm))) s

/-- A form of one source (R117). -/
def unForm (f : Word → Word) (o : Sh) (s : State) : Outcome :=
  short (do
    let a ← useX o.rs1.toNat
    writeX o.rd (f a)) s

/-- A guarded register form (R112, R113): a disabled one reads its guard and nothing else. -/
def guardedReg (f : Word → Word → Word) (o : Lg) (s : State) : Outcome :=
  longI o.toLow (do
    if ← guardOn o.g1 then
      let a ← useX o.a.toNat
      let b ← useX o.b.toNat
      writeX o.d (f a b)) s

/-- A guarded immediate form (R113). -/
def guardedImm (f : Word → Word → Word) (o : Lg) (s : State) : Outcome :=
  longI o.toLow (do
    if ← guardOn o.g1 then
      let a ← useX o.a.toNat
      writeX o.d (f a (immX o.imm))) s

/-- `add` (05 R115). -/
def execAdd (o : Sh) (s : State) : Outcome := regForm (alu 0) o s

/-- `add` with an immediate (05 R115, R113). -/
def execAddImm (o : Sh) (s : State) : Outcome := immForm (alu 0) o s

/-- `sub` (05 R115). -/
def execSub (o : Sh) (s : State) : Outcome := regForm (alu 1) o s

/-- `sub` with an immediate (05 R115, R113). -/
def execSubImm (o : Sh) (s : State) : Outcome := immForm (alu 1) o s

/-- `and` (05 R115). -/
def execAnd (o : Sh) (s : State) : Outcome := regForm (alu 2) o s

/-- `and` with an immediate (05 R115, R113). -/
def execAndImm (o : Sh) (s : State) : Outcome := immForm (alu 2) o s

/-- `or` (05 R115). -/
def execOr (o : Sh) (s : State) : Outcome := regForm (alu 3) o s

/-- `or` with an immediate (05 R115, R113). -/
def execOrImm (o : Sh) (s : State) : Outcome := immForm (alu 3) o s

/-- `xor` (05 R115). -/
def execXor (o : Sh) (s : State) : Outcome := regForm (alu 4) o s

/-- `xor` with an immediate (05 R115, R113). -/
def execXorImm (o : Sh) (s : State) : Outcome := immForm (alu 4) o s

/-- `shl` (05 R115). -/
def execShl (o : Sh) (s : State) : Outcome := regForm (alu 5) o s

/-- `shl` with an immediate (05 R115, R113). -/
def execShlImm (o : Sh) (s : State) : Outcome := immForm (alu 5) o s

/-- `shr` (05 R115). -/
def execShr (o : Sh) (s : State) : Outcome := regForm (alu 6) o s

/-- `shr` with an immediate (05 R115, R113). -/
def execShrImm (o : Sh) (s : State) : Outcome := immForm (alu 6) o s

/-- `sra` (05 R115). -/
def execSra (o : Sh) (s : State) : Outcome := regForm (alu 7) o s

/-- `sra` with an immediate (05 R115, R113). -/
def execSraImm (o : Sh) (s : State) : Outcome := immForm (alu 7) o s

/-- `mul` (05 R115). -/
def execMul (o : Sh) (s : State) : Outcome := regForm (alu 8) o s

/-- `mul` with an immediate (05 R115, R113). -/
def execMulImm (o : Sh) (s : State) : Outcome := immForm (alu 8) o s

/-- `mulh` (05 R115). -/
def execMulh (o : Sh) (s : State) : Outcome := regForm (alu 9) o s

/-- `mulh` with an immediate (05 R115, R113). -/
def execMulhImm (o : Sh) (s : State) : Outcome := immForm (alu 9) o s

/-- `mulhu` (05 R115). -/
def execMulhu (o : Sh) (s : State) : Outcome := regForm (alu 10) o s

/-- `mulhu` with an immediate (05 R115, R113). -/
def execMulhuImm (o : Sh) (s : State) : Outcome := immForm (alu 10) o s

/-- `div` (05 R115). -/
def execDiv (o : Sh) (s : State) : Outcome := regForm (alu 11) o s

/-- `div` with an immediate (05 R115, R113). -/
def execDivImm (o : Sh) (s : State) : Outcome := immForm (alu 11) o s

/-- `divu` (05 R115). -/
def execDivu (o : Sh) (s : State) : Outcome := regForm (alu 12) o s

/-- `divu` with an immediate (05 R115, R113). -/
def execDivuImm (o : Sh) (s : State) : Outcome := immForm (alu 12) o s

/-- `rem` (05 R115). -/
def execRem (o : Sh) (s : State) : Outcome := regForm (alu 13) o s

/-- `rem` with an immediate (05 R115, R113). -/
def execRemImm (o : Sh) (s : State) : Outcome := immForm (alu 13) o s

/-- `remu` (05 R115). -/
def execRemu (o : Sh) (s : State) : Outcome := regForm (alu 14) o s

/-- `remu` with an immediate (05 R115, R113). -/
def execRemuImm (o : Sh) (s : State) : Outcome := immForm (alu 14) o s

/-- `andn` (05 R115). -/
def execAndn (o : Sh) (s : State) : Outcome := regForm (alu 15) o s

/-- `andn` with an immediate (05 R115, R113). -/
def execAndnImm (o : Sh) (s : State) : Outcome := immForm (alu 15) o s

/-- `slt` (05 R116). -/
def execSlt (o : Sh) (s : State) : Outcome := regForm (alu2 0) o s

/-- `slt` with an immediate (05 R116, R113). -/
def execSltImm (o : Sh) (s : State) : Outcome := immForm (alu2 0) o s

/-- `sltu` (05 R116). -/
def execSltu (o : Sh) (s : State) : Outcome := regForm (alu2 1) o s

/-- `sltu` with an immediate (05 R116, R113). -/
def execSltuImm (o : Sh) (s : State) : Outcome := immForm (alu2 1) o s

/-- `min` (05 R116). -/
def execMin (o : Sh) (s : State) : Outcome := regForm (alu2 2) o s

/-- `min` with an immediate (05 R116, R113). -/
def execMinImm (o : Sh) (s : State) : Outcome := immForm (alu2 2) o s

/-- `minu` (05 R116). -/
def execMinu (o : Sh) (s : State) : Outcome := regForm (alu2 3) o s

/-- `minu` with an immediate (05 R116, R113). -/
def execMinuImm (o : Sh) (s : State) : Outcome := immForm (alu2 3) o s

/-- `max` (05 R116). -/
def execMax (o : Sh) (s : State) : Outcome := regForm (alu2 4) o s

/-- `max` with an immediate (05 R116, R113). -/
def execMaxImm (o : Sh) (s : State) : Outcome := immForm (alu2 4) o s

/-- `maxu` (05 R116). -/
def execMaxu (o : Sh) (s : State) : Outcome := regForm (alu2 5) o s

/-- `maxu` with an immediate (05 R116, R113). -/
def execMaxuImm (o : Sh) (s : State) : Outcome := immForm (alu2 5) o s

/-- `addSat` (05 R116). -/
def execAddSat (o : Sh) (s : State) : Outcome := regForm (alu2 6) o s

/-- `addSat` with an immediate (05 R116, R113). -/
def execAddSatImm (o : Sh) (s : State) : Outcome := immForm (alu2 6) o s

/-- `subSat` (05 R116). -/
def execSubSat (o : Sh) (s : State) : Outcome := regForm (alu2 7) o s

/-- `subSat` with an immediate (05 R116, R113). -/
def execSubSatImm (o : Sh) (s : State) : Outcome := immForm (alu2 7) o s

/-- `adduSat` (05 R116). -/
def execAdduSat (o : Sh) (s : State) : Outcome := regForm (alu2 8) o s

/-- `adduSat` with an immediate (05 R116, R113). -/
def execAdduSatImm (o : Sh) (s : State) : Outcome := immForm (alu2 8) o s

/-- `subuSat` (05 R116). -/
def execSubuSat (o : Sh) (s : State) : Outcome := regForm (alu2 9) o s

/-- `subuSat` with an immediate (05 R116, R113). -/
def execSubuSatImm (o : Sh) (s : State) : Outcome := immForm (alu2 9) o s

/-- `mulSat` (05 R116). -/
def execMulSat (o : Sh) (s : State) : Outcome := regForm (alu2 10) o s

/-- `mulSat` with an immediate (05 R116, R113). -/
def execMulSatImm (o : Sh) (s : State) : Outcome := immForm (alu2 10) o s

/-- `muluSat` (05 R116). -/
def execMuluSat (o : Sh) (s : State) : Outcome := regForm (alu2 11) o s

/-- `muluSat` with an immediate (05 R116, R113). -/
def execMuluSatImm (o : Sh) (s : State) : Outcome := immForm (alu2 11) o s

/-- `rol` (05 R116). -/
def execRol (o : Sh) (s : State) : Outcome := regForm (alu2 12) o s

/-- `rol` with an immediate (05 R116, R113). -/
def execRolImm (o : Sh) (s : State) : Outcome := immForm (alu2 12) o s

/-- `ror` (05 R116). -/
def execRor (o : Sh) (s : State) : Outcome := regForm (alu2 13) o s

/-- `ror` with an immediate (05 R116, R113). -/
def execRorImm (o : Sh) (s : State) : Outcome := immForm (alu2 13) o s

/-- `pop` (05 R117). -/
def execPop (o : Sh) (s : State) : Outcome := unForm (unary 0) o s

/-- `clz` (05 R117). -/
def execClz (o : Sh) (s : State) : Outcome := unForm (unary 1) o s

/-- `ctz` (05 R117). -/
def execCtz (o : Sh) (s : State) : Outcome := unForm (unary 2) o s

/-- `brev` (05 R117). -/
def execBrev (o : Sh) (s : State) : Outcome := unForm (unary 3) o s

/-- `bswap` (05 R117). -/
def execBswap (o : Sh) (s : State) : Outcome := unForm (unary 4) o s

/-- `sext8` (05 R117). -/
def execSext8 (o : Sh) (s : State) : Outcome := unForm (unary 5) o s

/-- `sext16` (05 R117). -/
def execSext16 (o : Sh) (s : State) : Outcome := unForm (unary 6) o s

/-- `sext32` (05 R117). -/
def execSext32 (o : Sh) (s : State) : Outcome := unForm (unary 7) o s

/-- `zext8` (05 R117). -/
def execZext8 (o : Sh) (s : State) : Outcome := unForm (unary 8) o s

/-- `zext16` (05 R117). -/
def execZext16 (o : Sh) (s : State) : Outcome := unForm (unary 9) o s

/-- `zext32` (05 R117). -/
def execZext32 (o : Sh) (s : State) : Outcome := unForm (unary 10) o s

/-- The guarded forms of major 0x08 (05 R113, R115). -/
def execGuardedAluReg (fn : BitVec 6) (o : Lg) (s : State) : Outcome := guardedReg (alu fn.toNat) o s

/-- The guarded forms of major 0x09 (05 R113, R115). -/
def execGuardedAluImm (fn : BitVec 6) (o : Lg) (s : State) : Outcome := guardedImm (alu fn.toNat) o s

/-- The guarded forms of major 0x0A (05 R113, R116). -/
def execGuardedAlu2Reg (fn : BitVec 6) (o : Lg) (s : State) : Outcome := guardedReg (alu2 fn.toNat) o s

/-- The guarded forms of major 0x0B (05 R113, R116). -/
def execGuardedAlu2Imm (fn : BitVec 6) (o : Lg) (s : State) : Outcome := guardedImm (alu2 fn.toNat) o s

/-- `ext` (05 R118): the field, sign-extended. -/
def execExt (o : Sh) (s : State) : Outcome :=
  unForm (fun a => signExt (o.wm1.toNat + 1) (field a o.pos.toNat (o.wm1.toNat + 1))) o s

/-- `extz` (05 R118): the field, zero-extended. -/
def execExtz (o : Sh) (s : State) : Outcome :=
  unForm (fun a => BitVec.ofNat 64 (field a o.pos.toNat (o.wm1.toNat + 1))) o s

/-- `ins` (05 R118): reads xd as well. -/
def execIns (o : Sh) (s : State) : Outcome :=
  short (do
    let a ← useX o.rs1.toNat
    let t ← useX o.rd.toNat
    writeX o.rd (setField t o.pos.toNat (o.wm1.toNat + 1) a.toNat)) s

/-- `movl` (05 R119). -/
def execMovl (o : Sh) (s : State) : Outcome := short (writeX o.rd (o.imm.setWidth 64)) s

/-- `movh` (05 R119): leaves xd[31:0] as it is, so it reads xd. -/
def execMovh (o : Sh) (s : State) : Outcome :=
  short (do
    let t ← useX o.rd.toNat
    writeX o.rd (setField t 32 32 o.imm.toNat)) s

/-- A wide product: low half to xd, high half to xe (05 R120). -/
def wide (p : Word → Word → Int) (o : Lg) (s : State) : Outcome :=
  longI o.toLow (do
    if ← guardOn o.g1 then
      let a ← useX o.a.toNat
      let b ← useX o.b.toNat
      writeX o.d (BitVec.ofInt 64 (p a b))
      writeX o.e (BitVec.ofInt 64 (p a b / 2 ^ 64))) s

/-- `mul.wide` (05 R120). -/
def execMulWide (o : Lg) (s : State) : Outcome := wide (fun a b => a.toInt * b.toInt) o s

/-- `mulu.wide` (05 R120). -/
def execMuluWide (o : Lg) (s : State) : Outcome := wide (fun a b => (a.toNat : Int) * b.toNat) o s

/-- `csel` (05 R120): both sources are read, and the mask's bit 0 selects. -/
def execCsel (o : Lg) (s : State) : Outcome :=
  longI o.toLow (do
    if ← guardOn o.g1 then
      let a ← useX o.a.toNat
      let b ← useX o.b.toNat
      let pick ← guardOn o.g2
      writeX o.d (if pick then a else b)) s

end Sys2Proof.Machine
end

