-- ==== Sys2Proof/Machine/ScalarFp.lean ====
section
/-!
DEFINITION. Scalar floating point (05 R122 to R124): the operand form once, then a meaning for each instruction.
-/

namespace Sys2Proof.Machine

open Sys2Proof

/-- The rounding code of layout F (R82). -/
def Sh.rm (o : Sh) : Nat := (o.imm.extractLsb' 0 2).toNat

/-- `.ftz` of layout F (R82). -/
def Sh.ftz (o : Sh) : Bool := o.imm.getLsbD 2

/-- An operand of a format: binary32 lies in bits [31:0] (R122). -/
def fpIn (f : Fmt) (w : Word) : Nat := w.toNat % 2 ^ f.width

/-- Two sources (R122). -/
def fp2 (f : Fmt) (op : Nat → Nat → Nat × Flags) (o : Sh) (s : State) : Outcome :=
  short (do
    let a ← useX o.rs1.toNat
    let b ← useX o.rs2.toNat
    deliverX o.rd (op (fpIn f a) (fpIn f b))) s

/-- One source (R122). -/
def fp1 (f : Fmt) (op : Nat → Nat × Flags) (o : Sh) (s : State) : Outcome :=
  short (do
    let a ← useX o.rs1.toNat
    deliverX o.rd (op (fpIn f a))) s

/-- A comparison writes the integer 1 or 0 (R122). -/
def fpBool (r : Bool × Flags) : Nat × Flags := (if r.1 then 1 else 0, r.2)

/-- `fadd` in binary64 (05 R122). -/
def execFadd (o : Sh) (s : State) : Outcome := fp2 f64 (fAdd f64 (Sh.rm o) (Sh.ftz o)) o s

/-- `fsub` in binary64 (05 R122). -/
def execFsub (o : Sh) (s : State) : Outcome := fp2 f64 (fSub f64 (Sh.rm o) (Sh.ftz o)) o s

/-- `fmul` in binary64 (05 R122). -/
def execFmul (o : Sh) (s : State) : Outcome := fp2 f64 (fMul f64 (Sh.rm o) (Sh.ftz o)) o s

/-- `fdiv` in binary64 (05 R122). -/
def execFdiv (o : Sh) (s : State) : Outcome := fp2 f64 (fDiv f64 (Sh.rm o) (Sh.ftz o)) o s

/-- `fsqrt` in binary64 (05 R122). -/
def execFsqrt (o : Sh) (s : State) : Outcome := fp1 f64 (fSqrt f64 (Sh.rm o) (Sh.ftz o)) o s

/-- `fmin` in binary64 (05 R122). -/
def execFmin (o : Sh) (s : State) : Outcome := fp2 f64 (fMinMax f64 false (Sh.ftz o)) o s

/-- `fmax` in binary64 (05 R122). -/
def execFmax (o : Sh) (s : State) : Outcome := fp2 f64 (fMinMax f64 true (Sh.ftz o)) o s

/-- `feq` in binary64 (05 R122). -/
def execFeq (o : Sh) (s : State) : Outcome := fp2 f64 (fun a b => fpBool (fEq f64 (Sh.ftz o) a b)) o s

/-- `flt` in binary64 (05 R122). -/
def execFlt (o : Sh) (s : State) : Outcome := fp2 f64 (fun a b => fpBool (fOrd f64 (Sh.ftz o) (· == .lt) a b)) o s

/-- `fle` in binary64 (05 R122). -/
def execFle (o : Sh) (s : State) : Outcome := fp2 f64 (fun a b => fpBool (fOrd f64 (Sh.ftz o) (· != .gt) a b)) o s

/-- `fneg` in binary64 (05 R122). -/
def execFneg (o : Sh) (s : State) : Outcome := fp1 f64 (fun a => (fNeg f64 a, 0)) o s

/-- `fabs` in binary64 (05 R122). -/
def execFabs (o : Sh) (s : State) : Outcome := fp1 f64 (fun a => (fAbs f64 a, 0)) o s

/-- `fadd` in binary32 (05 R122). -/
def execFaddF32 (o : Sh) (s : State) : Outcome := fp2 f32 (fAdd f32 (Sh.rm o) (Sh.ftz o)) o s

/-- `fsub` in binary32 (05 R122). -/
def execFsubF32 (o : Sh) (s : State) : Outcome := fp2 f32 (fSub f32 (Sh.rm o) (Sh.ftz o)) o s

/-- `fmul` in binary32 (05 R122). -/
def execFmulF32 (o : Sh) (s : State) : Outcome := fp2 f32 (fMul f32 (Sh.rm o) (Sh.ftz o)) o s

/-- `fdiv` in binary32 (05 R122). -/
def execFdivF32 (o : Sh) (s : State) : Outcome := fp2 f32 (fDiv f32 (Sh.rm o) (Sh.ftz o)) o s

/-- `fsqrt` in binary32 (05 R122). -/
def execFsqrtF32 (o : Sh) (s : State) : Outcome := fp1 f32 (fSqrt f32 (Sh.rm o) (Sh.ftz o)) o s

/-- `fmin` in binary32 (05 R122). -/
def execFminF32 (o : Sh) (s : State) : Outcome := fp2 f32 (fMinMax f32 false (Sh.ftz o)) o s

/-- `fmax` in binary32 (05 R122). -/
def execFmaxF32 (o : Sh) (s : State) : Outcome := fp2 f32 (fMinMax f32 true (Sh.ftz o)) o s

/-- `feq` in binary32 (05 R122). -/
def execFeqF32 (o : Sh) (s : State) : Outcome := fp2 f32 (fun a b => fpBool (fEq f32 (Sh.ftz o) a b)) o s

/-- `flt` in binary32 (05 R122). -/
def execFltF32 (o : Sh) (s : State) : Outcome := fp2 f32 (fun a b => fpBool (fOrd f32 (Sh.ftz o) (· == .lt) a b)) o s

/-- `fle` in binary32 (05 R122). -/
def execFleF32 (o : Sh) (s : State) : Outcome := fp2 f32 (fun a b => fpBool (fOrd f32 (Sh.ftz o) (· != .gt) a b)) o s

/-- `fneg` in binary32 (05 R122). -/
def execFnegF32 (o : Sh) (s : State) : Outcome := fp1 f32 (fun a => (fNeg f32 a, 0)) o s

/-- `fabs` in binary32 (05 R122). -/
def execFabsF32 (o : Sh) (s : State) : Outcome := fp1 f32 (fun a => (fAbs f32 a, 0)) o s

/-- An integer result as a word (R61). -/
def fpInt (r : Int × Flags) : Nat × Flags := ((BitVec.ofInt 64 r.1).toNat, r.2)

/-- A conversion of one register (R124). -/
def cvtForm (op : Word → Nat × Flags) (o : Sh) (s : State) : Outcome :=
  short (do
    let a ← useX o.rs1.toNat
    deliverX o.rd (op a)) s

/-- signed integer to binary64 (05 R124). -/
def execCvtF64I64 (o : Sh) (s : State) : Outcome := cvtForm (fun a => cvtIF f64 (Sh.rm o) (Sh.ftz o) a.toInt) o s

/-- unsigned integer to binary64 (05 R124). -/
def execCvtF64N64 (o : Sh) (s : State) : Outcome := cvtForm (fun a => cvtIF f64 (Sh.rm o) (Sh.ftz o) a.toNat) o s

/-- binary64 to signed integer (05 R124). -/
def execCvtI64F64 (o : Sh) (s : State) : Outcome := cvtForm (fun a => fpInt (cvtFI f64 (Sh.rm o) (Sh.ftz o) 64 true (fpIn f64 a))) o s

/-- binary64 to unsigned integer (05 R124). -/
def execCvtN64F64 (o : Sh) (s : State) : Outcome := cvtForm (fun a => fpInt (cvtFI f64 (Sh.rm o) (Sh.ftz o) 64 false (fpIn f64 a))) o s

/-- signed integer to binary32 (05 R124). -/
def execCvtF32I64 (o : Sh) (s : State) : Outcome := cvtForm (fun a => cvtIF f32 (Sh.rm o) (Sh.ftz o) a.toInt) o s

/-- unsigned integer to binary32 (05 R124). -/
def execCvtF32N64 (o : Sh) (s : State) : Outcome := cvtForm (fun a => cvtIF f32 (Sh.rm o) (Sh.ftz o) a.toNat) o s

/-- binary32 to signed integer (05 R124). -/
def execCvtI64F32 (o : Sh) (s : State) : Outcome := cvtForm (fun a => fpInt (cvtFI f32 (Sh.rm o) (Sh.ftz o) 64 true (fpIn f32 a))) o s

/-- binary32 to unsigned integer (05 R124). -/
def execCvtN64F32 (o : Sh) (s : State) : Outcome := cvtForm (fun a => fpInt (cvtFI f32 (Sh.rm o) (Sh.ftz o) 64 false (fpIn f32 a))) o s

/-- binary64 to binary32 (05 R124). -/
def execCvtF32F64 (o : Sh) (s : State) : Outcome := cvtForm (fun a => cvtFF f64 f32 (Sh.rm o) (Sh.ftz o) (fpIn f64 a)) o s

/-- binary32 to binary64 (05 R124). -/
def execCvtF64F32 (o : Sh) (s : State) : Outcome := cvtForm (fun a => cvtFF f32 f64 0 false (fpIn f32 a)) o s

/-- `fma` (05 R120, R123). -/
def execFma (o : Lg) (s : State) : Outcome :=
  longI o.toLow (do
    if ← guardOn o.g1 then
      let f := tyFmt o.ty
      let a ← useX o.a.toNat
      let b ← useX o.b.toNat
      let c ← useX o.c.toNat
      deliverX o.d (fFma f (o.g2.toNat % 4) (o.g2.getLsbD 2) false false (fpIn f a) (fpIn f b) (fpIn f c))) s

end Sys2Proof.Machine
end

