-- ==== Sys2Proof/Machine/Dispatch.lean ====
section
/-!
DEFINITION. The one dispatch of the machine: each instruction and event to its meaning.
-/

namespace Sys2Proof.Machine

open Sys2Proof

/-- Each instruction's meaning; an encoded instruction is performed by the context named by `cur`. -/
def exec (i : Instr) (s : State) : Host.Outcome State Fault Refusal :=
  match i with
  | .nop o => Sys2Proof.Machine.execNop o s
  | .nopLong o => Sys2Proof.Machine.execNopLong o s
  | .nopExt o => Sys2Proof.Machine.execNopExt o s
  | .brk o => Sys2Proof.Machine.execBrk o s
  | .trap o => Sys2Proof.Machine.execTrap o s
  | .eret o => Sys2Proof.Machine.execEret o s
  | .hend o => Sys2Proof.Machine.execHend o s
  | .kfence o => Sys2Proof.Machine.execKfence o s
  | .mfsr o => Sys2Proof.Machine.execMfsr o s
  | .mtsr o => Sys2Proof.Machine.execMtsr o s
  | .mtsrSr o => Sys2Proof.Machine.execMtsrSr o s
  | .mtsrCsplit o => Sys2Proof.Machine.execMtsrCsplit o s
  | .mtsrVgrp o => Sys2Proof.Machine.execMtsrVgrp o s
  | .mtsrMgstall o => Sys2Proof.Machine.execMtsrMgstall o s
  | .mtsrDridx o => Sys2Proof.Machine.execMtsrDridx o s
  | .mtsrDrrpl o => Sys2Proof.Machine.execMtsrDrrpl o s
  | .rid o => Sys2Proof.Machine.execRid o s
  | .hjoin o => Sys2Proof.Machine.execHjoin o s
  | .gaddr o => Sys2Proof.Machine.execGaddr o s
  | .hstart o => Sys2Proof.Machine.execHstart o s
  | .hstartM o => Sys2Proof.Machine.execHstartM o s
  | .vclaim o => Sys2Proof.Machine.execVclaim o s
  | .vrenew o => Sys2Proof.Machine.execVrenew o s
  | .fmt fmt o => Sys2Proof.Machine.execFmt fmt o s
  | .add o => Sys2Proof.Machine.execAdd o s
  | .addImm o => Sys2Proof.Machine.execAddImm o s
  | .sub o => Sys2Proof.Machine.execSub o s
  | .subImm o => Sys2Proof.Machine.execSubImm o s
  | .and o => Sys2Proof.Machine.execAnd o s
  | .andImm o => Sys2Proof.Machine.execAndImm o s
  | .or o => Sys2Proof.Machine.execOr o s
  | .orImm o => Sys2Proof.Machine.execOrImm o s
  | .xor o => Sys2Proof.Machine.execXor o s
  | .xorImm o => Sys2Proof.Machine.execXorImm o s
  | .shl o => Sys2Proof.Machine.execShl o s
  | .shlImm o => Sys2Proof.Machine.execShlImm o s
  | .shr o => Sys2Proof.Machine.execShr o s
  | .shrImm o => Sys2Proof.Machine.execShrImm o s
  | .sra o => Sys2Proof.Machine.execSra o s
  | .sraImm o => Sys2Proof.Machine.execSraImm o s
  | .mul o => Sys2Proof.Machine.execMul o s
  | .mulImm o => Sys2Proof.Machine.execMulImm o s
  | .mulh o => Sys2Proof.Machine.execMulh o s
  | .mulhImm o => Sys2Proof.Machine.execMulhImm o s
  | .mulhu o => Sys2Proof.Machine.execMulhu o s
  | .mulhuImm o => Sys2Proof.Machine.execMulhuImm o s
  | .div o => Sys2Proof.Machine.execDiv o s
  | .divImm o => Sys2Proof.Machine.execDivImm o s
  | .divu o => Sys2Proof.Machine.execDivu o s
  | .divuImm o => Sys2Proof.Machine.execDivuImm o s
  | .rem o => Sys2Proof.Machine.execRem o s
  | .remImm o => Sys2Proof.Machine.execRemImm o s
  | .remu o => Sys2Proof.Machine.execRemu o s
  | .remuImm o => Sys2Proof.Machine.execRemuImm o s
  | .andn o => Sys2Proof.Machine.execAndn o s
  | .andnImm o => Sys2Proof.Machine.execAndnImm o s
  | .slt o => Sys2Proof.Machine.execSlt o s
  | .sltImm o => Sys2Proof.Machine.execSltImm o s
  | .sltu o => Sys2Proof.Machine.execSltu o s
  | .sltuImm o => Sys2Proof.Machine.execSltuImm o s
  | .min o => Sys2Proof.Machine.execMin o s
  | .minImm o => Sys2Proof.Machine.execMinImm o s
  | .minu o => Sys2Proof.Machine.execMinu o s
  | .minuImm o => Sys2Proof.Machine.execMinuImm o s
  | .max o => Sys2Proof.Machine.execMax o s
  | .maxImm o => Sys2Proof.Machine.execMaxImm o s
  | .maxu o => Sys2Proof.Machine.execMaxu o s
  | .maxuImm o => Sys2Proof.Machine.execMaxuImm o s
  | .addSat o => Sys2Proof.Machine.execAddSat o s
  | .addSatImm o => Sys2Proof.Machine.execAddSatImm o s
  | .subSat o => Sys2Proof.Machine.execSubSat o s
  | .subSatImm o => Sys2Proof.Machine.execSubSatImm o s
  | .adduSat o => Sys2Proof.Machine.execAdduSat o s
  | .adduSatImm o => Sys2Proof.Machine.execAdduSatImm o s
  | .subuSat o => Sys2Proof.Machine.execSubuSat o s
  | .subuSatImm o => Sys2Proof.Machine.execSubuSatImm o s
  | .mulSat o => Sys2Proof.Machine.execMulSat o s
  | .mulSatImm o => Sys2Proof.Machine.execMulSatImm o s
  | .muluSat o => Sys2Proof.Machine.execMuluSat o s
  | .muluSatImm o => Sys2Proof.Machine.execMuluSatImm o s
  | .rol o => Sys2Proof.Machine.execRol o s
  | .rolImm o => Sys2Proof.Machine.execRolImm o s
  | .ror o => Sys2Proof.Machine.execRor o s
  | .rorImm o => Sys2Proof.Machine.execRorImm o s
  | .guardedAluReg fn o => Sys2Proof.Machine.execGuardedAluReg fn o s
  | .guardedAluImm fn o => Sys2Proof.Machine.execGuardedAluImm fn o s
  | .guardedAlu2Reg fn o => Sys2Proof.Machine.execGuardedAlu2Reg fn o s
  | .guardedAlu2Imm fn o => Sys2Proof.Machine.execGuardedAlu2Imm fn o s
  | .pop o => Sys2Proof.Machine.execPop o s
  | .clz o => Sys2Proof.Machine.execClz o s
  | .ctz o => Sys2Proof.Machine.execCtz o s
  | .brev o => Sys2Proof.Machine.execBrev o s
  | .bswap o => Sys2Proof.Machine.execBswap o s
  | .sext8 o => Sys2Proof.Machine.execSext8 o s
  | .sext16 o => Sys2Proof.Machine.execSext16 o s
  | .sext32 o => Sys2Proof.Machine.execSext32 o s
  | .zext8 o => Sys2Proof.Machine.execZext8 o s
  | .zext16 o => Sys2Proof.Machine.execZext16 o s
  | .zext32 o => Sys2Proof.Machine.execZext32 o s
  | .ext o => Sys2Proof.Machine.execExt o s
  | .extz o => Sys2Proof.Machine.execExtz o s
  | .ins o => Sys2Proof.Machine.execIns o s
  | .movl o => Sys2Proof.Machine.execMovl o s
  | .movh o => Sys2Proof.Machine.execMovh o s
  | .beq o => Sys2Proof.Machine.execBeq o s
  | .bne o => Sys2Proof.Machine.execBne o s
  | .blt o => Sys2Proof.Machine.execBlt o s
  | .bge o => Sys2Proof.Machine.execBge o s
  | .bltu o => Sys2Proof.Machine.execBltu o s
  | .bgeu o => Sys2Proof.Machine.execBgeu o s
  | .j o => Sys2Proof.Machine.execJ o s
  | .call o => Sys2Proof.Machine.execCall o s
  | .jr o => Sys2Proof.Machine.execJr o s
  | .callr o => Sys2Proof.Machine.execCallr o s
  | .ld fn o => Sys2Proof.Machine.execLd fn o s
  | .st fn o => Sys2Proof.Machine.execSt fn o s
  | .guardedLd fn o => Sys2Proof.Machine.execGuardedLd fn o s
  | .guardedSt fn o => Sys2Proof.Machine.execGuardedSt fn o s
  | .ldk fn o => Sys2Proof.Machine.execLdk fn o s
  | .ldp fn o => Sys2Proof.Machine.execLdp fn o s
  | .lda fn o => Sys2Proof.Machine.execLda fn o s
  | .stl fn o => Sys2Proof.Machine.execStl fn o s
  | .fence o => Sys2Proof.Machine.execFence o s
  | .sts fn o => Sys2Proof.Machine.execSts fn o s
  | .amoAdd o => Sys2Proof.Machine.execAmoAdd o s
  | .amoAnd o => Sys2Proof.Machine.execAmoAnd o s
  | .amoOr o => Sys2Proof.Machine.execAmoOr o s
  | .amoXor o => Sys2Proof.Machine.execAmoXor o s
  | .amoMin o => Sys2Proof.Machine.execAmoMin o s
  | .amoMax o => Sys2Proof.Machine.execAmoMax o s
  | .amoMinu o => Sys2Proof.Machine.execAmoMinu o s
  | .amoMaxu o => Sys2Proof.Machine.execAmoMaxu o s
  | .amoSwap o => Sys2Proof.Machine.execAmoSwap o s
  | .amoFaddF64 o => Sys2Proof.Machine.execAmoFaddF64 o s
  | .amoAddI32 o => Sys2Proof.Machine.execAmoAddI32 o s
  | .amoAndI32 o => Sys2Proof.Machine.execAmoAndI32 o s
  | .amoOrI32 o => Sys2Proof.Machine.execAmoOrI32 o s
  | .amoXorI32 o => Sys2Proof.Machine.execAmoXorI32 o s
  | .amoMinI32 o => Sys2Proof.Machine.execAmoMinI32 o s
  | .amoMaxI32 o => Sys2Proof.Machine.execAmoMaxI32 o s
  | .amoMinuI32 o => Sys2Proof.Machine.execAmoMinuI32 o s
  | .amoMaxuI32 o => Sys2Proof.Machine.execAmoMaxuI32 o s
  | .amoSwapI32 o => Sys2Proof.Machine.execAmoSwapI32 o s
  | .amoFaddF32 o => Sys2Proof.Machine.execAmoFaddF32 o s
  | .cas o => Sys2Proof.Machine.execCas o s
  | .casI32 o => Sys2Proof.Machine.execCasI32 o s
  | .ramoAdd o => Sys2Proof.Machine.execRamoAdd o s
  | .ramoAnd o => Sys2Proof.Machine.execRamoAnd o s
  | .ramoOr o => Sys2Proof.Machine.execRamoOr o s
  | .ramoXor o => Sys2Proof.Machine.execRamoXor o s
  | .ramoMin o => Sys2Proof.Machine.execRamoMin o s
  | .ramoMax o => Sys2Proof.Machine.execRamoMax o s
  | .ramoMinu o => Sys2Proof.Machine.execRamoMinu o s
  | .ramoMaxu o => Sys2Proof.Machine.execRamoMaxu o s
  | .ramoSwap o => Sys2Proof.Machine.execRamoSwap o s
  | .waitEq o => Sys2Proof.Machine.execWaitEq o s
  | .waitNe o => Sys2Proof.Machine.execWaitNe o s
  | .waitRetest key => Sys2Proof.Machine.execWaitRetest key s
  | .waitPoll key => Sys2Proof.Machine.execWaitPoll key s
  | .bar o => Sys2Proof.Machine.execBar o s
  | .bara o => Sys2Proof.Machine.execBara o s
  | .barw o => Sys2Proof.Machine.execBarw o s
  | .bard o => Sys2Proof.Machine.execBard o s
  | .bardArrival id => Sys2Proof.Machine.execBardArrival id s
  | .evw o => Sys2Proof.Machine.execEvw o s
  | .evs o => Sys2Proof.Machine.execEvs o s
  | .gatedLoadComplete core => Sys2Proof.Machine.execGatedLoadComplete core s
  | .send o => Sys2Proof.Machine.execSend o s
  | .recv o => Sys2Proof.Machine.execRecv o s
  | .role o => Sys2Proof.Machine.execRole o s
  | .gsize o => Sys2Proof.Machine.execGsize o s
  | .grank o => Sys2Proof.Machine.execGrank o s
  | .cinv o => Sys2Proof.Machine.execCinv o s
  | .cwb o => Sys2Proof.Machine.execCwb o s
  | .cpf o => Sys2Proof.Machine.execCpf o s
  | .sfence o => Sys2Proof.Machine.execSfence o s
  | .mark o => Sys2Proof.Machine.execMark o s
  | .markStamp id stream => Sys2Proof.Machine.execMarkStamp id stream s
  | .fadd o => Sys2Proof.Machine.execFadd o s
  | .fsub o => Sys2Proof.Machine.execFsub o s
  | .fmul o => Sys2Proof.Machine.execFmul o s
  | .fdiv o => Sys2Proof.Machine.execFdiv o s
  | .fsqrt o => Sys2Proof.Machine.execFsqrt o s
  | .fmin o => Sys2Proof.Machine.execFmin o s
  | .fmax o => Sys2Proof.Machine.execFmax o s
  | .feq o => Sys2Proof.Machine.execFeq o s
  | .flt o => Sys2Proof.Machine.execFlt o s
  | .fle o => Sys2Proof.Machine.execFle o s
  | .fneg o => Sys2Proof.Machine.execFneg o s
  | .fabs o => Sys2Proof.Machine.execFabs o s
  | .faddF32 o => Sys2Proof.Machine.execFaddF32 o s
  | .fsubF32 o => Sys2Proof.Machine.execFsubF32 o s
  | .fmulF32 o => Sys2Proof.Machine.execFmulF32 o s
  | .fdivF32 o => Sys2Proof.Machine.execFdivF32 o s
  | .fsqrtF32 o => Sys2Proof.Machine.execFsqrtF32 o s
  | .fminF32 o => Sys2Proof.Machine.execFminF32 o s
  | .fmaxF32 o => Sys2Proof.Machine.execFmaxF32 o s
  | .feqF32 o => Sys2Proof.Machine.execFeqF32 o s
  | .fltF32 o => Sys2Proof.Machine.execFltF32 o s
  | .fleF32 o => Sys2Proof.Machine.execFleF32 o s
  | .fnegF32 o => Sys2Proof.Machine.execFnegF32 o s
  | .fabsF32 o => Sys2Proof.Machine.execFabsF32 o s
  | .cvtF64I64 o => Sys2Proof.Machine.execCvtF64I64 o s
  | .cvtF64N64 o => Sys2Proof.Machine.execCvtF64N64 o s
  | .cvtI64F64 o => Sys2Proof.Machine.execCvtI64F64 o s
  | .cvtN64F64 o => Sys2Proof.Machine.execCvtN64F64 o s
  | .cvtF32I64 o => Sys2Proof.Machine.execCvtF32I64 o s
  | .cvtF32N64 o => Sys2Proof.Machine.execCvtF32N64 o s
  | .cvtI64F32 o => Sys2Proof.Machine.execCvtI64F32 o s
  | .cvtN64F32 o => Sys2Proof.Machine.execCvtN64F32 o s
  | .cvtF32F64 o => Sys2Proof.Machine.execCvtF32F64 o s
  | .cvtF64F32 o => Sys2Proof.Machine.execCvtF64F32 o s
  | .fma o => Sys2Proof.Machine.execFma o s
  | .mulWide o => Sys2Proof.Machine.execMulWide o s
  | .muluWide o => Sys2Proof.Machine.execMuluWide o s
  | .csel o => Sys2Proof.Machine.execCsel o s
  | .vaddInt o => Sys2Proof.Machine.execVaddInt o s
  | .vsubInt o => Sys2Proof.Machine.execVsubInt o s
  | .vmulInt o => Sys2Proof.Machine.execVmulInt o s
  | .vmulh o => Sys2Proof.Machine.execVmulh o s
  | .vmulhu o => Sys2Proof.Machine.execVmulhu o s
  | .vminInt o => Sys2Proof.Machine.execVminInt o s
  | .vminu o => Sys2Proof.Machine.execVminu o s
  | .vmaxInt o => Sys2Proof.Machine.execVmaxInt o s
  | .vmaxu o => Sys2Proof.Machine.execVmaxu o s
  | .vand o => Sys2Proof.Machine.execVand o s
  | .vor o => Sys2Proof.Machine.execVor o s
  | .vxor o => Sys2Proof.Machine.execVxor o s
  | .vshl o => Sys2Proof.Machine.execVshl o s
  | .vshr o => Sys2Proof.Machine.execVshr o s
  | .vsra o => Sys2Proof.Machine.execVsra o s
  | .vabsInt o => Sys2Proof.Machine.execVabsInt o s
  | .vnegInt o => Sys2Proof.Machine.execVnegInt o s
  | .vaddSat o => Sys2Proof.Machine.execVaddSat o s
  | .vsubSat o => Sys2Proof.Machine.execVsubSat o s
  | .vadduSat o => Sys2Proof.Machine.execVadduSat o s
  | .vsubuSat o => Sys2Proof.Machine.execVsubuSat o s
  | .vpop o => Sys2Proof.Machine.execVpop o s
  | .vclz o => Sys2Proof.Machine.execVclz o s
  | .vaddF o => Sys2Proof.Machine.execVaddF o s
  | .vsubF o => Sys2Proof.Machine.execVsubF o s
  | .vmulF o => Sys2Proof.Machine.execVmulF o s
  | .vdiv o => Sys2Proof.Machine.execVdiv o s
  | .vsqrt o => Sys2Proof.Machine.execVsqrt o s
  | .vminF o => Sys2Proof.Machine.execVminF o s
  | .vmaxF o => Sys2Proof.Machine.execVmaxF o s
  | .vabsF o => Sys2Proof.Machine.execVabsF o s
  | .vnegF o => Sys2Proof.Machine.execVnegF o s
  | .vfma o => Sys2Proof.Machine.execVfma o s
  | .vfms o => Sys2Proof.Machine.execVfms o s
  | .vfnma o => Sys2Proof.Machine.execVfnma o s
  | .vrcp o => Sys2Proof.Machine.execVrcp o s
  | .vrsqrt o => Sys2Proof.Machine.execVrsqrt o s
  | .vex2 o => Sys2Proof.Machine.execVex2 o s
  | .vlg2 o => Sys2Proof.Machine.execVlg2 o s
  | .vcopysign o => Sys2Proof.Machine.execVcopysign o s
  | .vcmpEq o => Sys2Proof.Machine.execVcmpEq o s
  | .vcmpNe o => Sys2Proof.Machine.execVcmpNe o s
  | .vcmpLt o => Sys2Proof.Machine.execVcmpLt o s
  | .vcmpLe o => Sys2Proof.Machine.execVcmpLe o s
  | .vcmpGt o => Sys2Proof.Machine.execVcmpGt o s
  | .vcmpGe o => Sys2Proof.Machine.execVcmpGe o s
  | .vcmpLtu o => Sys2Proof.Machine.execVcmpLtu o s
  | .vcmpLeu o => Sys2Proof.Machine.execVcmpLeu o s
  | .vcmpGtu o => Sys2Proof.Machine.execVcmpGtu o s
  | .vcmpGeu o => Sys2Proof.Machine.execVcmpGeu o s
  | .vsel o => Sys2Proof.Machine.execVsel o s
  | .vmkl o => Sys2Proof.Machine.execVmkl o s
  | .vmpop o => Sys2Proof.Machine.execVmpop o s
  | .vbcast o => Sys2Proof.Machine.execVbcast o s
  | .vmov o => Sys2Proof.Machine.execVmov o s
  | .vget o => Sys2Proof.Machine.execVget o s
  | .vput o => Sys2Proof.Machine.execVput o s
  | .vperm o => Sys2Proof.Machine.execVperm o s
  | .vrot o => Sys2Proof.Machine.execVrot o s
  | .vcompress o => Sys2Proof.Machine.execVcompress o s
  | .vexpand o => Sys2Proof.Machine.execVexpand o s
  | .vcvtF32I32 o => Sys2Proof.Machine.execVcvtF32I32 o s
  | .vcvtF32N32 o => Sys2Proof.Machine.execVcvtF32N32 o s
  | .vcvtI32F32 o => Sys2Proof.Machine.execVcvtI32F32 o s
  | .vcvtN32F32 o => Sys2Proof.Machine.execVcvtN32F32 o s
  | .vcvtF16F32 o => Sys2Proof.Machine.execVcvtF16F32 o s
  | .vcvtBf16F32 o => Sys2Proof.Machine.execVcvtBf16F32 o s
  | .vcvtF32F16 o => Sys2Proof.Machine.execVcvtF32F16 o s
  | .vcvtF32Bf16 o => Sys2Proof.Machine.execVcvtF32Bf16 o s
  | .vcvtE4m3F32 o => Sys2Proof.Machine.execVcvtE4m3F32 o s
  | .vcvtF32E4m3 o => Sys2Proof.Machine.execVcvtF32E4m3 o s
  | .vcvtF64F32 o => Sys2Proof.Machine.execVcvtF64F32 o s
  | .vcvtF32F64 o => Sys2Proof.Machine.execVcvtF32F64 o s
  | .vcvtF64I32 o => Sys2Proof.Machine.execVcvtF64I32 o s
  | .vcvtI32F64 o => Sys2Proof.Machine.execVcvtI32F64 o s
  | .vcvtF16Bf16 o => Sys2Proof.Machine.execVcvtF16Bf16 o s
  | .vcvtBf16F16 o => Sys2Proof.Machine.execVcvtBf16F16 o s
  | .vredAdd o => Sys2Proof.Machine.execVredAdd o s
  | .vredMin o => Sys2Proof.Machine.execVredMin o s
  | .vredMax o => Sys2Proof.Machine.execVredMax o s
  | .vredAnd o => Sys2Proof.Machine.execVredAnd o s
  | .vredOr o => Sys2Proof.Machine.execVredOr o s
  | .vredXor o => Sys2Proof.Machine.execVredXor o s
  | .vredMinu o => Sys2Proof.Machine.execVredMinu o s
  | .vredMaxu o => Sys2Proof.Machine.execVredMaxu o s
  | .vscanAdd o => Sys2Proof.Machine.execVscanAdd o s
  | .vscanMin o => Sys2Proof.Machine.execVscanMin o s
  | .vscanMax o => Sys2Proof.Machine.execVscanMax o s
  | .vexpr o => Sys2Proof.Machine.execVexpr o s
  | .vqsh o => Sys2Proof.Machine.execVqsh o s
  | .vdqsh o => Sys2Proof.Machine.execVdqsh o s
  | .vbaq o => Sys2Proof.Machine.execVbaq o s
  | .vld o => Sys2Proof.Machine.execVld o s
  | .vlds o => Sys2Proof.Machine.execVlds o s
  | .vgather o => Sys2Proof.Machine.execVgather o s
  | .vldw o => Sys2Proof.Machine.execVldw o s
  | .vldl o => Sys2Proof.Machine.execVldl o s
  | .vst o => Sys2Proof.Machine.execVst o s
  | .vsts o => Sys2Proof.Machine.execVsts o s
  | .vscatter o => Sys2Proof.Machine.execVscatter o s
  | .vstl o => Sys2Proof.Machine.execVstl o s
  | .vectorRetire key => Sys2Proof.Machine.execVectorRetire key s
  | .tld o => Sys2Proof.Machine.execTld o s
  | .tst o => Sys2Proof.Machine.execTst o s
  | .tldSplit o => Sys2Proof.Machine.execTldSplit o s
  | .tstSplit o => Sys2Proof.Machine.execTstSplit o s
  | .tileLineGrant key => Sys2Proof.Machine.execTileLineGrant key s
  | .ldsum o => Sys2Proof.Machine.execLdsum o s
  | .mclaim o => Sys2Proof.Machine.execMclaim o s
  | .mrel o => Sys2Proof.Machine.execMrel o s
  | .macz o => Sys2Proof.Machine.execMacz o s
  | .mld o => Sys2Proof.Machine.execMld o s
  | .wload o => Sys2Proof.Machine.execWload o s
  | .mma o => Sys2Proof.Machine.execMma o s
  | .mseq o => Sys2Proof.Machine.execMseq o s
  | .matrixQueueEntry cl => Sys2Proof.Machine.execMatrixQueueEntry cl s
  | .matrixStep cl => Sys2Proof.Machine.execMatrixStep cl s
  | .mseqStep cl => Sys2Proof.Machine.execMseqStep cl s
  | .macrd o => Sys2Proof.Machine.execMacrd o s
  | .macwr o => Sys2Proof.Machine.execMacwr o s
  | .mfol o => Sys2Proof.Machine.execMfol o s
  | .cpy o => Sys2Proof.Machine.execCpy o s
  | .cpyq o => Sys2Proof.Machine.execCpyq o s
  | .cpyt o => Sys2Proof.Machine.execCpyt o s
  | .cpytCow o => Sys2Proof.Machine.execCpytCow o s
  | .copyLine id => Sys2Proof.Machine.execCopyLine id s
  | .copyComplete id => Sys2Proof.Machine.execCopyComplete id s
  | .lvrd o => Sys2Proof.Machine.execLvrd o s
  | .lvnb o => Sys2Proof.Machine.execLvnb o s
  | .lvnext o => Sys2Proof.Machine.execLvnext o s
  | .gwqTake o => Sys2Proof.Machine.execGwqTake o s
  | .gwqCount o => Sys2Proof.Machine.execGwqCount o s
  | .trapEntry key => Sys2Proof.Machine.execTrapEntry key s
  | .rollback key => Sys2Proof.Machine.execRollback key s
  | .yieldExpiry key => Sys2Proof.Machine.execYieldExpiry key s
  | .delayExpiry key => Sys2Proof.Machine.execDelayExpiry key s
  | .migrationCheck core => Sys2Proof.Machine.execMigrationCheck core s
  | .helperArrival key => Sys2Proof.Machine.execHelperArrival key s
  | .streamSend id => Sys2Proof.Machine.execStreamSend id s
  | .streamCommit p => Sys2Proof.Machine.execStreamCommit p s
  | .streamAck id => Sys2Proof.Machine.execStreamAck id s
  | .windowAccessAtTarget r => Sys2Proof.Machine.execWindowAccessAtTarget r s
  | .windowResponse id dev ok data => Sys2Proof.Machine.execWindowResponse id dev ok data s
  | .fenceTimeout dev => Sys2Proof.Machine.execFenceTimeout dev s
  | .routeLossTimeout dev => Sys2Proof.Machine.execRouteLossTimeout dev s
  | .blockDispatch l die => Sys2Proof.Machine.execBlockDispatch l die s
  | .levelNotice dev index level step done => Sys2Proof.Machine.execLevelNotice dev index level step done s
  | .levelStall l die => Sys2Proof.Machine.execLevelStall l die s
  | .graphNode l node => Sys2Proof.Machine.execGraphNode l node s
  | .gatewayBlockReady core blk dev => Sys2Proof.Machine.execGatewayBlockReady core blk dev s
  | .rds die line => Sys2Proof.Machine.execRds die line s
  | .rdx die line => Sys2Proof.Machine.execRdx die line s
  | .upg die line => Sys2Proof.Machine.execUpg die line s
  | .wb die line => Sys2Proof.Machine.execWb die line s
  | .fwds die line => Sys2Proof.Machine.execFwds die line s
  | .fwdx die line => Sys2Proof.Machine.execFwdx die line s
  | .inv die line => Sys2Proof.Machine.execInv die line s
  | .invack die line => Sys2Proof.Machine.execInvack die line s
  | .data die line => Sys2Proof.Machine.execData die line s
  | .binv die line => Sys2Proof.Machine.execBinv die line s
  | .binvack die line => Sys2Proof.Machine.execBinvack die line s
  | .snoopTimeout die peer => Sys2Proof.Machine.execSnoopTimeout die peer s
  | .linkRetrainDone die peer ok => Sys2Proof.Machine.execLinkRetrainDone die peer ok s
  | .linkIdleSleep die peer => Sys2Proof.Machine.execLinkIdleSleep die peer s
  | .linkWake die peer => Sys2Proof.Machine.execLinkWake die peer s
  | .memrd pa take => Sys2Proof.Machine.execMemrd pa take s
  | .memwr pa bytes => Sys2Proof.Machine.execMemwr pa bytes s
  | .meminv pa bytes => Sys2Proof.Machine.execMeminv pa bytes s
  | .birsp pa bytes => Sys2Proof.Machine.execBirsp pa bytes s
  | .cxlGo id => Sys2Proof.Machine.execCxlGo id s
  | .qtailWrite q v => Sys2Proof.Machine.execQtailWrite q v s
  | .qctlWrite q v => Sys2Proof.Machine.execQctlWrite q v s
  | .queuePromotion q => Sys2Proof.Machine.execQueuePromotion q s
  | .queueEntryStart => Sys2Proof.Machine.execQueueEntryStart s
  | .launch l => Sys2Proof.Machine.execLaunch l s
  | .launchEnd l => Sys2Proof.Machine.execLaunchEnd l s
  | .graph q => Sys2Proof.Machine.execGraph q s
  | .copy q => Sys2Proof.Machine.execCopy q s
  | .eventSignal q => Sys2Proof.Machine.execEventSignal q s
  | .eventWait q => Sys2Proof.Machine.execEventWait q s
  | .vacate q => Sys2Proof.Machine.execVacate q s
  | .switchOut q => Sys2Proof.Machine.execSwitchOut q s
  | .switchIn q => Sys2Proof.Machine.execSwitchIn q s
  | .tlbiAll v => Sys2Proof.Machine.execTlbiAll v s
  | .tlbiAsid v => Sys2Proof.Machine.execTlbiAsid v s
  | .tlbiPageAsid v => Sys2Proof.Machine.execTlbiPageAsid v s
  | .tlbiPageAll v => Sys2Proof.Machine.execTlbiPageAll v s
  | .tlbiDone => Sys2Proof.Machine.execTlbiDone s
  | .migrate m v => Sys2Proof.Machine.execMigrate m v s
  | .migrationDone m => Sys2Proof.Machine.execMigrationDone m s
  | .mgovWrite cl v => Sys2Proof.Machine.execMgovWrite cl v s
  | .lwctlWrite die u v => Sys2Proof.Machine.execLwctlWrite die u v s
  | .lwcntClear die u v => Sys2Proof.Machine.execLwcntClear die u v s
  | .sliceCounterClear die sl reg v => Sys2Proof.Machine.execSliceCounterClear die sl reg v s
  | .gwrxWrite core v => Sys2Proof.Machine.execGwrxWrite core v s
  | .ctvecWrite core v => Sys2Proof.Machine.execCtvecWrite core v s
  | .plsetWrite n v => Sys2Proof.Machine.execPlsetWrite n v s
  | .plostClear n v => Sys2Proof.Machine.execPlostClear n v s
  | .portWrite p v => Sys2Proof.Machine.execPortWrite p v s
  | .rmaddWrite v => Sys2Proof.Machine.execRmaddWrite v s
  | .lmAttest => Sys2Proof.Machine.execLmAttest s
  | .lmStageFirmware => Sys2Proof.Machine.execLmStageFirmware s
  | .lmInstallLinkKey => Sys2Proof.Machine.execLmInstallLinkKey s
  | .lmWriteCert => Sys2Proof.Machine.execLmWriteCert s
  | .lmUnknownCommand v => Sys2Proof.Machine.execLmUnknownCommand v s
  | .registerWrite off v => Sys2Proof.Machine.execRegisterWrite off v s
  | .eccCorrected unit pa t => Sys2Proof.Machine.execEccCorrected unit pa t s
  | .eccUncorrectable unit place n t => Sys2Proof.Machine.execEccUncorrectable unit place n t s
  | .retire unit t => Sys2Proof.Machine.execRetire unit t s
  | .packageReset => Sys2Proof.Machine.execPackageReset s
  | .powerLoss => Sys2Proof.Machine.execPowerLoss s
  | .illegalOpcode => Sys2Proof.Machine.execIllegalOpcode s
  | .hostSnoop pa take => Sys2Proof.Machine.execHostSnoop pa take s
  | .portTrained p => Sys2Proof.Machine.execPortTrained p s
  | .portLinkDown p => Sys2Proof.Machine.execPortLinkDown p s
  | .gwqTakeTimeout key => Sys2Proof.Machine.execGwqTakeTimeout key s
  | .hostResume l => Sys2Proof.Machine.execHostResume l s

end Sys2Proof.Machine
end

