-- ==== Sys2Proof/Machine/Issue.lean ====
section
/-!
DEFINITION. The three opcode maps (R95 to R97) as a dispatch of the word taken apart to the meanings: the same arms as
`exec`, without the syntax between. A code that no map lists raises IllegalOpcode (R98).
-/

namespace Sys2Proof.Machine

open Sys2Proof

/-- The rows of `mtsr` by special-register number (R41, R128). -/
def runMtsr (o : Sh) (s : State) : Host.Outcome State Fault Refusal :=
  match o.imm.toNat % 256 with
  | 0 => Sys2Proof.Machine.execMtsrSr o s
  | 7 => Sys2Proof.Machine.execMtsrCsplit o s
  | 8 => Sys2Proof.Machine.execMtsrVgrp o s
  | 10 => Sys2Proof.Machine.execMtsrMgstall o s
  | 17 => Sys2Proof.Machine.execMtsrDridx o s
  | 24 => Sys2Proof.Machine.execMtsrDrrpl o s
  | _ => Sys2Proof.Machine.execMtsr o s

/-- R95 as a dispatch. -/
def runShort (opc fn : Nat) (o : Sh) (s : State) : Host.Outcome State Fault Refusal :=
  match opc with
  | 0x01 =>
    match fn with
    | 0 => Sys2Proof.Machine.execNop o s
    | 1 => Sys2Proof.Machine.execBrk o s
    | 2 => Sys2Proof.Machine.execTrap o s
    | 3 => Sys2Proof.Machine.execEret o s
    | 4 => Sys2Proof.Machine.execHend o s
    | 10 => Sys2Proof.Machine.execKfence o s
    | 5 => Sys2Proof.Machine.execMfsr o s
    | 6 => runMtsr o s
    | 7 => Sys2Proof.Machine.execRid o s
    | 8 => Sys2Proof.Machine.execHjoin o s
    | 9 => Sys2Proof.Machine.execGaddr o s
    | _ => Sys2Proof.Machine.execIllegalOpcode s
  | 0x02 =>
    match fn with
    | 0 => Sys2Proof.Machine.execHstart o s
    | 1 => Sys2Proof.Machine.execHstartM o s
    | _ => Sys2Proof.Machine.execIllegalOpcode s
  | 0x03 =>
    match fn with
    | 0 => Sys2Proof.Machine.execVclaim o s
    | 1 => Sys2Proof.Machine.execVrenew o s
    | _ => Sys2Proof.Machine.execIllegalOpcode s
  | 0x04 => if 1 ≤ fn ∧ fn ≤ 9 then Sys2Proof.Machine.execFmt (BitVec.ofNat 4 fn) o s else Sys2Proof.Machine.execIllegalOpcode s
  | 0x08 =>
    match fn with
    | 0 => Sys2Proof.Machine.execAdd o s
    | 1 => Sys2Proof.Machine.execSub o s
    | 2 => Sys2Proof.Machine.execAnd o s
    | 3 => Sys2Proof.Machine.execOr o s
    | 4 => Sys2Proof.Machine.execXor o s
    | 5 => Sys2Proof.Machine.execShl o s
    | 6 => Sys2Proof.Machine.execShr o s
    | 7 => Sys2Proof.Machine.execSra o s
    | 8 => Sys2Proof.Machine.execMul o s
    | 9 => Sys2Proof.Machine.execMulh o s
    | 10 => Sys2Proof.Machine.execMulhu o s
    | 11 => Sys2Proof.Machine.execDiv o s
    | 12 => Sys2Proof.Machine.execDivu o s
    | 13 => Sys2Proof.Machine.execRem o s
    | 14 => Sys2Proof.Machine.execRemu o s
    | 15 => Sys2Proof.Machine.execAndn o s
    | _ => Sys2Proof.Machine.execIllegalOpcode s
  | 0x09 =>
    match fn with
    | 0 => Sys2Proof.Machine.execAddImm o s
    | 1 => Sys2Proof.Machine.execSubImm o s
    | 2 => Sys2Proof.Machine.execAndImm o s
    | 3 => Sys2Proof.Machine.execOrImm o s
    | 4 => Sys2Proof.Machine.execXorImm o s
    | 5 => Sys2Proof.Machine.execShlImm o s
    | 6 => Sys2Proof.Machine.execShrImm o s
    | 7 => Sys2Proof.Machine.execSraImm o s
    | 8 => Sys2Proof.Machine.execMulImm o s
    | 9 => Sys2Proof.Machine.execMulhImm o s
    | 10 => Sys2Proof.Machine.execMulhuImm o s
    | 11 => Sys2Proof.Machine.execDivImm o s
    | 12 => Sys2Proof.Machine.execDivuImm o s
    | 13 => Sys2Proof.Machine.execRemImm o s
    | 14 => Sys2Proof.Machine.execRemuImm o s
    | 15 => Sys2Proof.Machine.execAndnImm o s
    | _ => Sys2Proof.Machine.execIllegalOpcode s
  | 0x0a =>
    match fn with
    | 0 => Sys2Proof.Machine.execSlt o s
    | 1 => Sys2Proof.Machine.execSltu o s
    | 2 => Sys2Proof.Machine.execMin o s
    | 3 => Sys2Proof.Machine.execMinu o s
    | 4 => Sys2Proof.Machine.execMax o s
    | 5 => Sys2Proof.Machine.execMaxu o s
    | 6 => Sys2Proof.Machine.execAddSat o s
    | 7 => Sys2Proof.Machine.execSubSat o s
    | 8 => Sys2Proof.Machine.execAdduSat o s
    | 9 => Sys2Proof.Machine.execSubuSat o s
    | 10 => Sys2Proof.Machine.execMulSat o s
    | 11 => Sys2Proof.Machine.execMuluSat o s
    | 12 => Sys2Proof.Machine.execRol o s
    | 13 => Sys2Proof.Machine.execRor o s
    | _ => Sys2Proof.Machine.execIllegalOpcode s
  | 0x0b =>
    match fn with
    | 0 => Sys2Proof.Machine.execSltImm o s
    | 1 => Sys2Proof.Machine.execSltuImm o s
    | 2 => Sys2Proof.Machine.execMinImm o s
    | 3 => Sys2Proof.Machine.execMinuImm o s
    | 4 => Sys2Proof.Machine.execMaxImm o s
    | 5 => Sys2Proof.Machine.execMaxuImm o s
    | 6 => Sys2Proof.Machine.execAddSatImm o s
    | 7 => Sys2Proof.Machine.execSubSatImm o s
    | 8 => Sys2Proof.Machine.execAdduSatImm o s
    | 9 => Sys2Proof.Machine.execSubuSatImm o s
    | 10 => Sys2Proof.Machine.execMulSatImm o s
    | 11 => Sys2Proof.Machine.execMuluSatImm o s
    | 12 => Sys2Proof.Machine.execRolImm o s
    | 13 => Sys2Proof.Machine.execRorImm o s
    | _ => Sys2Proof.Machine.execIllegalOpcode s
  | 0x0c =>
    match fn with
    | 0 => Sys2Proof.Machine.execPop o s
    | 1 => Sys2Proof.Machine.execClz o s
    | 2 => Sys2Proof.Machine.execCtz o s
    | 3 => Sys2Proof.Machine.execBrev o s
    | 4 => Sys2Proof.Machine.execBswap o s
    | 5 => Sys2Proof.Machine.execSext8 o s
    | 6 => Sys2Proof.Machine.execSext16 o s
    | 7 => Sys2Proof.Machine.execSext32 o s
    | 8 => Sys2Proof.Machine.execZext8 o s
    | 9 => Sys2Proof.Machine.execZext16 o s
    | 10 => Sys2Proof.Machine.execZext32 o s
    | _ => Sys2Proof.Machine.execIllegalOpcode s
  | 0x0d =>
    match fn with
    | 0 => Sys2Proof.Machine.execExt o s
    | 1 => Sys2Proof.Machine.execExtz o s
    | 2 => Sys2Proof.Machine.execIns o s
    | _ => Sys2Proof.Machine.execIllegalOpcode s
  | 0x0e =>
    match fn with
    | 0 => Sys2Proof.Machine.execMovl o s
    | 1 => Sys2Proof.Machine.execMovh o s
    | _ => Sys2Proof.Machine.execIllegalOpcode s
  | 0x10 =>
    match fn with
    | 0 => Sys2Proof.Machine.execBeq o s
    | 1 => Sys2Proof.Machine.execBne o s
    | 2 => Sys2Proof.Machine.execBlt o s
    | 3 => Sys2Proof.Machine.execBge o s
    | 4 => Sys2Proof.Machine.execBltu o s
    | 5 => Sys2Proof.Machine.execBgeu o s
    | _ => Sys2Proof.Machine.execIllegalOpcode s
  | 0x11 =>
    match fn with
    | 0 => Sys2Proof.Machine.execJ o s
    | 1 => Sys2Proof.Machine.execCall o s
    | 2 => Sys2Proof.Machine.execJr o s
    | 3 => Sys2Proof.Machine.execCallr o s
    | _ => Sys2Proof.Machine.execIllegalOpcode s
  | 0x18 => if fn < 7 then Sys2Proof.Machine.execLd (BitVec.ofNat 4 fn) (.ofSh o) s else Sys2Proof.Machine.execIllegalOpcode s
  | 0x19 => if fn < 4 then Sys2Proof.Machine.execSt (BitVec.ofNat 4 fn) (.ofSh o) s else Sys2Proof.Machine.execIllegalOpcode s
  | 0x1a => if fn < 7 then Sys2Proof.Machine.execLdk (BitVec.ofNat 4 fn) (.ofSh o) s else Sys2Proof.Machine.execIllegalOpcode s
  | 0x1b => if fn < 16 then Sys2Proof.Machine.execLdp (BitVec.ofNat 4 fn) (.ofSh o) s else Sys2Proof.Machine.execIllegalOpcode s
  | 0x1c => if fn < 7 then Sys2Proof.Machine.execLda (BitVec.ofNat 4 fn) (.ofSh o) s else Sys2Proof.Machine.execIllegalOpcode s
  | 0x1d => if fn < 4 then Sys2Proof.Machine.execStl (BitVec.ofNat 4 fn) (.ofSh o) s else Sys2Proof.Machine.execIllegalOpcode s
  | 0x1e =>
    match fn with
    | 0 => Sys2Proof.Machine.execFence (.ofSh o) s
    | _ => Sys2Proof.Machine.execIllegalOpcode s
  | 0x1f => if fn < 4 then Sys2Proof.Machine.execSts (BitVec.ofNat 4 fn) (.ofSh o) s else Sys2Proof.Machine.execIllegalOpcode s
  | 0x20 =>
    match fn with
    | 0 => Sys2Proof.Machine.execAmoAdd (.ofSh o) s
    | 1 => Sys2Proof.Machine.execAmoAnd (.ofSh o) s
    | 2 => Sys2Proof.Machine.execAmoOr (.ofSh o) s
    | 3 => Sys2Proof.Machine.execAmoXor (.ofSh o) s
    | 4 => Sys2Proof.Machine.execAmoMin (.ofSh o) s
    | 5 => Sys2Proof.Machine.execAmoMax (.ofSh o) s
    | 6 => Sys2Proof.Machine.execAmoMinu (.ofSh o) s
    | 7 => Sys2Proof.Machine.execAmoMaxu (.ofSh o) s
    | 8 => Sys2Proof.Machine.execAmoSwap (.ofSh o) s
    | 10 => Sys2Proof.Machine.execAmoFaddF64 (.ofSh o) s
    | _ => Sys2Proof.Machine.execIllegalOpcode s
  | 0x21 =>
    match fn with
    | 0 => Sys2Proof.Machine.execAmoAddI32 (.ofSh o) s
    | 1 => Sys2Proof.Machine.execAmoAndI32 (.ofSh o) s
    | 2 => Sys2Proof.Machine.execAmoOrI32 (.ofSh o) s
    | 3 => Sys2Proof.Machine.execAmoXorI32 (.ofSh o) s
    | 4 => Sys2Proof.Machine.execAmoMinI32 (.ofSh o) s
    | 5 => Sys2Proof.Machine.execAmoMaxI32 (.ofSh o) s
    | 6 => Sys2Proof.Machine.execAmoMinuI32 (.ofSh o) s
    | 7 => Sys2Proof.Machine.execAmoMaxuI32 (.ofSh o) s
    | 8 => Sys2Proof.Machine.execAmoSwapI32 (.ofSh o) s
    | 9 => Sys2Proof.Machine.execAmoFaddF32 (.ofSh o) s
    | _ => Sys2Proof.Machine.execIllegalOpcode s
  | 0x22 =>
    match fn with
    | 0 => Sys2Proof.Machine.execCas (.ofSh o) s
    | 1 => Sys2Proof.Machine.execCasI32 (.ofSh o) s
    | _ => Sys2Proof.Machine.execIllegalOpcode s
  | 0x23 =>
    match fn with
    | 0 => Sys2Proof.Machine.execRamoAdd (.ofSh o) s
    | 1 => Sys2Proof.Machine.execRamoAnd (.ofSh o) s
    | 2 => Sys2Proof.Machine.execRamoOr (.ofSh o) s
    | 3 => Sys2Proof.Machine.execRamoXor (.ofSh o) s
    | 4 => Sys2Proof.Machine.execRamoMin (.ofSh o) s
    | 5 => Sys2Proof.Machine.execRamoMax (.ofSh o) s
    | 6 => Sys2Proof.Machine.execRamoMinu (.ofSh o) s
    | 7 => Sys2Proof.Machine.execRamoMaxu (.ofSh o) s
    | 8 => Sys2Proof.Machine.execRamoSwap (.ofSh o) s
    | _ => Sys2Proof.Machine.execIllegalOpcode s
  | 0x24 =>
    match fn with
    | 0 => Sys2Proof.Machine.execWaitEq (.ofSh o) s
    | 1 => Sys2Proof.Machine.execWaitNe (.ofSh o) s
    | _ => Sys2Proof.Machine.execIllegalOpcode s
  | 0x25 =>
    match fn with
    | 0 => Sys2Proof.Machine.execBar o s
    | 1 => Sys2Proof.Machine.execBara o s
    | 2 => Sys2Proof.Machine.execBarw o s
    | 3 => Sys2Proof.Machine.execBard o s
    | _ => Sys2Proof.Machine.execIllegalOpcode s
  | 0x26 =>
    match fn with
    | 0 => Sys2Proof.Machine.execEvw o s
    | 1 => Sys2Proof.Machine.execEvs o s
    | _ => Sys2Proof.Machine.execIllegalOpcode s
  | 0x27 =>
    match fn with
    | 0 => Sys2Proof.Machine.execSend o s
    | 1 => Sys2Proof.Machine.execRecv o s
    | _ => Sys2Proof.Machine.execIllegalOpcode s
  | 0x28 =>
    match fn with
    | 0 => Sys2Proof.Machine.execRole o s
    | 1 => Sys2Proof.Machine.execGsize o s
    | 2 => Sys2Proof.Machine.execGrank o s
    | _ => Sys2Proof.Machine.execIllegalOpcode s
  | 0x29 =>
    match fn with
    | 0 => Sys2Proof.Machine.execCinv (.ofSh o) s
    | 1 => Sys2Proof.Machine.execCwb (.ofSh o) s
    | 2 => Sys2Proof.Machine.execCpf (.ofSh o) s
    | _ => Sys2Proof.Machine.execIllegalOpcode s
  | 0x2a =>
    match fn with
    | 0 => Sys2Proof.Machine.execSfence o s
    | 1 => Sys2Proof.Machine.execMark o s
    | _ => Sys2Proof.Machine.execIllegalOpcode s
  | 0x2b =>
    match fn with
    | 0 => Sys2Proof.Machine.execFadd o s
    | 1 => Sys2Proof.Machine.execFsub o s
    | 2 => Sys2Proof.Machine.execFmul o s
    | 3 => Sys2Proof.Machine.execFdiv o s
    | 4 => Sys2Proof.Machine.execFsqrt o s
    | 5 => Sys2Proof.Machine.execFmin o s
    | 6 => Sys2Proof.Machine.execFmax o s
    | 7 => Sys2Proof.Machine.execFeq o s
    | 8 => Sys2Proof.Machine.execFlt o s
    | 9 => Sys2Proof.Machine.execFle o s
    | 10 => Sys2Proof.Machine.execFneg o s
    | 11 => Sys2Proof.Machine.execFabs o s
    | _ => Sys2Proof.Machine.execIllegalOpcode s
  | 0x2c =>
    match fn with
    | 0 => Sys2Proof.Machine.execFaddF32 o s
    | 1 => Sys2Proof.Machine.execFsubF32 o s
    | 2 => Sys2Proof.Machine.execFmulF32 o s
    | 3 => Sys2Proof.Machine.execFdivF32 o s
    | 4 => Sys2Proof.Machine.execFsqrtF32 o s
    | 5 => Sys2Proof.Machine.execFminF32 o s
    | 6 => Sys2Proof.Machine.execFmaxF32 o s
    | 7 => Sys2Proof.Machine.execFeqF32 o s
    | 8 => Sys2Proof.Machine.execFltF32 o s
    | 9 => Sys2Proof.Machine.execFleF32 o s
    | 10 => Sys2Proof.Machine.execFnegF32 o s
    | 11 => Sys2Proof.Machine.execFabsF32 o s
    | _ => Sys2Proof.Machine.execIllegalOpcode s
  | 0x2d =>
    match fn with
    | 0 => Sys2Proof.Machine.execCvtF64I64 o s
    | 1 => Sys2Proof.Machine.execCvtF64N64 o s
    | 2 => Sys2Proof.Machine.execCvtI64F64 o s
    | 3 => Sys2Proof.Machine.execCvtN64F64 o s
    | 4 => Sys2Proof.Machine.execCvtF32I64 o s
    | 5 => Sys2Proof.Machine.execCvtF32N64 o s
    | 6 => Sys2Proof.Machine.execCvtI64F32 o s
    | 7 => Sys2Proof.Machine.execCvtN64F32 o s
    | 8 => Sys2Proof.Machine.execCvtF32F64 o s
    | 9 => Sys2Proof.Machine.execCvtF64F32 o s
    | _ => Sys2Proof.Machine.execIllegalOpcode s
  | _ => Sys2Proof.Machine.execIllegalOpcode s

/-- R96 as a dispatch. -/
def runLong (opc fn : Nat) (o : Lg) (s : State) : Host.Outcome State Fault Refusal :=
  match opc with
  | 0x01 =>
    match fn with
    | 0 => Sys2Proof.Machine.execNopLong o s
    | _ => Sys2Proof.Machine.execIllegalOpcode s
  | 0x02 => if fn < 16 then Sys2Proof.Machine.execGuardedAluReg (BitVec.ofNat 6 fn) o s else Sys2Proof.Machine.execIllegalOpcode s
  | 0x03 => if fn < 16 then Sys2Proof.Machine.execGuardedAluImm (BitVec.ofNat 6 fn) o s else Sys2Proof.Machine.execIllegalOpcode s
  | 0x04 => if fn < 14 then Sys2Proof.Machine.execGuardedAlu2Reg (BitVec.ofNat 6 fn) o s else Sys2Proof.Machine.execIllegalOpcode s
  | 0x05 => if fn < 14 then Sys2Proof.Machine.execGuardedAlu2Imm (BitVec.ofNat 6 fn) o s else Sys2Proof.Machine.execIllegalOpcode s
  | 0x06 => if fn < 7 then Sys2Proof.Machine.execGuardedLd (BitVec.ofNat 6 fn) (.ofLg o) s else Sys2Proof.Machine.execIllegalOpcode s
  | 0x07 => if fn < 4 then Sys2Proof.Machine.execGuardedSt (BitVec.ofNat 6 fn) (.ofLg o) s else Sys2Proof.Machine.execIllegalOpcode s
  | 0x08 =>
    match fn with
    | 0 => Sys2Proof.Machine.execFma o s
    | 1 => Sys2Proof.Machine.execMulWide o s
    | 2 => Sys2Proof.Machine.execMuluWide o s
    | 3 => Sys2Proof.Machine.execCsel o s
    | _ => Sys2Proof.Machine.execIllegalOpcode s
  | 0x10 =>
    match fn with
    | 0 => Sys2Proof.Machine.execVaddInt o s
    | 1 => Sys2Proof.Machine.execVsubInt o s
    | 2 => Sys2Proof.Machine.execVmulInt o s
    | 3 => Sys2Proof.Machine.execVmulh o s
    | 4 => Sys2Proof.Machine.execVmulhu o s
    | 5 => Sys2Proof.Machine.execVminInt o s
    | 6 => Sys2Proof.Machine.execVminu o s
    | 7 => Sys2Proof.Machine.execVmaxInt o s
    | 8 => Sys2Proof.Machine.execVmaxu o s
    | 9 => Sys2Proof.Machine.execVand o s
    | 10 => Sys2Proof.Machine.execVor o s
    | 11 => Sys2Proof.Machine.execVxor o s
    | 12 => Sys2Proof.Machine.execVshl o s
    | 13 => Sys2Proof.Machine.execVshr o s
    | 14 => Sys2Proof.Machine.execVsra o s
    | 15 => Sys2Proof.Machine.execVabsInt o s
    | 16 => Sys2Proof.Machine.execVnegInt o s
    | 17 => Sys2Proof.Machine.execVaddSat o s
    | 18 => Sys2Proof.Machine.execVsubSat o s
    | 19 => Sys2Proof.Machine.execVadduSat o s
    | 20 => Sys2Proof.Machine.execVsubuSat o s
    | 21 => Sys2Proof.Machine.execVpop o s
    | 22 => Sys2Proof.Machine.execVclz o s
    | _ => Sys2Proof.Machine.execIllegalOpcode s
  | 0x11 =>
    match fn with
    | 0 => Sys2Proof.Machine.execVaddF o s
    | 1 => Sys2Proof.Machine.execVsubF o s
    | 2 => Sys2Proof.Machine.execVmulF o s
    | 3 => Sys2Proof.Machine.execVdiv o s
    | 4 => Sys2Proof.Machine.execVsqrt o s
    | 5 => Sys2Proof.Machine.execVminF o s
    | 6 => Sys2Proof.Machine.execVmaxF o s
    | 7 => Sys2Proof.Machine.execVabsF o s
    | 8 => Sys2Proof.Machine.execVnegF o s
    | 9 => Sys2Proof.Machine.execVfma o s
    | 10 => Sys2Proof.Machine.execVfms o s
    | 11 => Sys2Proof.Machine.execVfnma o s
    | 12 => Sys2Proof.Machine.execVrcp o s
    | 13 => Sys2Proof.Machine.execVrsqrt o s
    | 14 => Sys2Proof.Machine.execVex2 o s
    | 15 => Sys2Proof.Machine.execVlg2 o s
    | 16 => Sys2Proof.Machine.execVcopysign o s
    | _ => Sys2Proof.Machine.execIllegalOpcode s
  | 0x12 =>
    match fn with
    | 0 => Sys2Proof.Machine.execVcmpEq o s
    | 1 => Sys2Proof.Machine.execVcmpNe o s
    | 2 => Sys2Proof.Machine.execVcmpLt o s
    | 3 => Sys2Proof.Machine.execVcmpLe o s
    | 4 => Sys2Proof.Machine.execVcmpGt o s
    | 5 => Sys2Proof.Machine.execVcmpGe o s
    | 6 => Sys2Proof.Machine.execVcmpLtu o s
    | 7 => Sys2Proof.Machine.execVcmpLeu o s
    | 8 => Sys2Proof.Machine.execVcmpGtu o s
    | 9 => Sys2Proof.Machine.execVcmpGeu o s
    | _ => Sys2Proof.Machine.execIllegalOpcode s
  | 0x13 =>
    match fn with
    | 0 => Sys2Proof.Machine.execVsel o s
    | 1 => Sys2Proof.Machine.execVmkl o s
    | 6 => Sys2Proof.Machine.execVmpop o s
    | 2 => Sys2Proof.Machine.execVbcast o s
    | 3 => Sys2Proof.Machine.execVmov o s
    | 4 => Sys2Proof.Machine.execVget o s
    | 5 => Sys2Proof.Machine.execVput o s
    | _ => Sys2Proof.Machine.execIllegalOpcode s
  | 0x14 =>
    match fn with
    | 0 => Sys2Proof.Machine.execVperm o s
    | 1 => Sys2Proof.Machine.execVrot o s
    | 2 => Sys2Proof.Machine.execVcompress o s
    | 3 => Sys2Proof.Machine.execVexpand o s
    | _ => Sys2Proof.Machine.execIllegalOpcode s
  | 0x15 =>
    match fn with
    | 0 => Sys2Proof.Machine.execVcvtF32I32 o s
    | 1 => Sys2Proof.Machine.execVcvtF32N32 o s
    | 2 => Sys2Proof.Machine.execVcvtI32F32 o s
    | 3 => Sys2Proof.Machine.execVcvtN32F32 o s
    | 4 => Sys2Proof.Machine.execVcvtF16F32 o s
    | 5 => Sys2Proof.Machine.execVcvtBf16F32 o s
    | 6 => Sys2Proof.Machine.execVcvtF32F16 o s
    | 7 => Sys2Proof.Machine.execVcvtF32Bf16 o s
    | 8 => Sys2Proof.Machine.execVcvtE4m3F32 o s
    | 9 => Sys2Proof.Machine.execVcvtF32E4m3 o s
    | 10 => Sys2Proof.Machine.execVcvtF64F32 o s
    | 11 => Sys2Proof.Machine.execVcvtF32F64 o s
    | 12 => Sys2Proof.Machine.execVcvtF64I32 o s
    | 13 => Sys2Proof.Machine.execVcvtI32F64 o s
    | 14 => Sys2Proof.Machine.execVcvtF16Bf16 o s
    | 15 => Sys2Proof.Machine.execVcvtBf16F16 o s
    | _ => Sys2Proof.Machine.execIllegalOpcode s
  | 0x16 =>
    match fn with
    | 0 => Sys2Proof.Machine.execVredAdd o s
    | 1 => Sys2Proof.Machine.execVredMin o s
    | 2 => Sys2Proof.Machine.execVredMax o s
    | 3 => Sys2Proof.Machine.execVredAnd o s
    | 4 => Sys2Proof.Machine.execVredOr o s
    | 5 => Sys2Proof.Machine.execVredXor o s
    | 6 => Sys2Proof.Machine.execVredMinu o s
    | 7 => Sys2Proof.Machine.execVredMaxu o s
    | 8 => Sys2Proof.Machine.execVscanAdd o s
    | 9 => Sys2Proof.Machine.execVscanMin o s
    | 10 => Sys2Proof.Machine.execVscanMax o s
    | _ => Sys2Proof.Machine.execIllegalOpcode s
  | 0x17 =>
    match fn with
    | 0 => Sys2Proof.Machine.execVqsh (.ofLg o) s
    | 1 => Sys2Proof.Machine.execVdqsh (.ofLg o) s
    | 2 => Sys2Proof.Machine.execVbaq (.ofLg o) s
    | _ => Sys2Proof.Machine.execIllegalOpcode s
  | 0x20 =>
    match fn with
    | 0 => Sys2Proof.Machine.execVld (.ofLg o) s
    | 1 => Sys2Proof.Machine.execVlds (.ofLg o) s
    | 2 => Sys2Proof.Machine.execVgather (.ofLg o) s
    | 3 => Sys2Proof.Machine.execVldw (.ofLg o) s
    | 4 => Sys2Proof.Machine.execVldl (.ofLg o) s
    | _ => Sys2Proof.Machine.execIllegalOpcode s
  | 0x21 =>
    match fn with
    | 0 => Sys2Proof.Machine.execVst (.ofLg o) s
    | 1 => Sys2Proof.Machine.execVsts (.ofLg o) s
    | 2 => Sys2Proof.Machine.execVscatter (.ofLg o) s
    | 3 => Sys2Proof.Machine.execVstl (.ofLg o) s
    | _ => Sys2Proof.Machine.execIllegalOpcode s
  | 0x24 =>
    match fn with
    | 0 => Sys2Proof.Machine.execTld (.ofLg o) s
    | 1 => Sys2Proof.Machine.execTst (.ofLg o) s
    | 2 => Sys2Proof.Machine.execTldSplit (.ofLg o) s
    | 3 => Sys2Proof.Machine.execTstSplit (.ofLg o) s
    | _ => Sys2Proof.Machine.execIllegalOpcode s
  | 0x28 =>
    match fn with
    | 0 => Sys2Proof.Machine.execLdsum (.ofLg o) s
    | _ => Sys2Proof.Machine.execIllegalOpcode s
  | _ => Sys2Proof.Machine.execIllegalOpcode s

/-- R97 as a dispatch. -/
def runExt (opc fn : Nat) (lo : Low) (tail : BitVec 64) (s : State) : Host.Outcome State Fault Refusal :=
  match opc with
  | 0x01 =>
    match fn with
    | 0 => Sys2Proof.Machine.execNopExt (.ofTail lo tail) s
    | _ => Sys2Proof.Machine.execIllegalOpcode s
  | 0x10 =>
    match fn with
    | 0 => Sys2Proof.Machine.execVexpr (.ofTail lo tail) s
    | _ => Sys2Proof.Machine.execIllegalOpcode s
  | 0x20 =>
    match fn with
    | 0 => Sys2Proof.Machine.execMclaim (.ofTail lo tail) s
    | 1 => Sys2Proof.Machine.execMrel (.ofTail lo tail) s
    | 2 => Sys2Proof.Machine.execMacz (.ofTail lo tail) s
    | _ => Sys2Proof.Machine.execIllegalOpcode s
  | 0x21 =>
    match fn with
    | 0 => Sys2Proof.Machine.execMld (.ofTail lo tail) s
    | 1 => Sys2Proof.Machine.execWload (.ofTail lo tail) s
    | _ => Sys2Proof.Machine.execIllegalOpcode s
  | 0x22 =>
    match fn with
    | 0 => Sys2Proof.Machine.execMma (.ofTail lo tail) s
    | _ => Sys2Proof.Machine.execIllegalOpcode s
  | 0x23 =>
    match fn with
    | 0 => Sys2Proof.Machine.execMseq (.ofTail lo tail) s
    | _ => Sys2Proof.Machine.execIllegalOpcode s
  | 0x24 =>
    match fn with
    | 0 => Sys2Proof.Machine.execMacrd (.ofTail lo tail) s
    | 1 => Sys2Proof.Machine.execMacwr (.ofTail lo tail) s
    | _ => Sys2Proof.Machine.execIllegalOpcode s
  | 0x25 =>
    match fn with
    | 0 => Sys2Proof.Machine.execMfol (.ofTail lo tail) s
    | _ => Sys2Proof.Machine.execIllegalOpcode s
  | 0x30 =>
    match fn with
    | 0 => Sys2Proof.Machine.execCpy (.ofTail lo tail) s
    | 1 => Sys2Proof.Machine.execCpyq (.ofTail lo tail) s
    | _ => Sys2Proof.Machine.execIllegalOpcode s
  | 0x31 =>
    match fn with
    | 0 => Sys2Proof.Machine.execCpyt (.ofTail lo tail) s
    | 1 => Sys2Proof.Machine.execCpytCow (.ofTail lo tail) s
    | _ => Sys2Proof.Machine.execIllegalOpcode s
  | 0x38 =>
    match fn with
    | 0 => Sys2Proof.Machine.execLvrd (.ofTail lo tail) s
    | 1 => Sys2Proof.Machine.execLvnb (.ofTail lo tail) s
    | 2 => Sys2Proof.Machine.execLvnext (.ofTail lo tail) s
    | _ => Sys2Proof.Machine.execIllegalOpcode s
  | 0x3c =>
    match fn with
    | 0 => if tail == 1 then Sys2Proof.Machine.execGwqCount (.ofTail lo tail) s else Sys2Proof.Machine.execGwqTake (.ofTail lo tail) s
    | _ => Sys2Proof.Machine.execIllegalOpcode s
  | _ => Sys2Proof.Machine.execIllegalOpcode s

/-- The instruction of a word taken apart. -/
def runRaw (r : Raw) (s : State) : Host.Outcome State Fault Refusal :=
  match r with
  | .short opc fn o => runShort opc.toNat fn.toNat o s
  | .long opc fn o => runLong opc.toNat fn.toNat o s
  | .ext opc fn lo tail => runExt opc.toNat fn.toNat lo tail s

end Sys2Proof.Machine
end

