-- ==== Sys2Proof/Machine/Run.lean ====
section
/-!
DEFINITION. One step of the machine: the fetch of an instruction (04 R78 to R80, R94), the choice of the context that
issues (11 R314), the moves that the package makes by itself, and what moves next (log entry 4).
-/

namespace Sys2Proof.Machine

open Sys2Proof

/-! ### Fetch -/

/-- The place of a fetch at an address (R80): the translated space, or the private aperture, which maps into it
(DEDUCED, log entry 18). -/
def fetchPlace (va : Nat) : M Nat := do
  let e ← curEnv
  let space := va / 2 ^ 55 % 4
  let sel := va / 2 ^ 52 % 8
  if space = 0 ∨ (space = 1 ∧ sel = 3) then
    match ← resolve e va 4 accExec with
    | .mem p _ => return p
    | _ => fault 6 accExec (BitVec.ofNat 64 va)
  else apertureFault (if space = 1 then sel else 8 + space - 1) va

/-- Whether an instruction crosses a fetch block (R79); a word whose length code is 11 is not an instruction
(DEDUCED, log entry 48). -/
def straddles (pc : Va) (w : BitVec 128) : Bool :=
  w.toNat % 4 != 3 && decide (pc.toNat % 32 + lengthOf w > 32)

/-- Marked bytes of an instruction raise UncorrectableData (R402). -/
def fetchMarks (p n : Nat) : M Unit := do
  let m := (← get).firstMark p n
  if m != 0 then fault 23 (markSub m 1).toNat (markVal m)

/-- The watchpoint that a fetch matches is noted for the Watch trap of its instruction (R283). -/
def noteFetch (va n : Nat) : M Unit := do
  let s ← get
  let hit := (watchKinds s s.cur 4 va n).head?
  if hit != (s.ctx s.cur).fetched then modCur fun c => { c with fetched := hit }

/-- A word, zero above the instruction's length (R37). -/
def trimmed (w : BitVec 128) : BitVec 128 := w &&& BitVec.ofNat 128 (2 ^ (8 * lengthOf w) - 1)

/-- The word at the pc: the rest of its 32-byte fetch block, as the constant path returns the block (R79, R80). The bytes
of an instruction that crosses into the next block are fetched too, for the first check of R94 comes before
FetchStraddle: both translations, then the marks of both (DEDUCED, log entries 11 and 48). -/
def fetchWord : M (BitVec 128) := do
  let pc := (← curCtx).pc
  let p ← fetchPlace pc.toNat
  let s ← get
  let (bs, _) ← constRead (placesFrom (p / 32 * 32) 32) (s.ctx s.cur).kfloor
  let w := wordOfBytes ((bs.drop (p % 32)).take 16)
  if straddles pc w then
    let q ← fetchPlace ((pc.toNat / 32 + 1) * 32 % 2 ^ 57)
    fetchMarks p (32 - p % 32)
    fetchMarks q (p % 32 + lengthOf w - 32)
  else fetchMarks p (min (lengthOf w) (32 - p % 32))
  noteFetch pc.toNat (lengthOf w)
  return trimmed w

/-- A word that its reserved fields refuse (R94). -/
def rejectReserved (s : State) : Outcome :=
  outcome (do
    let s ← get
    if !s.mayIssue s.cur then throw (.refuse .noContext) else reserved) s

/-- A fetched word issues in the current context: FetchStraddle, then the decoder's checks, then the instruction (R94)
(DEDUCED, log entry 48). -/
def issueWord (w : BitVec 128) (s : State) : Outcome :=
  let s := { s with iw := w }
  let pc := (s.ctx s.cur).pc
  if straddles pc w then outcome (fault 3 0 (pc.setWidth 64)) s
  else
    match checkRaw w with
    | .error .illegalOpcode => execIllegalOpcode s
    | .error .reservedField => rejectReserved s
    | .ok r => runRaw r s

/-- Another context of a core has issued, which ends a yield hint (R87) (DEDUCED, log entry 15). -/
def Ctx.endYield (c : Ctx) : Ctx :=
  match c.wait with
  | .hint true n => if n = 0 then c.wake else { c with wait := .hint false n }
  | _ => c

/-- A context is the one that its core issues from (R314) (DEDUCED, log entry 47). -/
def noteIssue (key : Nat) (s : State) : State :=
  let core := coreOfKey key
  let others := (s.ctxs.map (·.1)).filter fun k => coreOfKey k == core && k != key
  let s := others.foldl (fun s k => s.modCtx k Ctx.endYield) s
  let s := s.modCtx key fun c => { c with lastIssue := s.clock }
  { (s.modCore core fun k => { k with last := slotOfKey key }) with cur := key }

/-- The next instruction of a context issues (DEDUCED, log entry 47). -/
def issue (key : Nat) (s : State) : Outcome :=
  if !s.mayIssue key then .refused .noContext
  else
    let s := noteIssue key s
    let pc := (s.ctx key).pc
    match fetchWord.run s with
    | .ok w s' => issueWord w s'
    | .error (.trap t) s' => .next (takeTrap key pc pc t (clearNotes s'))
    | .error (.hold w sl) s' => .next (park key w sl s')
    | .error (.refuse r) _ => .refused r

/-- Whether what a Held or Sleeping context waits for has come about: its instruction would not wait again (R312)
(DEDUCED, log entry 47). -/
def State.waitOver (s : State) (key : Nat) : Bool :=
  let c := s.ctx key
  (c.st == .held || c.st == .sleeping) && c.wait.tries &&
    match issue key s with
    | .next s' =>
      let c' := s'.ctx key
      !((c'.st == .held || c'.st == .sleeping) && c'.wait.tries && c'.pc == c.pc)
    | _ => false

/-- The end of a wait makes a context Ready (R312): the `gwq` that waits keeps its clock (DEDUCED, log entry 47). -/
def wakeReady (key : Nat) (s : State) : Outcome :=
  if s.waitOver key then .next (s.modCtx key fun c => { c with st := .ready }) else .refused .notEnabled

/-! ### Which context issues -/

/-- The slots of a core in the order of R314, from the one after the last. -/
def issueOrder (last : Nat) : List Nat := (List.range 11).map fun i => (last + 1 + i) % 11

/-- The cores that have contexts, from the one after the core of the last issue. -/
def State.coreOrder (s : State) : List Nat :=
  let cores := (s.ctxs.map fun p => coreOfKey p.1).eraseDups
  let c := coreOfKey s.cur
  (cores.filter fun k => decide (c < k)) ++ cores.filter fun k => decide (k ≤ c)

/-- The contexts that may issue, in order (DESIGN CHOICE, log entry 4). -/
def State.issuers (s : State) : List Nat :=
  s.coreOrder.flatMap fun k => ((issueOrder (s.core k).last).map (keyOf k)).filter s.mayIssue

/-- Whether a retry of a waiting instruction leaves its context as it was: it was not Ready yet (R311)
(DEDUCED, log entry 47). -/
def idleRetry (key : Nat) (s s' : State) : Bool :=
  (s.ctx key).st != .ready && decide ({ s'.ctx key with lastIssue := (s.ctx key).lastIssue } = s.ctx key)

/-- The first context whose next instruction issues, in the order of R314; a retry that only sends the request of its line counts
as one (R347) (DESIGN CHOICE, log entry 4; DEDUCED, log entry 47). -/
def issueFirst (s : State) : List Nat → Option Outcome
  | [] => none
  | k :: ks =>
    match issue k s with
    | .next s' =>
      if idleRetry k s s' then (if keepMisses s s' = s then issueFirst s ks else some (.next (keepMisses s s')))
      else some (.next s')
    | r => some r

/-! ### What the package does by itself -/

/-- Lanes that a trap removes are spilled: those that could not be yet, and, once the instructions that were in flight have
retired, those that they still wrote (R20, R27) (DEDUCED, log entry 25). -/
def spillWhenIdle (key : Nat) (s : State) : Outcome :=
  let c := s.ctx key
  if c.spillDue && c.spilled == 0 then .next (trapShrink key s)
  else if c.spillDue && !c.removedBusy then .next (spillAgain key s)
  else .refused .notEnabled

/-- A gating load that another context's trap has abandoned is free to run again once that context has left its handler (R208)
(DEDUCED, log entry 13). -/
def handlerOver (key : Nat) (s : State) : Outcome :=
  match (s.ctx key).wait with
  | .handler k =>
    if !(s.ctx k).live || ((s.ctx k).priv == 0 && !(s.ctx k).rolling) then .next (s.modCtx key Ctx.wake)
    else .refused .notEnabled
  | _ => .refused .notEnabled

/-- A move that happens only at some clocks. -/
def when' (b : Bool) (f : State → Outcome) (s : State) : Outcome := if b then f s else .refused .notEnabled

/-- The moves of one context. -/
def ctxMoves (s : State) (key : Nat) : List (State → Outcome) :=
  let held := fun (n : Nat) => decide (s.clock ≥ (s.ctx key).lastIssue + n)
  let delay := match (s.ctx key).wait with
    | .hint _ n => n
    | _ => 0
  let every := match (s.ctx key).wait with
    | .word va _ _ _ => if va.toNat / 2 ^ 55 % 4 = 3 then 256 else 64
    | _ => 64
  [execTrapEntry key, wakeReady key, handlerOver key, spillWhenIdle key, execRollback key, execVectorRetire key, execTileLineGrant key,
   execHelperArrival key, execWaitRetest key, when' (s.clock % every == 0) (execWaitPoll key),
   when' (held 10) (execYieldExpiry key), when' (held delay) (execDelayExpiry key), execGwqTakeTimeout key]

/-- The moves of one posted store or marker; at another device and at the host it is committed by them. -/
def postMoves (s : State) (p : Post) : List (State → Outcome) :=
  (if p.st == .waiting then (match p.marker with
    | some m => [execMarkStamp m p.stream]
    | none => [execStreamSend p.id]) else []) ++
    if p.dest != hostDest && (decide (2048 ≤ p.dest) || p.dest == s.devId) then
      [execStreamCommit (.own p.id), execStreamAck p.id]
    else []

/-- The moves of a core: a gating load, ready blocks of a gateway, and the thread engine every 256 clocks. -/
def coreMoves (s : State) (core : Nat) : List (State → Outcome) :=
  [execGatedLoadComplete core, when' (s.clock % 256 == 0) (execMigrationCheck core)] ++
    ((s.core core).gdone.take 1).map fun b => execGatewayBlockReady core b.1 b.2

/-- The moves of a queue's entry. -/
def queueMoves (s : State) (q : Nat) : List (State → Outcome) :=
  [execGraph q, execCopy q, execEventSignal q, execEventWait q, execVacate q, execSwitchOut q, execSwitchIn q] ++
    if (s.launch q).isGraph then (List.range (s.launch q).nodeCount).map (execGraphNode q) else []

/-- The moves of a launch: the stall of a table that nothing can move by itself is among them (R330). -/
def launchMoves (l : Nat) : List (State → Outcome) :=
  [execLaunch l, execLaunchEnd l] ++ (List.range 4).map (execBlockDispatch l) ++
    (List.range 4).map fun d => fun s => when' (s.stuckTable l d) (execLevelStall l d) s

/-- The arrival of a message of the coherence protocol (R272). -/
def msgMove (m : Msg) : State → Outcome :=
  match m.kind with
  | 0 => execFwds m.die m.line
  | 1 => execFwdx m.die m.line
  | 2 => execInv m.die m.line
  | 3 => execInvack m.die m.line
  | 4 => execData m.die m.line
  | 5 => execBinv m.die m.line
  | _ => execBinvack m.die m.line

/-- The links of a die that are waking (R400). -/
def wakeMoves (p : Nat × Die) : List (State → Outcome) :=
  (p.2.links.filter fun l => l.2.st == 2).map fun l => execLinkWake p.1 l.1

/-- The end of the command that Lanrov performs (R408). -/
def lanrovMoves (s : State) : List (State → Outcome) :=
  match s.lmCmd with
  | none => []
  | some v => [execLmAttest, execLmStageFirmware, execLmInstallLinkKey, execLmWriteCert, execLmUnknownCommand v]

/-- Every move that the package may make by itself in a state, in the order in which a step tries them
(DESIGN CHOICE, log entry 4). -/
def ownMoves (s : State) : List (State → Outcome) :=
  s.ctxs.flatMap (fun p => ctxMoves s p.1) ++
  s.clusters.flatMap (fun p => [execMatrixStep p.1, execMseqStep p.1, execMatrixQueueEntry p.1]) ++
  (s.cores.map (·.1)).flatMap (coreMoves s) ++
  s.posts.flatMap (postMoves s) ++
  s.wreqs.flatMap (fun r => [execWindowAccessAtTarget (.own r.id), execWindowResponse r.id s.devId true { bytes := [], marks := [] }]) ++
  s.peerReqs.map (fun r => execWindowAccessAtTarget (.peer r)) ++
  s.copies.flatMap (fun c => [execCopyLine c.id, execCopyComplete c.id]) ++
  s.bards.map (fun b => execBardArrival b.id) ++
  s.dies.flatMap wakeMoves ++ s.msgs.map msgMove ++
  s.launches.flatMap (fun p => launchMoves p.1) ++
  s.queues.flatMap (fun p => queueMoves s p.1) ++
  (if s.queues.isEmpty then [] else [execQueueEntryStart]) ++
  (if s.tlbiBusy then [execTlbiDone] else []) ++ lanrovMoves s ++
  s.engines.map (fun p => execMigrationDone p.1) ++
  (s.repair.filter fun r => !r.act).map fun r => execRetire r.unit 0

/-- The first move of a list that happens and changes the state. -/
def firstMove (s : State) : List (State → Outcome) → Option State
  | [] => none
  | f :: fs =>
    match f s with
    | .next s' => if s' = s then firstMove s fs else some s'
    | _ => firstMove s fs

/-! ### A step -/

/-- What was waiting for the memory system goes on: requests of accesses that wait, writes of the device, the access of a migration
engine to its leaf, recalls of watched lines, and entries whose writes are all performed (R285, R307, R308, R347)
(DESIGN CHOICE, log entry 1). -/
def settle (s : State) : State := closeEntries (recallWatched (migrateLeaves (flushLate (supplyMisses s))))

/-- The slices whose queues hold an entry of a request to a line: at its home, and at the die that asks (R269, R347). -/
def State.slicesOf (s : State) (asker : Option Nat) (line : Nat) : List (Nat × Nat) :=
  ((homeDie line).toList ++ asker.toList).map fun d => (d, s.sliceAt d line)

/-- The slices whose queues hold entries at the end of a clock: of requests that go on, and of those that were over in it. -/
def State.busySlices (s : State) : List (Nat × Nat) :=
  (s.reqs.flatMap (fun r => s.slicesOf (some r.asks.1) r.asks.2) ++
    (s.misses.filter fun m => !m.got).flatMap (fun m => s.slicesOf m.via.die m.line) ++
    s.dies.flatMap fun d => (d.2.slices.filter (·.2.now != 0)).map fun e => (d.1, e.1)).eraseDups

/-- A clock passes: each slice's high-water mark, and the clocks in which its queue was full (R348); a request that was over
within the clock held its entry to the end of it (DESIGN CHOICE, log entry 1). -/
def tick (s : State) : State :=
  let s := settle s
  let s := s.busySlices.foldl (fun s p => s.modDie p.1 fun d =>
    let e := Tbl.get {} d.slices p.2
    let n := min 16 (s.slotsUsed p.1 p.2 + e.now)
    let e := { e with now := 0, high := max e.high n, full := if n ≥ 16 && e.full != BitVec.allOnes 64 then e.full + 1 else e.full }
    { d with slices := Tbl.set {} d.slices p.2 e }) s
  { s with clock := s.clock + 1 }

/-- The events of the opcode table: they have no encoding, and the device or the host brings them about. -/
def isEvent (i : Instr) : Bool := (encode i).isNone

/-- One move of the agenda (DESIGN CHOICE, log entry 4). -/
def moveOn (m : Move) (s : State) : Outcome :=
  match m with
  | .issue key => issue key s
  | .event i => if isEvent i then exec i s else .refused .notEnabled

/-- What happens when nothing is on the agenda: a move of the package, or the issue of an instruction, or nothing
(DESIGN CHOICE, log entry 4). -/
def moveAlone (s : State) : Outcome :=
  match firstMove s (ownMoves s) with
  | some s' => .next s'
  | none => (issueFirst s s.issuers).getD (.next s)

/-- The answer with the clock moved on. -/
def ticked : Outcome → Outcome
  | .next s => .next (tick s)
  | r => r

/-- One step: the first move of the agenda, or what the package does by itself
(DESIGN CHOICE, log entries 1 and 4). -/
def stepWhole (s : State) : Outcome :=
  match s.agenda with
  | m :: rest => ticked (moveOn m { s with agenda := rest })
  | [] => ticked (moveAlone s)

/-! ### A program in place -/

/-- Where the model puts the code of a context that it makes: a page of HBM, mapped at address 0. -/
def codePlace : Nat := 0x200000

/-- The tables that map the 2 MiB page at address 0, for every use: four levels above a leaf (R367). -/
def placeTables (s : State) : State :=
  let e := fun (p v : Nat) (s : State) => s.setBytes p (leBytes 8 v)
  e 0x1000 0x2003 (e 0x2000 0x3003 (e 0x3000 0x4003 (e 0x4000 (codePlace + 0x1D) s)))

/-- A launch whose page table starts at 0x1000 runs on core 0 with its control context Ready at address 0, as a launch
loaded from outside leaves it (R313, R322) (DESIGN CHOICE, log entry 4). -/
def placeContext (s : State) : State :=
  let s := placeTables s
  let s := s.modLaunch 0 fun l =>
    { l with st := .running, record := List.replicate 8 0 ++ leBytes 8 0x1000, cores := [0] }
  { s.setCtx 0 { st := .ready, standing := .control, launch := 0 } with cur := 0 }

/-- The place of the current context's pc, if it may issue there. -/
def State.pcPlace (s : State) : Option Nat :=
  if s.mayIssue s.cur then
    match (fetchPlace (s.ctx s.cur).pc.toNat).run s with
    | .ok p _ => some p
    | .error _ _ => none
  else none

/-- The state with the bytes of an instruction where the next step fetches: in the current context if it may issue, else
in one that the model makes (DESIGN CHOICE, log entry 4). -/
def placeWord (s : State) (bs : List Byte) : State :=
  let go := fun (p : Nat) (s : State) =>
    let s := s.setBytes p bs
    { (s.modCtx s.cur fun c => { c with kfloor := s.wlog.length }) with agenda := .issue s.cur :: s.agenda }
  match s.pcPlace with
  | some p => go p s
  | none => go codePlace (placeContext s)

end Sys2Proof.Machine
end

