-- ==== Sys2Proof/Machine/Step.lean ====
section
/-!
DEFINITION. The step of the machine, and a state with an instruction where the next step fetches it.
-/

namespace Sys2Proof.Machine

open Sys2Proof

/-- One step of the package (log entry 4). -/
def step (s : State) : Host.Outcome State Fault Refusal := stepWhole s

/-- The state with an instruction of the opcode table where the next step fetches it: its bytes in memory order at the pc
of a context that may issue (DESIGN CHOICE, log entry 4). -/
def State.withFetchWord (s : State) (nbits w : Nat) : State :=
  let v := BitVec.ofNat 128 (w % 2 ^ nbits)
  placeWord s (bytesOfWord v (lengthOf v))

end Sys2Proof.Machine
end

