-- ==== Sys2Proof/Safety.lean ====
section
/-!
DEFINITION. The terms in which statements about the machine speak: when an instruction may issue and its sources can be
read, how one that completes or traps ends, and what it leaves alone.
-/

namespace Sys2Proof.Machine

open Sys2Proof

/-! ### When an instruction issues -/

/-- The current context may issue (R311, R314), no prefix is in force (R25), and the fetch of the instruction has matched no
watchpoint (R283). -/
def Issues (s : State) : Prop := s.mayIssue s.cur = true ∧ (s.ctx s.cur).pp = false ∧ (s.ctx s.cur).fetched = none

/-- An x register can be read as a source: no vector instruction in flight will write it (R141), and it is not poisoned
(R13). -/
def Readable (s : State) (n : Nat) : Prop := (s.ctx s.cur).awaited n = false ∧ (s.ctx s.cur).mark n = 0

/-- An x register of the current context. -/
def State.x (s : State) (n : BitVec 6) : Word := (s.ctx s.cur).xr n.toNat

/-- The address of the instruction that the current context is at. -/
def State.pc (s : State) : Va := (s.ctx s.cur).pc

/-- The register of a guard code, and whether the guard enables a scalar instruction (R12, R84). -/
def guardReg (g : BitVec 4) : Nat := 32 + 4 * (g.toNat % 8)

/-- A guard can be read. -/
def GuardReadable (s : State) (g : BitVec 4) : Prop := g ≠ 0 → Readable s (guardReg g)

/-- A guard enables a scalar instruction: code 0 always, codes 1 to 7 by bit 0 of the quad, codes 9 to 15 by its
complement (R12, R84). -/
def guardTrue (s : State) (g : BitVec 4) : Bool :=
  g == 0 || ((s.ctx s.cur).xr (guardReg g)).getLsbD 0 == decide (g.toNat < 8)

/-- No vector instruction of the current context is in flight (R129, R137). -/
def VectorsRetired (s : State) : Prop := ((s.ctx s.cur).pend.any fun p => !p.op.isMatrix) = false

/-- No dispatched instruction of the current context stands before a memory access of its own (R173, R216). -/
def OrderFree (s : State) (write : Bool) : Prop :=
  ((s.ctx s.cur).pend.any fun p => p.op.orders write) = false

/-- The earlier accesses of the current context have been performed at a scope (R176). -/
def Released (s : State) (scope : Nat) : Prop :=
  scope ≠ 0 → ((s.ctx s.cur).pend.any fun p => p.op.memRead || p.op.memWrite) = false ∧
    s.unreleased s.cur scope = false

/-- The current context is as it was, and it is still its turn: translating an address for it, which writes A and D in a leaf whose line a line-watch
unit may watch, has completed no instruction of it at an event unit. A run never sees anything else (R311). -/
def State.Keeps (s t : State) : Prop := t.cur = s.cur ∧ t.ctx s.cur = s.ctx s.cur ∧ t.after = none ∧ t.watch = none

/-- `n` bytes at an address lie at `loc` for a kind of access of the current context, and `t` is the state once the address
has been translated (R261 to R265, R366 to R368). -/
def Lands (s : State) (va n kind : Nat) (loc : Loc) (t : State) : Prop :=
  (resolve (s.envOf s.cur) va n kind).run (clearNotes s) = .ok loc t ∧ s.Keeps t

/-- No event unit has a waiting entry of the current context, as where it may issue no run leaves one (R311). -/
def NoWaiter (s : State) : Prop := ∀ cl, ∀ w ∈ (s.cluster cl).waiters, w.key ≠ s.cur

/-! ### How an instruction ends -/

/-- The state in which an instruction of `len` bytes ends whose effect on the current context is `f`: the pc moves on, the
context is Ready unless its hints hold it, and nothing else changes. -/
def State.ends (s : State) (len : Nat) (yld : Bool) (dly : Nat) (f : Ctx → Ctx) : State :=
  complete (s.pc + BitVec.ofNat 57 len) yld dly ((clearNotes s).modCtx s.cur f)

/-- As `ends`, for a long-form instruction with its hints (R87). -/
def State.endsLong (s : State) (o : Low) (f : Ctx → Ctx) : State := s.ends 12 (o.yld == 1) o.dly.toNat f

/-- As `ends`, for an extended-form instruction with its hints (R87). -/
def State.endsExt (s : State) (o : Low) (f : Ctx → Ctx) : State := s.ends 16 (o.yld == 1) o.dly.toNat f

/-- As `ends`, for an instruction that says where it goes on. -/
def State.goesTo (s : State) (pc : Va) (f : Ctx → Ctx) : State := complete pc false 0 ((clearNotes s).modCtx s.cur f)

/-- As `ends`, for an instruction whose effect `g` reaches beyond the current context. -/
def State.finishes (s : State) (len : Nat) (g : State → State) : State :=
  complete (s.pc + BitVec.ofNat 57 len) false 0 (g (clearNotes s))

/-- As `finishes`, for an extended-form instruction of the level or gateway class with its hints (R87). -/
def State.endsHere (s : State) (o : ExT) (g : State → State) : State :=
  complete (s.pc + 16) (o.yld == 1) o.dly.toNat (g (clearNotes s))

/-! ### How a vector or matrix instruction is dispatched -/

/-- The prefix in force (R25). -/
def State.prefixNow (s : State) : Option Word := if (s.ctx s.cur).pp then some (s.ctx s.cur).pfx else none

/-- A vector or matrix instruction can be dispatched (R16, R21, R25, R35, R141, R215): its context may issue, its fetch has
matched no watchpoint (R283), the prefix and the grant are as it needs, its x sources can be read, and the ring and the matrix
queue have room. -/
def Dispatchable (s : State) (op : VOp) : Prop :=
  s.mayIssue s.cur = true ∧ (s.ctx s.cur).fetched = none ∧ dispatchFault (s.ctx s.cur) s.prefixNow op = none ∧
    (∀ r, (op.recorded s.prefixNow).1 = some r ∨ (op.recorded s.prefixNow).2 = some r ∨ r ∈ op.unrecorded s.prefixNow →
      Readable s r) ∧
    (s.ctx s.cur).ringFull = false ∧ s.queueRoom s.cur op = true

/-- A recorded operand: the register's value, 0 for none (R36). -/
def State.operand (s : State) (r : Option Nat) : Word :=
  match r with
  | some r => (s.ctx s.cur).xr r
  | none => 0

/-- The state after a dispatch (R36, R141): the instruction stands in the ring, its word cut to its length (R37), and in flight
with the sources it read, a prefix is consumed, a matrix instruction takes its place in the queue, and the context goes on; no lane, register or byte
has changed. -/
def State.dispatched (s : State) (op : VOp) (len : Nat) (o : Low) : State :=
  let c := s.ctx s.cur
  let x := (op.unrecorded s.prefixNow).foldl (fun t r => Tbl.set 0 t r (c.xr r)) []
  let s' := if op.uncovers && c.priv == 0 then uncoverTeam s.cur (clearNotes s) else clearNotes s
  complete (s.pc + BitVec.ofNat 57 len) (o.yld == 1) o.dly.toNat
    ((recordPend s.cur op (cutWord len s.iw) s.pc s.prefixNow (s.operand (op.recorded s.prefixNow).1)
      (s.operand (op.recorded s.prefixNow).2) x c.priv s').modCtx s.cur fun c => { c with sr := c.sr &&& ~~~1#64 })

/-- A state differs from another at most in what the caches of the package hold: L1s, pools, dies' copies with the slices and
links that requests use, the requests in their queues, directories, and what the homes' memories hold of dirty lines (R257 to
R275). -/
def State.OnlyCaches (s t : State) : Prop :=
  t = { s with
    cores := t.cores, clusters := t.clusters, dies := t.dies, dir := t.dir, home := t.home, misses := t.misses, fresh := t.fresh } ∧
  (∀ k, t.core k = { s.core k with l1 := (t.core k).l1, rc := (t.core k).rc }) ∧
  (∀ k, t.cluster k = { s.cluster k with pool := (t.cluster k).pool }) ∧
  ∀ d, t.die d = { s.die d with lines := (t.die d).lines, links := (t.die d).links, slices := (t.die d).slices }

/-- A context differs from another at most in the x registers listed (value and poison mark), in SR, and in the pc and the
state that issue gives it (`barw`, which is kept only while the pc stays, among it): v registers, slices, prefix, exception
registers, dispatch ring, mailbox, grant and all else are the same. -/
def Ctx.OnlyX (c d : Ctx) (xs : List Nat) : Prop :=
  d = { c with x := d.x, xp := d.xp, sr := d.sr, pc := d.pc, st := d.st, saved := d.saved, wait := d.wait, barw := d.barw } ∧
    ∀ n, n ∉ xs → d.xr n = c.xr n ∧ d.mark n = c.mark n

/-- A state differs from another at most in one context and in the notes of the instruction. -/
def State.OnlyCtx (s t : State) (key : Nat) : Prop :=
  t = { s with ctxs := t.ctxs, after := t.after, watch := t.watch } ∧ ∀ k, k ≠ key → t.ctx k = s.ctx k

/-- The state after a precise trap of the current instruction (R30): nothing else of it has happened. -/
def State.traps (s : State) (code sub : Nat) (val : Word) : State :=
  takeTrap s.cur s.pc s.pc { asyncTrap code sub val with kind := .precise } (clearNotes s)

end Sys2Proof.Machine
end

