-- ==== Sys2Proof/Certificates/Slice0/Obligations.lean ====
section
/-!
DEFINITION. The statements for the provers, after the tables of the spec in which they speak. A statement of an
instruction's result has as conclusion the state that `exec` answers, which is that instruction's completion; each
docstring says which rules a statement formalises. Where a clause rests on a choice of the model its docstring names the
log entry.
-/

namespace Sys2Proof.Machine

open Sys2Proof

/-! ### Results as the spec's tables give them -/

/-- The function codes of a major of the short form (R95). -/
def shortCodes (major : Nat) : List Nat :=
  match major with
  | 0x01 => List.range 11
  | 0x02 => [0, 1]
  | 0x03 => [0, 1]
  | 0x04 => [1, 2, 3, 4, 5, 6, 7, 8, 9]
  | 0x08 => List.range 16
  | 0x09 => List.range 16
  | 0x0A => List.range 14
  | 0x0B => List.range 14
  | 0x0C => List.range 11
  | 0x0D => List.range 3
  | 0x0E => List.range 2
  | 0x10 => List.range 6
  | 0x11 => List.range 4
  | 0x18 => List.range 7
  | 0x19 => List.range 4
  | 0x1A => List.range 7
  | 0x1B => List.range 16
  | 0x1C => List.range 7
  | 0x1D => List.range 4
  | 0x1E => [0]
  | 0x1F => List.range 4
  | 0x20 => [0, 1, 2, 3, 4, 5, 6, 7, 8, 10]
  | 0x21 => List.range 10
  | 0x22 => [0, 1]
  | 0x23 => List.range 9
  | 0x24 => [0, 1]
  | 0x25 => List.range 4
  | 0x26 => [0, 1]
  | 0x27 => [0, 1]
  | 0x28 => List.range 3
  | 0x29 => List.range 3
  | 0x2A => [0, 1]
  | 0x2B => List.range 12
  | 0x2C => List.range 12
  | 0x2D => List.range 10
  | _ => []

/-- The function codes of a major of the long form (R96). -/
def longCodes (major : Nat) : List Nat :=
  match major with
  | 0x01 => [0]
  | 0x02 => List.range 16
  | 0x03 => List.range 16
  | 0x04 => List.range 14
  | 0x05 => List.range 14
  | 0x06 => List.range 7
  | 0x07 => List.range 4
  | 0x08 => List.range 4
  | 0x10 => List.range 23
  | 0x11 => List.range 17
  | 0x12 => List.range 10
  | 0x13 => List.range 7
  | 0x14 => List.range 4
  | 0x15 => List.range 16
  | 0x16 => List.range 11
  | 0x17 => List.range 3
  | 0x20 => List.range 5
  | 0x21 => List.range 4
  | 0x24 => List.range 4
  | 0x28 => [0]
  | _ => []

/-- The function codes of a major of the extended form (R97). -/
def extCodes (major : Nat) : List Nat :=
  match major with
  | 0x01 => [0]
  | 0x10 => [0]
  | 0x20 => List.range 3
  | 0x21 => List.range 2
  | 0x22 => [0]
  | 0x23 => [0]
  | 0x24 => List.range 2
  | 0x25 => [0]
  | 0x30 => List.range 2
  | 0x31 => List.range 2
  | 0x38 => List.range 3
  | 0x3C => [0]
  | _ => []

/-- Whether the map of a word's length class lists its major and function code (R95 to R97). -/
def listedCode (w : BitVec 128) : Bool :=
  let major := w.toNat / 4 % 256
  match w.toNat % 4 with
  | 0 => (shortCodes major).contains (w.toNat / 2 ^ 28 % 16)
  | 1 => (longCodes major).contains (w.toNat / 2 ^ 10 % 64)
  | 2 => (extCodes major).contains (w.toNat / 2 ^ 10 % 64)
  | _ => false

/-- R115: what majors 0x08 and 0x09 and their guarded forms write to xd. -/
def r115 (fn : Nat) (a b : Word) : Word :=
  let n := b.toNat % 64
  match fn with
  | 0 => BitVec.ofNat 64 (a.toNat + b.toNat)
  | 1 => BitVec.ofInt 64 ((a.toNat : Int) - b.toNat)
  | 2 => a &&& b
  | 3 => a ||| b
  | 4 => a ^^^ b
  | 5 => BitVec.ofNat 64 (a.toNat * 2 ^ n)
  | 6 => BitVec.ofNat 64 (a.toNat / 2 ^ n)
  | 7 => BitVec.ofInt 64 (a.toInt / 2 ^ n)
  | 8 => BitVec.ofNat 64 (a.toNat * b.toNat)
  | 9 => (BitVec.ofInt 128 (a.toInt * b.toInt)).extractLsb' 64 64
  | 10 => (BitVec.ofNat 128 (a.toNat * b.toNat)).extractLsb' 64 64
  | 11 => if b = 0 then BitVec.ofInt 64 (-1) else BitVec.ofInt 64 (a.toInt.tdiv b.toInt)
  | 12 => if b = 0 then BitVec.ofInt 64 (-1) else BitVec.ofNat 64 (a.toNat / b.toNat)
  | 13 => if b = 0 then a else BitVec.ofInt 64 (a.toInt.tmod b.toInt)
  | 14 => if b = 0 then a else BitVec.ofNat 64 (a.toNat % b.toNat)
  | _ => a &&& ~~~b

/-- R116: what majors 0x0A and 0x0B and their guarded forms write to xd; saturation is R44's. -/
def r116 (fn : Nat) (a b : Word) : Word :=
  let signed := fun (v : Int) => BitVec.ofInt 64 (if v < -2 ^ 63 then -2 ^ 63 else if 2 ^ 63 - 1 < v then 2 ^ 63 - 1 else v)
  let unsigned := fun (v : Int) => BitVec.ofInt 64 (if v < 0 then 0 else if 2 ^ 64 - 1 < v then 2 ^ 64 - 1 else v)
  let n := b.toNat % 64
  match fn with
  | 0 => if a.toInt < b.toInt then 1 else 0
  | 1 => if a.toNat < b.toNat then 1 else 0
  | 2 => BitVec.ofInt 64 (min a.toInt b.toInt)
  | 3 => BitVec.ofNat 64 (min a.toNat b.toNat)
  | 4 => BitVec.ofInt 64 (max a.toInt b.toInt)
  | 5 => BitVec.ofNat 64 (max a.toNat b.toNat)
  | 6 => signed (a.toInt + b.toInt)
  | 7 => signed (a.toInt - b.toInt)
  | 8 => unsigned (a.toNat + b.toNat)
  | 9 => unsigned ((a.toNat : Int) - b.toNat)
  | 10 => signed (a.toInt * b.toInt)
  | 11 => unsigned (a.toNat * b.toNat)
  | 12 => (a <<< n) ||| (a >>> (64 - n))
  | _ => (a >>> n) ||| (a <<< (64 - n))

/-- R117: what major 0x0C writes to xd. -/
def r117 (fn : Nat) (a : Word) : Word :=
  match fn with
  | 0 => BitVec.ofNat 64 ((List.range 64).countP fun i => a.getLsbD i)
  | 1 => BitVec.ofNat 64 ((List.range 64).countP fun i => decide (a.toNat < 2 ^ i))
  | 2 => BitVec.ofNat 64 ((List.range 64).countP fun i => decide (a.toNat % 2 ^ (i + 1) = 0))
  | 3 => a.reverse
  | 4 => a.extractLsb' 0 8 ++ a.extractLsb' 8 8 ++ a.extractLsb' 16 8 ++ a.extractLsb' 24 8 ++ a.extractLsb' 32 8 ++
      a.extractLsb' 40 8 ++ a.extractLsb' 48 8 ++ a.extractLsb' 56 8
  | 5 => (a.setWidth 8).signExtend 64
  | 6 => (a.setWidth 16).signExtend 64
  | 7 => (a.setWidth 32).signExtend 64
  | 8 => (a.setWidth 8).setWidth 64
  | 9 => (a.setWidth 16).setWidth 64
  | _ => (a.setWidth 32).setWidth 64

end Sys2Proof.Machine

open Sys2Proof Sys2Proof.Machine

/-! ### The encoding -/

/-- Decoding the words of a well-formed instruction gives it back: no bit of an encoding is dropped (R78 to R98). -/
def Obligations.DecodeEncode : Prop :=
  ∀ (i : Instr) (w : BitVec 128) (n : Nat), i.wf = true → encode i = some (w, n) → decode w = .instr i

/-- A word that decodes is the encoding of what it decodes to: its bits below its length, and every field that the
instruction does not use is 0 in them (R78, R81, R94). -/
def Obligations.EncodeDecode : Prop :=
  ∀ (w : BitVec 128) (i : Instr), decode w = .instr i →
    i.wf = true ∧ encode i = some (BitVec.ofNat 128 (w.toNat % 2 ^ (8 * lengthOf w)), lengthOf w)

/-- Words written out from the spec's encodings decode to the instructions they stand for: `mov x5, 3` (R105), `hend`,
`fmt sh6, x20, 3` (R126), a guarded `add` (R113), `trap 7`, and the all-zero word, which is none (R98). -/
def Obligations.DecodeWords : Prop :=
  decode 0x0000000300001424#128 = .instr (.addImm { rd := 5, rs1 := 0, rs2 := 0, imm := 3 }) ∧
  decode 0x40000004#128 = .instr (.hend { rd := 0, rs1 := 0, rs2 := 0, imm := 0 }) ∧
  decode 0x0000000320140010#128 = .instr (.fmt 2 { rd := 0, rs1 := 20, rs2 := 0, imm := 3 }) ∧
  decode 0x00000004000080000145000D#128 = .instr (.guardedAluImm 0
    { d := 5, a := 5, b := 0, c := 0, e := 0, g1 := 2, g2 := 0, ty := 0, ch := 0, yld := 0, dly := 0, imm := 4 }) ∧
  decode 0x0000000720000004#128 = .instr (.trap { rd := 0, rs1 := 0, rs2 := 0, imm := 7 }) ∧
  decode 0#128 = .reject .illegalOpcode

/-- R98: a word whose length class's map lists no instruction at its major and function code raises IllegalOpcode, the
all-zero word among them; a word of length code 11 is no instruction either (R78). The trap is a precise one whose ETVAL
is bits [63:0] of the word as fetched (R42). -/
def Obligations.UnlistedCodesTrap : Prop :=
  listedCode 0 = false ∧
  ∀ w : BitVec 128, listedCode w = false →
    decode w = .reject .illegalOpcode ∧
    ∀ s : State, s.mayIssue s.cur = true → straddles s.pc w = false →
      issueWord w s = .next (State.traps { s with iw := w } 1 0 (w.setWidth 64))

/-- A step that issues runs the decoded instruction: where the word fetched at the pc of a context that may issue lies in
one fetch block and decodes to an instruction, the step is `exec` of that instruction in that context, and the clock
moves on. The order in which contexts issue stands in the agenda (log entry 4). -/
def stepRunsDecoded : Prop :=
  ∀ (s t : State) (key : Nat) (rest : List Move) (w : BitVec 128) (i : Instr),
    s.agenda = .issue key :: rest → s.mayIssue key = true →
    fetchWord.run (noteIssue key { s with agenda := rest }) = .ok w t →
    straddles t.pc w = false → decode w = .instr i →
    step s = ticked (exec i { t with iw := w })

/-- A step whose agenda begins with an event performs it: the events of the opcode table have no encoding, and the device,
the host or the passing of time brings them about (log entry 4). -/
def stepRunsEvent : Prop :=
  ∀ (s : State) (i : Instr) (rest : List Move), s.agenda = .event i :: rest → i.raw = none →
    step s = ticked (exec i { s with agenda := rest })

/-- A step runs the decoded instruction, or the event at the head of the agenda. -/
def Obligations.StepRuns : Prop := stepRunsDecoded ∧ stepRunsEvent
/-! ### Scalar integers -/

/-- R115, with the operand forms of R113: what the register, immediate and guarded forms of the sixteen operations write, and
that they set no flag and change nothing else. -/
def Obligations.AluResults : Prop :=
  (∀ p ∈ (
      [(Instr.add, 0), (Instr.sub, 1), (Instr.and, 2), (Instr.or, 3), (Instr.xor, 4), (Instr.shl, 5), (Instr.shr, 6),
       (Instr.sra, 7), (Instr.mul, 8), (Instr.mulh, 9), (Instr.mulhu, 10), (Instr.div, 11), (Instr.divu, 12),
       (Instr.rem, 13), (Instr.remu, 14), (Instr.andn, 15)] : List ((Sh → Instr) × Nat)),
    ∀ (o : Sh) (s : State), Issues s → Readable s o.rs1.toNat → Readable s o.rs2.toNat →
      exec (p.1 o) s = .next (s.ends 8 false 0 (·.setX o.rd.toNat (r115 p.2 (s.x o.rs1) (s.x o.rs2))))) ∧
  (∀ p ∈ (
      [(Instr.addImm, 0), (Instr.subImm, 1), (Instr.andImm, 2), (Instr.orImm, 3), (Instr.xorImm, 4),
       (Instr.shlImm, 5), (Instr.shrImm, 6), (Instr.sraImm, 7), (Instr.mulImm, 8), (Instr.mulhImm, 9),
       (Instr.mulhuImm, 10), (Instr.divImm, 11), (Instr.divuImm, 12), (Instr.remImm, 13), (Instr.remuImm, 14),
       (Instr.andnImm, 15)] : List ((Sh → Instr) × Nat)),
    ∀ (o : Sh) (s : State), Issues s → Readable s o.rs1.toNat →
      exec (p.1 o) s = .next (s.ends 8 false 0 (·.setX o.rd.toNat (r115 p.2 (s.x o.rs1) (o.imm.signExtend 64))))) ∧
  (∀ (fn : BitVec 6) (o : Lg) (s : State), fn.toNat < 16 → Issues s → GuardReadable s o.g1 →
    (guardTrue s o.g1 = true → Readable s o.a.toNat ∧ Readable s o.b.toNat) →
      exec (.guardedAluReg fn o) s = .next (s.endsLong o.toLow fun c =>
        if guardTrue s o.g1 then c.setX o.d.toNat (r115 fn.toNat (s.x o.a) (s.x o.b)) else c)) ∧
  (∀ (fn : BitVec 6) (o : Lg) (s : State), fn.toNat < 16 → Issues s → GuardReadable s o.g1 →
    (guardTrue s o.g1 = true → Readable s o.a.toNat) →
      exec (.guardedAluImm fn o) s = .next (s.endsLong o.toLow fun c =>
        if guardTrue s o.g1 then c.setX o.d.toNat (r115 fn.toNat (s.x o.a) (o.imm.signExtend 64)) else c))

/-- R116, with the operand forms of R113: comparisons, minimum and maximum, saturating arithmetic and rotations. -/
def Obligations.CompareSaturateResults : Prop :=
  (∀ p ∈ (
      [(Instr.slt, 0), (Instr.sltu, 1), (Instr.min, 2), (Instr.minu, 3), (Instr.max, 4), (Instr.maxu, 5),
       (Instr.addSat, 6), (Instr.subSat, 7), (Instr.adduSat, 8), (Instr.subuSat, 9), (Instr.mulSat, 10),
       (Instr.muluSat, 11), (Instr.rol, 12), (Instr.ror, 13)] : List ((Sh → Instr) × Nat)),
    ∀ (o : Sh) (s : State), Issues s → Readable s o.rs1.toNat → Readable s o.rs2.toNat →
      exec (p.1 o) s = .next (s.ends 8 false 0 (·.setX o.rd.toNat (r116 p.2 (s.x o.rs1) (s.x o.rs2))))) ∧
  (∀ p ∈ (
      [(Instr.sltImm, 0), (Instr.sltuImm, 1), (Instr.minImm, 2), (Instr.minuImm, 3), (Instr.maxImm, 4),
       (Instr.maxuImm, 5), (Instr.addSatImm, 6), (Instr.subSatImm, 7), (Instr.adduSatImm, 8), (Instr.subuSatImm, 9),
       (Instr.mulSatImm, 10), (Instr.muluSatImm, 11), (Instr.rolImm, 12), (Instr.rorImm, 13)] : List ((Sh → Instr) × Nat)),
    ∀ (o : Sh) (s : State), Issues s → Readable s o.rs1.toNat →
      exec (p.1 o) s = .next (s.ends 8 false 0 (·.setX o.rd.toNat (r116 p.2 (s.x o.rs1) (o.imm.signExtend 64))))) ∧
  (∀ (fn : BitVec 6) (o : Lg) (s : State), fn.toNat < 14 → Issues s → GuardReadable s o.g1 →
    (guardTrue s o.g1 = true → Readable s o.a.toNat ∧ Readable s o.b.toNat) →
      exec (.guardedAlu2Reg fn o) s = .next (s.endsLong o.toLow fun c =>
        if guardTrue s o.g1 then c.setX o.d.toNat (r116 fn.toNat (s.x o.a) (s.x o.b)) else c)) ∧
  (∀ (fn : BitVec 6) (o : Lg) (s : State), fn.toNat < 14 → Issues s → GuardReadable s o.g1 →
    (guardTrue s o.g1 = true → Readable s o.a.toNat) →
      exec (.guardedAlu2Imm fn o) s = .next (s.endsLong o.toLow fun c =>
        if guardTrue s o.g1 then c.setX o.d.toNat (r116 fn.toNat (s.x o.a) (o.imm.signExtend 64)) else c))

/-- R117: the operations of one source. -/
def Obligations.UnaryResults : Prop :=
  ∀ p ∈ (
      [(Instr.pop, 0), (Instr.clz, 1), (Instr.ctz, 2), (Instr.brev, 3), (Instr.bswap, 4), (Instr.sext8, 5),
       (Instr.sext16, 6), (Instr.sext32, 7), (Instr.zext8, 8), (Instr.zext16, 9), (Instr.zext32, 10)] : List ((Sh → Instr) × Nat)),
    ∀ (o : Sh) (s : State), Issues s → Readable s o.rs1.toNat →
      exec (p.1 o) s = .next (s.ends 8 false 0 (·.setX o.rd.toNat (r117 p.2 (s.x o.rs1))))

/-- R45: division by zero gives all ones and the dividend, signed MIN by −1 gives MIN and 0, and neither faults or sets a
flag. -/
def Obligations.DivisionCorners : Prop :=
  ∀ (o : Sh) (s : State), Issues s → Readable s o.rs1.toNat → Readable s o.rs2.toNat →
    let gives := fun (i : Sh → Instr) (v : Word) => exec (i o) s = .next (s.ends 8 false 0 (·.setX o.rd.toNat v))
    (s.x o.rs2 = 0 → gives .div (BitVec.allOnes 64) ∧ gives .divu (BitVec.allOnes 64) ∧ gives .rem (s.x o.rs1) ∧
      gives .remu (s.x o.rs1)) ∧
    (s.x o.rs1 = BitVec.intMin 64 → s.x o.rs2 = BitVec.allOnes 64 →
      gives .div (BitVec.intMin 64) ∧ gives .rem 0) ∧
    ∀ v, ((s.ends 8 false 0 (·.setX o.rd.toNat v)).ctx s.cur).sr = (s.ctx s.cur).sr

/-- R118: bit fields. `ext` and `extz` extend the field from `pos` of `width` bits, and `ins` puts the low bits of its
source there, the other bits of xd as they were; a field that reaches beyond bit 63, or a set bit of SEL[31:12], makes the
word raise ReservedField. -/
def Obligations.BitFields : Prop :=
  (∀ (o : Sh) (s : State), Issues s → Readable s o.rs1.toNat → o.pos.toNat + o.wm1.toNat ≤ 63 →
    let n := o.wm1.toNat + 1
    let f : BitVec n := (s.x o.rs1).extractLsb' o.pos.toNat n
    exec (.ext o) s = .next (s.ends 8 false 0 (·.setX o.rd.toNat (f.signExtend 64))) ∧
    exec (.extz o) s = .next (s.ends 8 false 0 (·.setX o.rd.toNat (f.setWidth 64))) ∧
    (Readable s o.rd.toNat → ∃ v : Word,
      (∀ i < 64, v.getLsbD i = if o.pos.toNat ≤ i ∧ i ≤ o.pos.toNat + o.wm1.toNat then
        (s.x o.rs1).getLsbD (i - o.pos.toNat) else (s.x o.rd).getLsbD i) ∧
      exec (.ins o) s = .next (s.ends 8 false 0 (·.setX o.rd.toNat v)))) ∧
  ∀ (w : BitVec 128), w.toNat % 4 = 0 → w.toNat / 4 % 256 = 0x0D → w.toNat / 2 ^ 28 % 16 < 3 →
    w.toNat / 2 ^ 32 % 64 + w.toNat / 2 ^ 38 % 64 > 63 ∨ w.toNat / 2 ^ 44 % 2 ^ 20 ≠ 0 →
    decode w = .reject .reservedField

/-- R119: `movl` writes the immediate zero-extended, and `movh` writes it to the upper half and leaves the lower. -/
def moveHalves : Prop :=
  ∀ (o : Sh) (s : State), Issues s →
    exec (.movl o) s = .next (s.ends 8 false 0 (·.setX o.rd.toNat (o.imm.setWidth 64))) ∧
    (Readable s o.rd.toNat →
      exec (.movh o) s = .next (s.ends 8 false 0 (·.setX o.rd.toNat (o.imm ++ (s.x o.rd).setWidth 32))))

/-- The wide products and `csel` of R120, guarded: the halves of the 128-bit product go to xd and xe, and `csel` picks xa
where bit 0 of its mask is as the code asks, always for code 0. -/
def wideAndSelect : Prop :=
  ∀ (o : Lg) (s : State), Issues s → GuardReadable s o.g1 →
    (guardTrue s o.g1 = true → Readable s o.a.toNat ∧ Readable s o.b.toNat) →
    let wide := fun (p : BitVec 128) (c : Ctx) =>
      if guardTrue s o.g1 then (c.setX o.d.toNat (p.setWidth 64)).setX o.e.toNat (p.extractLsb' 64 64) else c
    exec (.mulWide o) s = .next (s.endsLong o.toLow (wide (BitVec.ofInt 128 ((s.x o.a).toInt * (s.x o.b).toInt)))) ∧
    exec (.muluWide o) s = .next (s.endsLong o.toLow (wide (BitVec.ofNat 128 ((s.x o.a).toNat * (s.x o.b).toNat)))) ∧
    (GuardReadable s o.g2 →
      exec (.csel o) s = .next (s.endsLong o.toLow fun c =>
        if guardTrue s o.g1 then c.setX o.d.toNat (if guardTrue s o.g2 then s.x o.a else s.x o.b) else c))

/-- R119 and R120: halves of a register, wide products and `csel`. -/
def Obligations.MovesAndWideProducts : Prop := moveHalves ∧ wideAndSelect

/-- A write to x0 is discarded and x0 reads as zero (R10, R112): an instruction whose destination is x0 moves the pc on
and changes nothing else. -/
def Obligations.ZeroRegister : Prop :=
  (∀ (c : Ctx) (v : Word), c.xr 0 = 0 ∧ c.setX 0 v = c ∧ c.mark 0 = 0) ∧
  ∀ (o : Sh) (s : State), Issues s → Readable s o.rs1.toNat → Readable s o.rs2.toNat → o.rd = 0 →
    ∀ i ∈ [Instr.add o, .div o, .slt o, .pop o, .addImm o, .movl o],
      exec i s = .next (s.ends 8 false 0 id)

/-- R13, R141: an instruction reads the registers of a list as sources, in that order. The first of them that a vector instruction
in flight will write makes it wait at issue, its context Held; the first that carries a poison mark raises UncorrectableData, with
the KIND of the core or 0xFE for a line lost with a die (R402). Either way the instruction has no other effect. -/
def Sources (s : State) (srcs : List Nat) (i : Instr) : Prop :=
  ∀ before r after, srcs = before ++ r :: after → (∀ q ∈ before, Readable s q) →
    let c := s.ctx s.cur
    (c.awaited r = true → exec i s = .next (park s.cur .again false s)) ∧
    (c.awaited r = false → c.mark r ≠ 0 →
      exec i s = .next (s.traps 23 (if c.mark r % 2 = 1 then 0xFE else 1) (markVal (c.mark r))))

/-- The register that a guard of a scalar instruction names, and, where the guard enables it, its other sources (R12, R84). -/
def guarded (s : State) (g : BitVec 4) (srcs : List Nat) : List Nat :=
  (if g = 0 then [] else [guardReg g]) ++ if guardTrue s g then srcs else []

/-- The sources of the short forms that name registers only (R112 to R119, R122 to R125, R134, R137, R138, R201). -/
def shortSources : Prop :=
  ∀ (o : Sh) (s : State), Issues s →
    let a := o.rs1.toNat
    let c := s.ctx s.cur
    (∀ i ∈ [Instr.add o, .sub o, .and o, .or o, .xor o, .shl o, .shr o, .sra o, .mul o, .mulh o, .mulhu o, .div o,
        .divu o, .rem o, .remu o, .andn o, .slt o, .sltu o, .min o, .minu o, .max o, .maxu o, .addSat o, .subSat o,
        .adduSat o, .subuSat o, .mulSat o, .muluSat o, .rol o, .ror o, .beq o, .bne o, .blt o, .bge o, .bltu o, .bgeu o,
        .fadd o, .fsub o, .fmul o, .fdiv o, .fmin o, .fmax o, .feq o, .flt o, .fle o, .faddF32 o, .fsubF32 o, .fmulF32 o,
        .fdivF32 o, .fminF32 o, .fmaxF32 o, .feqF32 o, .fltF32 o, .fleF32 o], Sources s [a, o.rs2.toNat] i) ∧
    (∀ i ∈ [Instr.addImm o, .subImm o, .andImm o, .orImm o, .xorImm o, .shlImm o, .shrImm o, .sraImm o, .mulImm o, .mulhImm o,
        .mulhuImm o, .divImm o, .divuImm o, .remImm o, .remuImm o, .andnImm o, .sltImm o, .sltuImm o, .minImm o,
        .minuImm o, .maxImm o, .maxuImm o, .addSatImm o, .subSatImm o, .adduSatImm o, .subuSatImm o, .mulSatImm o,
        .muluSatImm o, .rolImm o, .rorImm o, .pop o, .clz o, .ctz o, .brev o, .bswap o, .sext8 o, .sext16 o, .sext32 o,
        .zext8 o, .zext16 o, .zext32 o, .ext o, .extz o, .jr o, .callr o, .fsqrt o, .fneg o, .fabs o, .fsqrtF32 o, .fnegF32 o,
        .fabsF32 o, .cvtF64I64 o, .cvtF64N64 o, .cvtI64F64 o, .cvtN64F64 o, .cvtF32I64 o, .cvtF32N64 o, .cvtI64F32 o,
        .cvtN64F32 o, .cvtF32F64 o, .cvtF64F32 o, .gaddr o, .mark o, .mtsrMgstall o], Sources s [a] i) ∧
    Sources s [a, o.rd.toNat] (.ins o) ∧ Sources s [o.rd.toNat] (.movh o) ∧
    (VectorsRetired s → Sources s [a] (.mtsrSr o)) ∧
    (VectorsRetired s → c.mig = false → c.spillDue = false → Sources s [a] (.vclaim o)) ∧
    (c.priv ≠ 0 → ∀ i ∈ [Instr.mtsr o, .mtsrCsplit o, .mtsrVgrp o, .mtsrDridx o, .mtsrDrrpl o], Sources s [a] i) ∧
    (c.standing = .control → ∀ i ∈ [Instr.hstart o, .hstartM o, .hjoin o], Sources s [a] i) ∧
    (((s.launch c.launch).group (o.imm.toNat % 256)).isSome = true →
      Sources s [a] (.role o) ∧ Sources s [a, o.rs2.toNat] (.send o))

/-- The sources of the short memory forms: base and data (R169, R172, R176, R191, R203, R213). -/
def memorySources : Prop :=
  ∀ (fn : BitVec 4) (o : ShM) (s : State), Issues s →
    let a := o.rs1.toNat
    let b := o.rs2.toNat
    (∀ i ∈ [Instr.ld fn o, .ldk fn o, .ldp fn o, .lda fn o, .cinv o, .cwb o], Sources s [a] i) ∧
    (∀ i ∈ [Instr.st fn o, .stl fn o, .sts fn o, .waitEq o, .waitNe o], Sources s [a, b] i) ∧
    (∀ i ∈ [Instr.amoAdd o, .amoAnd o, .amoOr o, .amoXor o, .amoMin o, .amoMax o, .amoMinu o, .amoMaxu o, .amoSwap o,
        .amoFaddF64 o, .amoAddI32 o, .amoAndI32 o, .amoOrI32 o, .amoXorI32 o, .amoMinI32 o, .amoMaxI32 o, .amoMinuI32 o,
        .amoMaxuI32 o, .amoSwapI32 o, .amoFaddF32 o, .ramoAdd o, .ramoAnd o, .ramoOr o, .ramoXor o, .ramoMin o, .ramoMax o,
        .ramoMinu o, .ramoMaxu o, .ramoSwap o], Sources s [b, a] i) ∧
    ∀ i ∈ [Instr.cas o, .casI32 o], Sources s [b, o.rd.toNat, a] i

/-- The sources of the longer forms: a guard and what it enables, and those of the tiles, copies, levels and gateways (R112, R120,
R121, R188, R202, R238, R243, R250, R251, R255). -/
def longSources : Prop :=
  (∀ (fn : BitVec 6) (o : Lg) (s : State), Issues s →
    let ab := [o.a.toNat, o.b.toNat]
    (∀ i ∈ [Instr.guardedAluReg fn o, .guardedAlu2Reg fn o, .mulWide o, .muluWide o], Sources s (guarded s o.g1 ab) i) ∧
    (∀ i ∈ [Instr.guardedAluImm fn o, .guardedAlu2Imm fn o], Sources s (guarded s o.g1 [o.a.toNat]) i) ∧
    Sources s (guarded s o.g1 (ab ++ [o.c.toNat])) (.fma o) ∧
    Sources s (guarded s o.g1 (ab ++ if o.g2 = 0 then [] else [guardReg o.g2])) (.csel o)) ∧
  (∀ (fn : BitVec 6) (o : LgM) (s : State), Issues s →
    Sources s (guarded s o.g1 [o.a.toNat]) (.guardedLd fn o) ∧
    Sources s (guarded s o.g1 [o.a.toNat, o.b.toNat]) (.guardedSt fn o) ∧
    ∀ i ∈ [Instr.tld o, .tst o, .tldSplit o, .tstSplit o, .ldsum o], Sources s [o.a.toNat, o.b.toNat, o.c.toNat] i) ∧
  (∀ (o : ExT) (s : State), Issues s →
    Sources s [o.a.toNat] (.cpyq o) ∧
    ((s.ctx s.cur).inUpdate = true → (s.ctx s.cur).blk.isSome = true →
      Sources s [o.a.toNat] (.lvnb o) ∧ Sources s [o.a.toNat] (.lvnext o)) ∧
    (gatewayCore (coreOfKey s.cur) = true → Sources s [o.a.toNat] (.gwqTake o))) ∧
  (∀ (o : ExC) (s : State), Issues s → ∀ p ∈ [(Instr.cpy o, false), (.cpyt o, true), (.cpytCow o, true)],
    let n := (s.x o.c).toNat / 2 ^ 62
    Sources s ([o.c.toNat] ++ if shapeOK (s.x o.c) o.c.toNat p.2 then
      (if 1 ≤ n then [o.c.toNat + 1] else []) ++ (if 2 ≤ n then [o.c.toNat + 2] else []) ++ [o.a.toNat, o.b.toNat] ++
        (if o.cw = 1 then [o.e.toNat, o.val.toNat] else []) else []) p.1)

/-- R13 and R141: what a source register that cannot be read does, in every form that reads one; those of the vector and matrix
instructions are among the statements of their dispatch. -/
def Obligations.SourceHazards : Prop := shortSources ∧ memorySources ∧ longSources

/-- The frame of the register instructions, over every one that R115 to R119 give: with sources that can be read, a next
state in which no other context, no other register of this one, no flag or other bit of SR, no byte of memory and nothing
else of the package differs, but for the pc and the state that issue gives the context. -/
def Obligations.RegisterFrame : Prop :=
  ∀ (o : Sh) (s : State), Issues s → Readable s o.rs1.toNat → Readable s o.rs2.toNat → Readable s o.rd.toNat →
    ∀ i ∈ [Instr.add o, .sub o, .and o, .or o, .xor o, .shl o, .shr o, .sra o, .mul o, .mulh o, .mulhu o, .div o,
      .divu o, .rem o, .remu o, .andn o, .slt o, .sltu o, .min o, .minu o, .max o, .maxu o, .addSat o, .subSat o,
      .adduSat o, .subuSat o, .mulSat o, .muluSat o, .rol o, .ror o,
      .addImm o, .subImm o, .andImm o, .orImm o, .xorImm o, .shlImm o, .shrImm o, .sraImm o, .mulImm o, .mulhImm o,
      .mulhuImm o, .divImm o, .divuImm o, .remImm o, .remuImm o, .andnImm o, .sltImm o, .sltuImm o, .minImm o,
      .minuImm o, .maxImm o, .maxuImm o, .addSatImm o, .subSatImm o, .adduSatImm o, .subuSatImm o, .mulSatImm o,
      .muluSatImm o, .rolImm o, .rorImm o,
      .pop o, .clz o, .ctz o, .brev o, .bswap o, .sext8 o, .sext16 o, .sext32 o, .zext8 o, .zext16 o, .zext32 o,
      .ext o, .extz o, .ins o, .movl o, .movh o],
      ∃ t, exec i s = .next t ∧ s.OnlyCtx t s.cur ∧ (s.ctx s.cur).OnlyX (t.ctx s.cur) [o.rd.toNat] ∧
        (t.ctx s.cur).sr = (s.ctx s.cur).sr ∧ ∀ p, t.byte p = s.byte p


/-! ### Scalar floating point -/

/-- R122: what `fadd` to `fabs` write in binary64 and binary32, rounded and flushed by the fields RM and FTZ of layout F, and
that the flags they raise are ORed into SR and nothing else changes. -/
def floatResults : Prop :=
  (∀ p ∈ ([(Instr.fadd, f64, fun m z => fAdd f64 m z), (Instr.fsub, f64, fun m z => fSub f64 m z),
       (Instr.fmul, f64, fun m z => fMul f64 m z), (Instr.fdiv, f64, fun m z => fDiv f64 m z),
       (Instr.fmin, f64, fun _ z => fMinMax f64 false z), (Instr.fmax, f64, fun _ z => fMinMax f64 true z),
       (Instr.feq, f64, fun _ z a b => fpBool (fEq f64 z a b)), (Instr.flt, f64, fun _ z a b => fpBool (fOrd f64 z (· == .lt) a b)),
       (Instr.fle, f64, fun _ z a b => fpBool (fOrd f64 z (· != .gt) a b)),
       (Instr.faddF32, f32, fun m z => fAdd f32 m z), (Instr.fsubF32, f32, fun m z => fSub f32 m z),
       (Instr.fmulF32, f32, fun m z => fMul f32 m z), (Instr.fdivF32, f32, fun m z => fDiv f32 m z),
       (Instr.fminF32, f32, fun _ z => fMinMax f32 false z), (Instr.fmaxF32, f32, fun _ z => fMinMax f32 true z),
       (Instr.feqF32, f32, fun _ z a b => fpBool (fEq f32 z a b)), (Instr.fltF32, f32, fun _ z a b => fpBool (fOrd f32 z (· == .lt) a b)),
       (Instr.fleF32, f32, fun _ z a b => fpBool (fOrd f32 z (· != .gt) a b))] :
        List ((Sh → Instr) × Fmt × (Nat → Bool → Nat → Nat → Nat × Flags))),
    ∀ (o : Sh) (s : State), Issues s → Readable s o.rs1.toNat → Readable s o.rs2.toNat →
      let r := p.2.2 (o.imm.toNat % 4) (o.imm.getLsbD 2) ((s.x o.rs1).toNat % 2 ^ p.2.1.width) ((s.x o.rs2).toNat % 2 ^ p.2.1.width)
      exec (p.1 o) s = .next (s.ends 8 false 0 fun c => (c.orFlags r.2).setX o.rd.toNat (BitVec.ofNat 64 r.1))) ∧
  (∀ p ∈ ([(Instr.fsqrt, f64, fun m z => fSqrt f64 m z), (Instr.fneg, f64, fun _ _ a => (fNeg f64 a, 0)),
       (Instr.fabs, f64, fun _ _ a => (fAbs f64 a, 0)),
       (Instr.fsqrtF32, f32, fun m z => fSqrt f32 m z), (Instr.fnegF32, f32, fun _ _ a => (fNeg f32 a, 0)),
       (Instr.fabsF32, f32, fun _ _ a => (fAbs f32 a, 0))] : List ((Sh → Instr) × Fmt × (Nat → Bool → Nat → Nat × Flags))),
    ∀ (o : Sh) (s : State), Issues s → Readable s o.rs1.toNat →
      let r := p.2.2 (o.imm.toNat % 4) (o.imm.getLsbD 2) ((s.x o.rs1).toNat % 2 ^ p.2.1.width)
      exec (p.1 o) s = .next (s.ends 8 false 0 fun c => (c.orFlags r.2).setX o.rd.toNat (BitVec.ofNat 64 r.1)))

/-- R124 and R123: what the scalar conversions and `fma` write and the flags they raise. -/
def convertAndFma : Prop :=
  (∀ p ∈ ([(Instr.cvtF64I64, fun m z (a : Word) => cvtIF f64 m z a.toInt), (Instr.cvtF64N64, fun m z a => cvtIF f64 m z a.toNat),
       (Instr.cvtF32I64, fun m z a => cvtIF f32 m z a.toInt), (Instr.cvtF32N64, fun m z a => cvtIF f32 m z a.toNat),
       (Instr.cvtI64F64, fun m z a => fpInt (cvtFI f64 m z 64 true a.toNat)),
       (Instr.cvtN64F64, fun m z a => fpInt (cvtFI f64 m z 64 false a.toNat)),
       (Instr.cvtI64F32, fun m z a => fpInt (cvtFI f32 m z 64 true (a.toNat % 2 ^ 32))),
       (Instr.cvtN64F32, fun m z a => fpInt (cvtFI f32 m z 64 false (a.toNat % 2 ^ 32))),
       (Instr.cvtF32F64, fun m z a => cvtFF f64 f32 m z a.toNat),
       (Instr.cvtF64F32, fun _ _ a => cvtFF f32 f64 0 false (a.toNat % 2 ^ 32))] :
        List ((Sh → Instr) × (Nat → Bool → Word → Nat × Flags))),
    ∀ (o : Sh) (s : State), Issues s → Readable s o.rs1.toNat →
      let r := p.2 (o.imm.toNat % 4) (o.imm.getLsbD 2) (s.x o.rs1)
      exec (p.1 o) s = .next (s.ends 8 false 0 fun c => (c.orFlags r.2).setX o.rd.toNat (BitVec.ofNat 64 r.1))) ∧
  ∀ (o : Lg) (s : State), Issues s → GuardReadable s o.g1 → o.ty = 1 ∨ o.ty = 4 →
    (guardTrue s o.g1 = true → Readable s o.a.toNat ∧ Readable s o.b.toNat ∧ Readable s o.c.toNat) →
    let f := if o.ty = 4 then f64 else f32
    let r := fFma f (o.g2.toNat % 4) (o.g2.getLsbD 2) false false ((s.x o.a).toNat % 2 ^ f.width)
      ((s.x o.b).toNat % 2 ^ f.width) ((s.x o.c).toNat % 2 ^ f.width)
    exec (.fma o) s = .next (s.endsLong o.toLow fun c =>
      if guardTrue s o.g1 then (c.orFlags r.2).setX o.d.toNat (BitVec.ofNat 64 r.1) else c)

/-- R122 to R124: every scalar floating-point instruction. -/
def Obligations.FloatResults : Prop := floatResults ∧ convertAndFma

/-- The four formats of arithmetic. -/
def floatFormats : List Fmt := [f64, f32, f16, bf16]

/-- R48: signed zeros in sums, minimum and maximum with zeros and NaNs, and comparisons with NaNs and zeros. -/
def Obligations.ZeroAndNanRules : Prop :=
  ∀ f ∈ floatFormats, ∀ (a b : Nat) (z : Bool),
    -- a sum of operands of opposite sign that is exactly zero
    (∀ m < 4, ∀ n k e e', f.decode z a = .fin n k e → f.decode z b = .fin (!n) k e' → (k = 0 ∨ e = e') →
      fAdd f m z a b = (f.zero (m == 3), 0)) ∧
    -- minimum and maximum order −0 below +0
    fMinMax f false z (f.zero false) (f.zero true) = (f.zero true, 0) ∧
    fMinMax f false z (f.zero true) (f.zero false) = (f.zero true, 0) ∧
    fMinMax f true z (f.zero false) (f.zero true) = (f.zero false, 0) ∧
    fMinMax f true z (f.zero true) (f.zero false) = (f.zero false, 0) ∧
    -- one NaN, which gives the other operand, flushed where `.ftz` flushes it (R51), and two
    (∀ mx q, a < 2 ^ f.width → b < 2 ^ f.width → f.decode z a = .nan q → (∀ q', f.decode z b ≠ .nan q') →
      let other := if z = true ∧ b / 2 ^ f.fbits % 2 ^ f.ebits = 0 then b / 2 ^ (f.ebits + f.fbits) * 2 ^ (f.ebits + f.fbits) else b
      fMinMax f mx z a b = (other, if q then flagNV else 0) ∧ fMinMax f mx z b a = (other, if q then flagNV else 0)) ∧
    (∀ mx q q', f.decode z a = .nan q → f.decode z b = .nan q' →
      fMinMax f mx z a b = (f.nan, if q || q' then flagNV else 0)) ∧
    -- equality and ordering
    (∀ q, f.decode z a = .nan q → (fEq f z a b).1 = false ∧ (fEq f z b a).1 = false ∧ (fEq f z a a).1 = false) ∧
    (∀ q rel, f.decode z a = .nan q → fOrd f z rel a b = (false, flagNV) ∧ fOrd f z rel b a = (false, flagNV)) ∧
    (f.decode z a = .nan false → f.decode z b ≠ .nan true → fEq f z a b = (false, 0) ∧ fEq f z b a = (false, 0)) ∧
    -- −0 and +0 compare equal, in either order
    ∀ n, let x := f.zero n
      let y := f.zero (!n)
      fEq f z x y = (true, 0) ∧ fOrd f z (· == .lt) x y = (false, 0) ∧ fOrd f z (· != .gt) x y = (true, 0) ∧
        fOrd f z (· == .gt) x y = (false, 0) ∧ fOrd f z (· != .lt) x y = (true, 0)

/-- R50: exactly when the value ±k·2^e, rounded with an unbounded exponent, exceeds the largest finite value of a format,
OF is set; NX is set too, and the result is an infinity or the largest finite value as the mode and the sign say. `room` says
that it does not exceed: rounding toward zero needs the value below 2^(bias+1), rounding away from zero needs it at most the
largest finite value, and rounding to nearest needs it below the point halfway between the two. -/
def Obligations.OverflowRule : Prop :=
  ∀ f ∈ floatFormats, ∀ (m : Nat) (z neg : Bool) (k : Nat) (e : Int), m < 4 → 0 < k →
    let v := k * 2 ^ e.toNat
    let one := 2 ^ (-e).toNat
    let top := 2 ^ (f.bias + 1)
    let away := (m = 2 ∧ neg = false) ∨ (m = 3 ∧ neg = true)
    let room := if m = 0 then v < (top - 2 ^ (f.bias - f.fbits - 1)) * one
      else if away then v ≤ (top - 2 ^ (f.bias - f.fbits)) * one else v < top * one
    (¬ room → f.roundFin m z neg k e = (if m = 0 ∨ away then f.inf neg else f.largest neg, flagOF ||| flagNX)) ∧
    (room → (f.roundFin m z neg k e).2.getLsbD 2 = false)

/-! ### Exact results rounded once -/

/-- Whether a pattern of a format is a finite value (R46). -/
def fpFinite (f : Fmt) (b : Nat) : Prop := b < 2 ^ f.width ∧ b / 2 ^ f.fbits % 2 ^ f.ebits ≠ 2 ^ f.ebits - 1

/-- The number that a finite pattern of a format stands for (R46). -/
noncomputable def fpValue (f : Fmt) (b : Nat) : ℝ :=
  let e := b / 2 ^ f.fbits % 2 ^ f.ebits
  let m := b % 2 ^ f.fbits
  let lowest : ℤ := 1 - f.bias - f.fbits
  (if b / 2 ^ (f.ebits + f.fbits) % 2 = 1 then -1 else 1) *
    if e = 0 then (m : ℝ) * 2 ^ lowest else ((m + 2 ^ f.fbits : ℕ) : ℝ) * 2 ^ (lowest + e - 1)

/-- The number that an operand is read as: under `.ftz` a subnormal is a zero (R51). -/
noncomputable def fpRead (f : Fmt) (z : Bool) (b : Nat) : ℝ :=
  if z = true ∧ b / 2 ^ f.fbits % 2 ^ f.ebits = 0 then 0 else fpValue f b

/-- The numbers with as many significand bits as a format has, and with exponents from `lo` upward, or unbounded ones. -/
def fpGrid (f : Fmt) (lo : Option ℤ) (y : ℝ) : Prop :=
  ∃ k e : ℤ, |k| < 2 ^ (f.fbits + 1) ∧ (∀ l ∈ lo, l ≤ e) ∧ y = k * (2 : ℝ) ^ e

/-- Those of them whose last significand bit is even. -/
def fpEven (f : Fmt) (lo : Option ℤ) (y : ℝ) : Prop :=
  ∃ k e : ℤ, Even k ∧ |k| < 2 ^ (f.fbits + 1) ∧ (2 ^ f.fbits ≤ |k| ∨ lo = some e) ∧ y = k * (2 : ℝ) ^ e

/-- R49: a number rounded, under a rounding code, to one that a set holds; of two that are equally near, `.rne` takes an even
one. -/
def RoundsTo (grid even : ℝ → Prop) (m : Nat) (x y : ℝ) : Prop :=
  grid y ∧
    match m with
    | 0 => ∀ g, grid g → |x - y| ≤ |x - g| ∧ (|x - g| = |x - y| → g = y ∨ even y)
    | 1 => |y| ≤ |x| ∧ 0 ≤ x * y ∧ ∀ g, grid g → |g| ≤ |x| → 0 ≤ x * g → |g| ≤ |y|
    | 2 => x ≤ y ∧ ∀ g, grid g → x ≤ g → y ≤ g
    | _ => y ≤ x ∧ ∀ g, grid g → g ≤ x → g ≤ y

/-- R49 to R52: a result is the exact number `x`, not 0, rounded once, with its flags. With an unbounded exponent it is rounded to
`y`: where that exceeds the largest finite value it overflows, and where it is below the smallest normal one it is tiny, which
`.ftz` flushes. -/
def Delivers (f : Fmt) (m : Nat) (z : Bool) (x : ℝ) (r : Nat × Flags) : Prop :=
  let sign := fun (g : Bool → Nat) => if x < 0 then g true else g false
  let lo : ℤ := 1 - f.bias - f.fbits
  ∃ y, RoundsTo (fpGrid f none) (fpEven f none) m x y ∧
    let big := (2 ^ (f.fbits + 1) - 1) * (2 : ℝ) ^ ((f.bias : ℤ) - f.fbits) < |y|
    let tiny := |y| < (2 : ℝ) ^ (1 - (f.bias : ℤ))
    (big → r = (if m = 0 ∨ (m = 2 ∧ 0 < x) ∨ (m = 3 ∧ x < 0) then sign f.inf else sign f.largest, flagOF ||| flagNX)) ∧
    (¬ big → z = true → tiny → r = (sign f.zero, flagUF ||| flagNX)) ∧
    (¬ big → ¬ (z = true ∧ tiny) → fpFinite f r.1 ∧ r.1 / 2 ^ (f.ebits + f.fbits) = (if x < 0 then 1 else 0) ∧
      RoundsTo (fpGrid f (some lo)) (fpEven f (some lo)) m x (fpValue f r.1) ∧
      r.2 = if fpValue f r.1 = x then 0 else if tiny then flagUF ||| flagNX else flagNX)

/-- R49, R50, R53, R123: the exact result of each operation on finite operands, where it is not 0, rounded once. -/
def arithmeticRounds : Prop :=
  ∀ f ∈ floatFormats, ∀ (m : Nat) (z : Bool) (a b c : Nat), m < 4 → fpFinite f a → fpFinite f b → fpFinite f c →
    let x := fpRead f z a
    let y := fpRead f z b
    let w := fpRead f z c
    (x + y ≠ 0 → Delivers f m z (x + y) (fAdd f m z a b)) ∧
    (x - y ≠ 0 → Delivers f m z (x - y) (fSub f m z a b)) ∧
    (x * y ≠ 0 → Delivers f m z (x * y) (fMul f m z a b)) ∧
    (x ≠ 0 → y ≠ 0 → Delivers f m z (x / y) (fDiv f m z a b)) ∧
    (∀ np nc : Bool, let v := (if np then -1 else 1) * (x * y) + (if nc then -1 else 1) * w
      v ≠ 0 → Delivers f m z v (fFma f m z np nc a b c)) ∧
    (0 < x → Delivers f m z (Real.sqrt x) (fSqrt f m z a)) ∧
    (f ≠ f64 → x ≠ 0 → Delivers f m z x⁻¹ (fRcp f m z a)) ∧
    (f ≠ f64 → 0 < x → Delivers f m z (Real.sqrt x)⁻¹ (fRsqrt f m z a)) ∧
    (∀ n : ℤ, f ≠ f64 → x = n → Delivers f m z ((2 : ℝ) ^ n) (fEx2 f m z a)) ∧
    (∀ n : ℤ, f ≠ f64 → n ≠ 0 → x = (2 : ℝ) ^ n → Delivers f m z n (fLg2 f m z a))

/-- R54: the special operands of the functions of R53. -/
def specialOperands : Prop :=
  ∀ f ∈ floatFormats, ∀ (m : Nat) (z n : Bool) (a : Nat), m < 4 → fpFinite f a → fpRead f z a < 0 →
    fSqrt f m z (f.zero true) = (f.zero true, 0) ∧ fSqrt f m z (f.inf false) = (f.inf false, 0) ∧
    fSqrt f m z a = (f.nan, flagNV) ∧ fSqrt f m z (f.inf true) = (f.nan, flagNV) ∧
    fRcp f m z (f.zero n) = (f.inf n, flagDZ) ∧ fRcp f m z (f.inf n) = (f.zero n, 0) ∧
    fRsqrt f m z (f.zero n) = (f.inf n, flagDZ) ∧ fRsqrt f m z (f.inf false) = (f.zero false, 0) ∧
    fRsqrt f m z a = (f.nan, flagNV) ∧ fRsqrt f m z (f.inf true) = (f.nan, flagNV) ∧
    fEx2 f m z (f.inf true) = (f.zero false, 0) ∧ fEx2 f m z (f.inf false) = (f.inf false, 0) ∧
    fLg2 f m z (f.zero n) = (f.inf true, flagDZ) ∧ fLg2 f m z (f.inf false) = (f.inf false, 0) ∧
    fLg2 f m z (f.bias * 2 ^ f.fbits) = (f.zero false, 0) ∧
    fLg2 f m z a = (f.nan, flagNV) ∧ fLg2 f m z (f.inf true) = (f.nan, flagNV) ∧
    ∀ fn ∈ [fSqrt f m z, fRcp f m z, fRsqrt f m z, fEx2 f m z, fLg2 f m z], ∀ v q, f.decode z v = .nan q →
      fn v = (f.nan, if q then flagNV else 0)

/-- R61: entry N or X between two formats, entry N from an integer, and entry T. -/
def conversionsRound : Prop :=
  ∀ f ∈ floatFormats, ∀ (m : Nat) (z : Bool) (a : Nat), m < 4 →
    (∀ g ∈ floatFormats, g ≠ f →
      (fpFinite f a → fpRead f z a ≠ 0 → Delivers g m z (fpRead f z a) (cvtFF f g m z a)) ∧
      (∀ q, f.decode z a = .nan q → cvtFF f g m z a = (g.nan, if q then flagNV else 0)) ∧
      ∀ n, cvtFF f g m z (f.inf n) = (g.inf n, 0) ∧ cvtFF f g m z (f.zero n) = (g.zero n, 0)) ∧
    (∀ v : ℤ, v ≠ 0 → Delivers f m z v (cvtIF f m z v)) ∧
    (∀ (w : Nat) (signed : Bool), 0 < w →
      let least : ℤ := if signed then -2 ^ (w - 1) else 0
      let most : ℤ := if signed then 2 ^ (w - 1) - 1 else 2 ^ w - 1
      (∀ q, f.decode z a = .nan q → cvtFI f m z w signed a = (0, flagNV)) ∧
      cvtFI f m z w signed (f.inf false) = (most, flagNV) ∧ cvtFI f m z w signed (f.inf true) = (least, flagNV) ∧
      (fpFinite f a → let x := fpRead f z a
        ∃ v : ℤ, RoundsTo (fun y => ∃ k : ℤ, y = k) (fun y => ∃ k : ℤ, Even k ∧ y = k) m x v ∧
          cvtFI f m z w signed a = if least ≤ v ∧ v ≤ most then (v, if (v : ℝ) = x then 0 else flagNX)
            else (if x < 0 then least else most, flagNV)))

/-- The number that an E4M3 byte other than a NaN stands for (R55). -/
noncomputable def e4m3Number (b : Nat) : ℝ :=
  (if b / 128 % 2 = 1 then -1 else 1) *
    if b / 8 % 16 = 0 then ((b % 8 : ℕ) : ℝ) / 8 * 2 ^ (-6 : ℤ) else (1 + ((b % 8 : ℕ) : ℝ) / 8) * 2 ^ ((b / 8 % 16 : ℕ) - 7 : ℤ)

/-- What an E4M3 byte delivers in a format that holds it exactly (R55, R61 entry X): a NaN its canonical NaN, and any other value
itself, with its sign. -/
def FromE4m3 (f : Fmt) (b v : Nat) : Prop :=
  (b % 128 = 127 → v = f.nan) ∧
  (b % 128 ≠ 127 → fpFinite f v ∧ fpValue f v = e4m3Number b ∧ v / 2 ^ (f.ebits + f.fbits) = b / 128)

/-- R55, R61: E4M3, from a byte and (entry Z) into one: rounded once to four significant bits and then saturated at 448. -/
def e4m3Rules : Prop :=
  (∀ f ∈ floatFormats, ∀ b < 256, FromE4m3 f b (f.deliver 0 false (e4m3Decode b)).1 ∧ (f.deliver 0 false (e4m3Decode b)).2 = 0) ∧
  ∀ f ∈ floatFormats, ∀ (m : Nat) (z : Bool) (a : Nat), m < 4 →
    (∀ q, f.decode z a = .nan q → e4m3Encode m (f.decode z a) = (0x7F, if q then flagNV else 0)) ∧
    (∀ n, e4m3Encode m (f.decode z (f.inf n)) = ((if n then 0xFE else 0x7E), flagOF ||| flagNX) ∧
      e4m3Encode m (f.decode z (f.zero n)) = ((if n then 0x80 else 0), 0)) ∧
    (fpFinite f a → let x := fpRead f z a
      let r := e4m3Encode m (f.decode z a)
      x ≠ 0 → ∃ y, RoundsTo (fpGrid ⟨4, 3⟩ none) (fpEven ⟨4, 3⟩ none) m x y ∧
        (448 < |y| → r = (if x < 0 then 0xFE else 0x7E, flagOF ||| flagNX)) ∧
        (|y| ≤ 448 → r.1 < 256 ∧ r.1 % 128 ≠ 127 ∧ r.1 / 128 = (if x < 0 then 1 else 0) ∧
          RoundsTo (fpGrid ⟨4, 3⟩ (some (-9))) (fpEven ⟨4, 3⟩ (some (-9))) m x (e4m3Number r.1) ∧
          r.2 = if e4m3Number r.1 = x then 0 else if |y| < 2 ^ (-6 : ℤ) then flagUF ||| flagNX else flagNX))

/-- R49 to R55, R61: each operation of the floating-point instructions delivers its exact result rounded once, with the flags of
R52; of 2^x and log₂ x the exact cases and the special operands. -/
def Obligations.RoundedOnce : Prop := arithmeticRounds ∧ specialOperands ∧ conversionsRound ∧ e4m3Rules

/-! ### Branches, jumps, prefixes, traps -/

/-- R125: the conditional branches compare their sources and go to P + 4·DISP or to P + 8, `j` and `call` go to P + 4·DISP,
`jr` and `callr` to bits [56:0] of xs + IMM where that is a multiple of 4; `call` and `callr` write P + 8. Nothing else
changes. -/
def branchesAndJumps : Prop :=
  ∀ (o : Sh) (s : State), Issues s →
    let there : Va := s.pc + 4 * o.imm.signExtend 57
    let link : Word := (s.pc + 8).setWidth 64
    (Readable s o.rs1.toNat → Readable s o.rs2.toNat →
      ∀ p ∈ ([(Instr.beq, fun a b => decide (a = b)), (Instr.bne, fun a b => decide (a ≠ b)),
          (Instr.blt, fun a b => decide (a.toInt < b.toInt)), (Instr.bge, fun a b => decide (a.toInt ≥ b.toInt)),
          (Instr.bltu, fun a b => decide (a.toNat < b.toNat)), (Instr.bgeu, fun a b => decide (a.toNat ≥ b.toNat))] :
            List ((Sh → Instr) × (Word → Word → Bool))),
        exec (p.1 o) s = .next (s.goesTo (if p.2 (s.x o.rs1) (s.x o.rs2) then there else s.pc + 8) id)) ∧
    exec (.j o) s = .next (s.goesTo there id) ∧
    exec (.call o) s = .next (s.goesTo there (·.setX o.rd.toNat link)) ∧
    (Readable s o.rs1.toNat →
      let t : Va := (s.x o.rs1 + o.imm.signExtend 64).setWidth 57
      t.toNat % 4 = 0 →
        exec (.jr o) s = .next (s.goesTo t id) ∧ exec (.callr o) s = .next (s.goesTo t (·.setX o.rd.toNat link)))

/-- R79: an instruction whose first and last bytes lie in different fetch blocks is not executed: FetchStraddle is raised,
with EPC (through the trap's address) and ETVAL the instruction's address. A `jr` or `callr` whose target is no multiple of 4
raises Misaligned at the jump, with SUB 2 and the target in ETVAL, before any effect. -/
def fetchAndTargetFaults : Prop :=
  (∀ (w : BitVec 128) (s : State), w.toNat % 4 ≠ 3 → s.pc.toNat % 32 + lengthOf w > 32 →
    issueWord w s = .next (State.traps { s with iw := w } 3 0 (s.pc.setWidth 64))) ∧
  ∀ (o : Sh) (s : State), Issues s → Readable s o.rs1.toNat →
    let t : Va := (s.x o.rs1 + o.imm.signExtend 64).setWidth 57
    t.toNat % 4 ≠ 0 → exec (.jr o) s = .next (s.traps 4 2 (t.setWidth 64)) ∧ exec (.callr o) s = .next (s.traps 4 2 (t.setWidth 64))

/-- R125 and R79: branches, jumps and calls, and the faults of a target and of a fetch. -/
def Obligations.BranchesAndJumps : Prop := branchesAndJumps ∧ fetchAndTargetFaults

/-- R127: `fmt` raises PrefixMisuse where a prefix is pending; otherwise it records Δ, the scale register's number and the
format in PFX, whose other bits are 0, and sets SR.PP. -/
def prefixRecorded : Prop :=
  ∀ (fmt : BitVec 4) (o : Sh) (s : State), s.mayIssue s.cur = true →
    ((s.ctx s.cur).pp = true → exec (.fmt fmt o) s = .next (s.traps 11 0 (s.iw.setWidth 64))) ∧
    ((s.ctx s.cur).pp = false → o.imm.toNat < 16 →
      exec (.fmt fmt o) s = .next (s.ends 8 false 0 fun c =>
        { c with pfx := BitVec.ofNat 64 (o.imm.toNat * 2 ^ 10 + o.rs1.toNat * 2 ^ 4 + fmt.toNat), sr := c.sr ||| 1#64 }))

/-- The instructions that only go on: `nop` in its three forms (R132) and `cpf`, a hint (R213). `brk` raises Break with
ETVAL its address, `trap` completes and raises SoftwareTrap with EPC P + 8 and ETVAL its immediate (R31, R132), and `kfence`
bounds the constant path by what has been acquired (R139). -/
def simpleSystem : Prop :=
  ∀ (s : State), Issues s →
    (∀ o : Sh, exec (.nop o) s = .next (s.ends 8 false 0 id)) ∧
    (∀ o : Lg, exec (.nopLong o) s = .next (s.endsLong o.toLow id)) ∧
    (∀ o : ExT, exec (.nopExt o) s = .next (s.endsExt o.toLow id)) ∧
    (∀ o : ShM, exec (.cpf o) s = .next (s.ends 8 false 0 id)) ∧
    (∀ o : Sh, exec (.brk o) s = .next (s.traps 20 0 (s.pc.setWidth 64))) ∧
    (∀ o : Sh, exec (.trap o) s = .next (takeTrap s.cur (s.pc + 8) s.pc (afterTrap 21 0 (o.imm.setWidth 64))
      (s.ends 8 false 0 id))) ∧
    (∀ o : Sh, exec (.kfence o) s = .next (s.ends 8 false 0 fun c => { c with kfloor := max c.kfloor c.acq }))

/-- R127, R132, R139, R213: the prefix, no-operations, traps by instruction and `kfence`. -/
def Obligations.PrefixAndSimpleSystem : Prop := prefixRecorded ∧ simpleSystem

/-- R27, at privilege 0 outside a rollback team (R394), where the trap removes no lanes (R20): ESR, EPC, ECAUSE and ETVAL are
written, SR.PP becomes 0 and SR.PRIV 1, and the context goes on at TVEC; PFX, every register and lane, what is in flight, and
all else stay. A trap in a level update freezes its launch (R332). -/
def trapEntryAtZero : Prop :=
  ∀ (key : Nat) (epc pc : Va) (t : Trap) (s : State), (s.ctx key).priv = 0 → s.teamOf key = none → s.vs key = false →
    let c := s.ctx key
    let s' := takeTrap key epc pc t s
    let c' := s'.ctx key
    c'.esr = s.srOf key ∧ c'.epc = epc &&& ~~~3#57 ∧ c'.etval = t.val ∧
    field c'.ecause 0 8 = t.code.toNat ∧ field c'.ecause 8 8 = t.sub.toNat ∧ field c'.ecause 16 16 = t.seq.toNat ∧
    c'.ecause.getLsbD 32 = decide (t.kind = .imprecise) ∧ c'.ecause.getLsbD 33 = decide (t.kind = .after) ∧
    c'.ecause.getLsbD 34 = t.tag ∧ c'.ecause.getLsbD 35 = c.inUpdate ∧ field c'.ecause 36 28 = 0 ∧
    c'.pp = false ∧ c'.priv = 1 ∧ (∀ i < 64, i ≠ 0 → i ≠ 10 → i ≠ 11 → c'.sr.getLsbD i = c.sr.getLsbD i) ∧
    c'.pc = ((s.core (coreOfKey key)).tvec &&& ~~~63#64).setWidth 57 ∧
    c' = { c with esr := c'.esr, epc := c'.epc, ecause := c'.ecause, etval := c'.etval, sr := c'.sr, pc := c'.pc
                  st := c'.st, saved := c'.saved, wait := .none, fetched := none } ∧
    s' = { s with ctxs := s'.ctxs, launches := s'.launches } ∧ (∀ k, k ≠ key → s'.ctx k = s.ctx k) ∧
    (c.inUpdate = false → s'.launches = s.launches) ∧
    (c.inUpdate = true → (s'.launch c.launch).freezes = key :: (s.launch c.launch).freezes)

/-- R28: at privilege 1 (outside a rollback team) a precise or after-completion trap is fatal: the launch ends with a Fault
report of its cause, subcode, ETVAL and the address of the instruction whose fault it is, which the trap names where the
context has left it behind. Any other trap is held, after those already held. -/
def trapsAtOne : Prop :=
  ∀ (key : Nat) (epc pc : Va) (t : Trap) (s : State), (s.ctx key).priv ≠ 0 → s.teamOf key = none →
    (t.kind = .precise ∨ t.kind = .after →
      takeTrap key epc pc t s = endLaunch (s.launch (s.ctx key).launch).q
        { status := 1, code := t.code.toNat, sub := t.sub.toNat, a := (t.pc.getD pc).setWidth 64, b := t.val
          core := coreOfKey key, ctx := slotOfKey key } s) ∧
    (t.kind = .imprecise ∨ t.kind = .async →
      takeTrap key epc pc t s = s.setCtx key { s.ctx key with due := (s.ctx key).due ++ [t] })

/-- R27, R28: what a trap does at each privilege. -/
def Obligations.TrapEntry : Prop := trapEntryAtZero ∧ trapsAtOne

/-- R29 at privilege 1, with no lanes to claim back, nothing to replay and no rollback team: SR is ESR with CTX, DET, MIG and
VS kept, and the context goes on at EPC. ESR.PRIV above 1 raises ReservedField, and `eret` at privilege 0 IllegalOpcode. -/
def Obligations.EretRestores : Prop :=
  ∀ (o : Sh) (s : State), Issues s →
    let c := s.ctx s.cur
    (c.priv = 0 → exec (.eret o) s = .next (s.traps 1 0 (s.iw.setWidth 64))) ∧
    (c.priv ≠ 0 → field c.esr 10 2 > 1 → exec (.eret o) s = .next (s.traps 2 0 (s.iw.setWidth 64))) ∧
    (c.priv ≠ 0 → field c.esr 10 2 ≤ 1 → c.spilled = 0 → c.replay = [] → s.teamOf s.cur = none →
      ∃ t, exec (.eret o) s = .next t ∧ (t.ctx s.cur).pc = c.epc ∧
        (∀ i < 64, (t.ctx s.cur).sr.getLsbD i =
          if i = 7 ∨ i = 8 ∨ i = 9 ∨ (16 ≤ i ∧ i < 24) then c.sr.getLsbD i
          else if i < 7 ∨ i = 10 ∨ i = 11 then c.esr.getLsbD i else false) ∧
        (t.ctx s.cur).x = c.x ∧ (t.ctx s.cur).pfx = c.pfx ∧ (t.ctx s.cur).v = c.v ∧ (t.ctx s.cur).due = c.due ∧
        t.mem = s.mem ∧ ∀ k, k ≠ s.cur → t.ctx k = s.ctx k)

/-- R26 and R128: at privilege 0 every access to a trap register, TVEC or a dispatch-ring register, and every write of PFX,
CSPLIT and VGRP, is IllegalOpcode without effect. -/
def privilegedAccessesTrap : Prop :=
  ∀ (o : Sh) (s : State), Issues s → (s.ctx s.cur).priv = 0 →
    let illegal := Host.Outcome.next (s.traps 1 0 (s.iw.setWidth 64))
    let n := o.imm.toNat % 256
    (2 ≤ n ∧ n ≤ 6 ∨ 16 ≤ n ∧ n ≤ 24 → exec (.mfsr o) s = illegal) ∧
    (∀ i ∈ [Instr.mtsr o, .mtsrCsplit o, .mtsrVgrp o, .mtsrDridx o, .mtsrDrrpl o], exec i s = illegal)

/-- R128 and R41: what `mfsr` reads of each register, at privilege 1 or of a register that privilege 0 may read; SR waits for
the vector instructions in flight (R129). A ring register reads the entry that DRIDX selects, and 0 where the ring does not
hold its number (R37; that DRST reads 0 then is DEDUCED). -/
def specialRegisterReads : Prop :=
  ∀ (o : Sh) (s : State), Issues s →
    let c := s.ctx s.cur
    let k := s.core (coreOfKey s.cur)
    let e : RingEnt := Tbl.get {} c.ring (c.dridx.toNat % 64)
    let held := e.used && e.seq == c.dridx
    let reads := fun (v : Word) => exec (.mfsr o) s = .next (s.ends 8 false 0 (·.setX o.rd.toNat v))
    let n := o.imm.toNat % 256
    (n = 0 → VectorsRetired s → reads (s.srOf s.cur)) ∧ (n = 1 → reads c.pfx) ∧ (n = 7 → reads (k.split.setWidth 64)) ∧
    (n = 8 → reads ((s.cluster (clusterOfCore (coreOfKey s.cur))).vgrp.setWidth 64)) ∧
    (n = 9 → reads (s.cload (clusterOfCore (coreOfKey s.cur)))) ∧
    (n = 10 → reads (s.cluster (clusterOfCore (coreOfKey s.cur))).mgstall) ∧
    (c.priv ≠ 0 →
      (n = 2 → reads (c.epc.setWidth 64)) ∧ (n = 3 → reads c.ecause) ∧ (n = 4 → reads c.etval) ∧ (n = 5 → reads c.esr) ∧
      (n = 6 → reads k.tvec) ∧ (n = 16 → reads (c.drseq.setWidth 64)) ∧ (n = 17 → reads (c.dridx.setWidth 64)) ∧
      (n = 18 → reads (if held then e.pc.setWidth 64 else 0)) ∧ (n = 19 → reads (if held then e.w.setWidth 64 else 0)) ∧
      (n = 20 → reads (if held then e.w.extractLsb' 64 64 else 0)) ∧ (n = 21 → reads (if held then e.dra else 0)) ∧
      (n = 22 → reads (if held then e.drb else 0)) ∧ (n = 23 → ∃ w : Word, reads w ∧ (held = false → w = 0) ∧
        (held = true → w.getLsbD 0 = true ∧ w.getLsbD 1 = e.done ∧ w.getLsbD 2 = e.flt ∧ w.getLsbD 3 = e.can ∧
          field w 16 16 = e.seq.toNat ∧ field w 34 14 = e.pfxv.toNat ∧ w.getLsbD 48 = e.pfxp)) ∧
      (n = 24 → reads (BitVec.ofNat 64 c.replay.length)))

/-- R26, R37, R128: what `mfsr` reads, and which accesses privilege 0 is refused. -/
def Obligations.SpecialRegisterReads : Prop := privilegedAccessesTrap ∧ specialRegisterReads

/-- R128: what `mtsr` writes; VGRP invalidates the pooled lines of the cores whose bits it clears (R259). Of SR, privilege 0
writes PW and the five flags and privilege 1 PRIV too, and 2 or 3 there is ReservedField (R22); a reserved FMT is ReservedField
(R24); fields that are read-only keep their value. -/
def specialRegisterWrites : Prop :=
  ∀ (o : Sh) (s : State), Issues s → Readable s o.rs1.toNat →
    let c := s.ctx s.cur
    let v := s.x o.rs1
    let n := o.imm.toNat % 256
    let sets := fun (f : Ctx → Ctx) => exec (.mtsr o) s = .next (s.ends 8 false 0 f)
    let reserved := Host.Outcome.next (s.traps 2 0 (s.iw.setWidth 64))
    (VectorsRetired s → c.priv = 0 ∨ field v 10 2 ≤ 1 → ∃ w : Word,
      (∀ i < 64, w.getLsbD i = if 1 ≤ i ∧ i ≤ 6 ∨ c.priv ≠ 0 ∧ (i = 10 ∨ i = 11) then v.getLsbD i else c.sr.getLsbD i) ∧
      exec (.mtsrSr o) s = .next (s.ends 8 false 0 fun c => { c with sr := w })) ∧
    (VectorsRetired s → c.priv ≠ 0 → field v 10 2 > 1 → exec (.mtsrSr o) s = reserved) ∧
    (c.priv ≠ 0 →
      (n = 1 → field v 0 4 < 10 → sets fun c => { c with pfx := v &&& 0x3FFF#64 }) ∧
      (n = 1 → field v 0 4 ≥ 10 → exec (.mtsr o) s = reserved) ∧
      (n = 2 → sets fun c => { c with epc := v.setWidth 57 &&& ~~~3#57 }) ∧
      (n = 3 → sets fun c => { c with ecause := v &&& 0xFFFFFFFFF#64 }) ∧
      (n = 4 → sets fun c => { c with etval := v }) ∧ (n = 5 → sets fun c => { c with esr := v }) ∧
      (n = 6 → exec (.mtsr o) s = .next (s.finishes 8 fun s =>
        s.modCore (coreOfKey s.cur) fun k => { k with tvec := v &&& 0x01FFFFFFFFFFFFC0#64 })) ∧
      (n = 0 ∨ n ≥ 7 → exec (.mtsr o) s = .next (s.traps 1 0 (s.iw.setWidth 64))) ∧
      exec (.mtsrVgrp o) s = .next (s.finishes 8 fun s =>
        s.modCluster (clusterOfCore (coreOfKey s.cur)) fun c =>
          { c with vgrp := v.setWidth 8, pool := c.pool.filter fun p => v.getLsbD p.2.core && v.getLsbD p.2.part }) ∧
      exec (.mtsrDridx o) s = .next (s.ends 8 false 0 fun c => { c with dridx := v.setWidth 16 }) ∧
      exec (.mtsrDrrpl o) s = .next (s.ends 8 false 0 fun c =>
        let e : RingEnt := Tbl.get {} c.ring (v.toNat % 64)
        if e.used ∧ e.seq = v.setWidth 16 ∧ (e.flt ∨ e.can) ∧ (∀ r ∈ c.replay, r.seq ≠ v.setWidth 16) ∧ c.replay.length < 64
        then { c with replay := c.replay ++ [e] } else c)) ∧
    exec (.mtsrMgstall o) s = .next (s.finishes 8 fun s =>
      let s := uncover s.cur s
      if v = 0 then s.modCluster (clusterOfCore (coreOfKey s.cur)) fun c => { c with mgstall := 0 } else s)

/-- R40 and R258: a write of CSPLIT at privilege 1 sets CACHE to 0 to 8 once the accesses to the scratchpad are performed;
the bytes between the old and the new boundary read 0 (a fresh byte of the scratchpad is zero), and every other byte stays.
Until then it waits and stops the issue of the core, which also holds accesses from elsewhere. CACHE above 8 is
ReservedField. -/
def carveOut : Prop :=
  ∀ (o : Sh) (s : State), Issues s → (s.ctx s.cur).priv ≠ 0 → Readable s o.rs1.toNat →
    let new := field (s.x o.rs1) 0 4
    let core := coreOfKey s.cur
    let old := (s.core core).split.toNat
    (new > 8 → exec (.mtsrCsplit o) s = .next (s.traps 2 0 (s.iw.setWidth 64))) ∧
    (new ≤ 8 → old ≤ 8 → s.scratchBusy core = false →
      ∃ t, exec (.mtsrCsplit o) s = .next t ∧ (t.core core).split.toNat = new ∧ (t.ctx s.cur).pc = s.pc + 8 ∧
        ∀ p, t.byte p = if (8 - max new old) * 65536 ≤ p - placeCore core 0 ∧ p - placeCore core 0 < (8 - min new old) * 65536 ∧
          placeCore core 0 ≤ p then 0 else s.byte p) ∧
    (new ≤ 8 → new ≠ old → s.scratchBusy core = true →
      exec (.mtsrCsplit o) s = .next (park s.cur .again false (s.modCore core fun k => { k with stopped := some s.cur })))

/-- R22, R24, R128, R258: what `mtsr` writes. -/
def Obligations.SpecialRegisterWrites : Prop := specialRegisterWrites ∧ carveOut

/-- R39: what `rid` reads. R138: what `gaddr` makes of an address, and the Aperture faults of it. -/
def Obligations.IdentityAndGlobalAddress : Prop :=
  ∀ (o : Sh) (s : State), Issues s →
    let c := s.ctx s.cur
    let core := coreOfKey s.cur
    let n := o.imm.toNat % 256
    let reads := fun (v : Word) => exec (.rid o) s = .next (s.ends 8 false 0 (·.setX o.rd.toNat v))
    (n = 0 → reads (BitVec.ofNat 64 (core % 8))) ∧ (n = 1 → reads (BitVec.ofNat 64 (core / 8 % 64))) ∧
    (n = 2 → reads (BitVec.ofNat 64 (core / 512))) ∧ (n = 3 → reads (BitVec.ofNat 64 s.devId)) ∧
    (n = 4 → reads (BitVec.ofNat 64 (s.cur % 16))) ∧ (n = 5 → reads (BitVec.ofNat 64 (32 * c.grant))) ∧
    (∀ i < 4, (n = 8 + i → reads (c.gdim.getD i 0)) ∧ (n = 12 + i → reads (c.org.getD i 0)) ∧
      (n = 16 + i → reads (c.ext.getD i 0)) ∧
      (n = 20 + i → reads (if h : i < c.grp.length then BitVec.ofNat 64 c.grp[i] else BitVec.allOnes 64))) ∧
    (n = 24 → reads (match c.blk with | some b => BitVec.ofNat 64 b | none => BitVec.allOnes 64)) ∧
    (n = 25 → reads (c.lvl.signExtend 64)) ∧ (n = 26 → reads (c.stp.signExtend 64)) ∧
    (n = 6 ∨ n = 7 ∨ n > 26 → exec (.rid o) s = .next (s.traps 1 0 (s.iw.setWidth 64))) ∧
    (Readable s o.rs1.toNat →
      let x := s.x o.rs1
      let u := s.launch c.launch
      let gives := fun (v : Word) => exec (.gaddr o) s = .next (s.ends 8 false 0 (·.setX o.rd.toNat v))
      (field x 55 2 ≠ 1 → gives x) ∧
      (field x 55 2 = 1 → field x 52 3 ≠ 3 → exec (.gaddr o) s = .next (s.traps 10 (field x 52 3) x)) ∧
      (field x 55 2 = 1 → field x 52 3 = 3 → field x 0 52 ≥ u.psize → exec (.gaddr o) s = .next (s.traps 10 3 x)) ∧
      (field x 55 2 = 1 → field x 52 3 = 3 → field x 0 52 < u.psize →
        gives (BitVec.ofNat 64 (u.pbase + c.pslot * u.psize + field x 0 52))))

/-! ### Helpers and lanes -/

/-- R133: with a free slot from 1 on, `hstart` and `hstart.m` start a context in the lowest one, at P + 4·DISP, with x1 the
argument and every other register, flag, lane and the ring empty, the starter's identity registers, and the starter as its
owner; with none, xd receives 0. A context that is no control context takes IllegalOpcode. -/
def helperStarts : Prop :=
  ∀ (mig : Bool) (o : Sh) (s : State), Issues s →
    let i := if mig then Instr.hstartM o else Instr.hstart o
    let c := s.ctx s.cur
    let core := coreOfKey s.cur
    (c.standing ≠ .control → exec i s = .next (s.traps 1 0 (s.iw.setWidth 64))) ∧
    (c.standing = .control → Readable s o.rs1.toNat → s.freeSlot core 1 = none →
      exec i s = .next (s.ends 8 false 0 (·.setX o.rd.toNat 0))) ∧
    (c.standing = .control → Readable s o.rs1.toNat → Released s 2 →
      ∀ n, s.freeSlot core 1 = some n →
        ∃ t, exec i s = .next t ∧ (t.ctx s.cur).xr o.rd.toNat = (if o.rd = 0 then 0 else BitVec.ofNat 64 n) ∧
          let h := t.ctx (keyOf core n)
          h.st = .ready ∧ h.pc = s.pc + 4 * o.imm.signExtend 57 ∧
          (∀ r, h.xr r = if r = 1 then s.x o.rs1 else 0) ∧
          h.sr = BitVec.ofNat 64 (n * 2 ^ 16 + (if mig then 2 ^ 9 else 0) + (if c.det then 2 ^ 8 else 0)) ∧
          h.pfx = 0 ∧ h.grant = 0 ∧ h.ring = [] ∧ h.drseq = 0 ∧ h.v = [] ∧ h.sl = [] ∧ h.standing = .helper ∧
          h.owner = some s.cur ∧ h.number = n ∧ h.gdim = c.gdim ∧ h.org = c.org ∧ h.ext = c.ext ∧ h.grp = c.grp ∧
          (∀ k, k ≠ s.cur → k ≠ keyOf core n → t.ctx k = s.ctx k) ∧ t.mem = s.mem)

/-- R134 and R135: `hjoin` waits while a helper it names lives and then is an acquire at `.cl`; a context that is no control
context takes IllegalOpcode. `hend` at privilege 1 is IllegalOpcode; it waits for what is in flight and, in a control context,
for its helpers; then its slot is Free, its lanes go with it, and memory stays; that its mailbox goes with it, and what is parked
for it, is the model's choice (log entry 68). A level update that it discards clears INF in its descriptor, once the tables can
be used (R328, R367). A number that names two helpers waits for both (log entry 71). -/
def helperEnds : Prop :=
  ∀ (o : Sh) (s : State), Issues s →
    let c := s.ctx s.cur
    let mine := s.helpersOf s.cur
    (c.standing ≠ .control → exec (.hjoin o) s = .next (s.traps 1 0 (s.iw.setWidth 64))) ∧
    (c.standing = .control → Readable s o.rs1.toNat →
      ((if o.rs1 = 0 then mine ≠ [] else ∃ h ∈ mine, h.number = (s.x o.rs1).toNat) →
        exec (.hjoin o) s = .next (park s.cur .again true s)) ∧
      (¬(if o.rs1 = 0 then mine ≠ [] else ∃ h ∈ mine, h.number = (s.x o.rs1).toNat) →
        exec (.hjoin o) s = .next (s.ends 8 false 0 fun c => { c with acq := s.wlog.length }))) ∧
    (c.priv ≠ 0 → exec (.hend o) s = .next (s.traps 1 0 (s.iw.setWidth 64))) ∧
    (c.priv = 0 → (c.pend ≠ [] ∨ c.due ≠ []) → exec (.hend o) s = .next (park s.cur .again false s)) ∧
    (c.priv = 0 → c.pend = [] → c.due = [] → c.standing = .control → mine ≠ [] →
      exec (.hend o) s = .next (park s.cur .again true s)) ∧
    (c.priv = 0 → c.pend = [] → c.due = [] → (c.standing = .control → mine = []) → Released s 2 →
      (c.inUpdate = false → ∃ t, exec (.hend o) s = .next t ∧ t.ctx s.cur = {} ∧ t.mem = s.mem ∧
        ∀ p, t.byteMark p = s.byteMark p) ∧
      ∀ u, useUpdate.run (clearNotes s) = .ok () u → u.cur = s.cur →
        ∃ t, exec (.hend o) s = .next t ∧ t.ctx s.cur = {} ∧
          ∀ b p, c.inUpdate = true → c.blk = some b →
            u.launchPlace c.launch ((u.launch c.launch).ltab + 64 * b + 8) accRead = some p → (t.byte p).getLsbD 3 = false)

/-- R133 to R135: how helpers start, are waited for, and end. -/
def Obligations.Helpers : Prop := helperStarts ∧ helperEnds

/-- R137: `vclaim` records ⌈xs/32⌉ lane groups, at most those in service (R406), as the request, and adds free groups up to it,
its own reservation first and less what an `eret` waits for (R20); it never shrinks the grant. xd receives the grant. A claim
that stays short waits from now on, or since the wait that it has not lowered (R315). -/
def claimGrants : Prop :=
  ∀ (o : Sh) (s : State), Issues s → (s.ctx s.cur).mig = false → VectorsRetired s → (s.ctx s.cur).spillDue = false →
    Readable s o.rs1.toNat →
    let c := s.ctx s.cur
    let cl := clusterOfCore (coreOfKey s.cur)
    let request := min (s.poolSize cl) (((s.x o.rs1).toNat + 31) / 32)
    let free := (s.modCtx s.cur fun c => { c with request := request, reserved := 0 }).claimable cl
    let grant := c.grant + min (request - c.grant) (c.reserved + (free - c.reserved))
    ∃ t, exec (.vclaim o) s = .next t ∧
      let c' := t.ctx s.cur
      c'.request = request ∧ c'.grant = grant ∧ c'.reserved = 0 ∧
      c'.xr o.rd.toNat = (if o.rd = 0 then 0 else BitVec.ofNat 64 (32 * grant)) ∧
      (grant < request → c'.waitSince = some (if request < c.request then s.clock else c.waitSince.getD s.clock)) ∧
      (request ≤ grant → c'.waitSince = none) ∧
      (∀ r lane, lane < 32 * c.grant → lane < 256 → c'.vr r lane = c.vr r lane) ∧ t.mem = s.mem ∧
      ∀ k, k ≠ s.cur → t.ctx k = s.ctx k

/-- R315, with the fair share T and what the other waiting claimants are short of: a context above T loses the smaller of its
excess and that shortage, which is reserved to them in wait order up to T each; it gives up what its request does not ask for;
then it takes its own reservation and free groups up to its request. `vrenew` does this and leaves the grant in xd. What is
free then goes to the reservations of the waiting claimants, in wait order, each up to its request: either every one has what it
asks for or no group is left that an `eret` does not wait for, and none is given any while one before it lacks some. -/
def renewGrants : Prop :=
  ∀ (o : Sh) (s : State), Issues s → (s.ctx s.cur).mig = false → VectorsRetired s → (s.ctx s.cur).spillDue = false →
    let c := s.ctx s.cur
    let cl := clusterOfCore (coreOfKey s.cur)
    let share := s.fairShare cl
    let cut := if s.shortOf s.cur > 0 ∧ c.grant > share then min (c.grant - share) (s.shortOf s.cur) else 0
    let s1 := reserveTo (fun w => min w.request share) ((s.claimants cl).filter (· != s.cur)) cut
      (s.modCtx s.cur fun c => c.setGrant (c.grant - cut))
    let kept := min (c.grant - cut) c.request
    let free := (s1.modCtx s.cur fun c => { c with grant := kept, reserved := 0 }).claimable cl
    let grant := kept + min (c.request - kept) (c.reserved + (free - c.reserved))
    ∃ t, exec (.vrenew o) s = .next t ∧
      let c' := t.ctx s.cur
      c'.grant = grant ∧ c'.request = c.request ∧
      c'.xr o.rd.toNat = (if o.rd = 0 then 0 else BitVec.ofNat 64 (32 * grant)) ∧
      (∀ r lane, lane < 32 * min kept grant → lane < 256 → c'.vr r lane = c.vr r lane) ∧ t.mem = s.mem ∧
      (∀ k, k ≠ s.cur → (t.ctx k).grant = (s.ctx k).grant ∧ (s1.ctx k).reserved ≤ (t.ctx k).reserved ∧
        (t.ctx k).reserved ≤ max (s1.ctx k).reserved ((t.ctx k).request - (t.ctx k).grant)) ∧
      let full := fun (w : Nat) => (t.ctx w).request ≤ (t.ctx w).grant + (t.ctx w).reserved
      ((∀ w ∈ t.claimants cl, full w) ∨ t.claimable cl = 0) ∧
      (t.claimants cl).Pairwise fun w v => w ≠ v → (s1.ctx v).reserved < (t.ctx v).reserved → full w

/-- R137 and R315: what `vclaim` and `vrenew` grant. In a context started with `hstart.m` they raise LaneNone (R136), and they
wait for the vector instructions in flight. -/
def Obligations.LaneClaims : Prop :=
  claimGrants ∧ renewGrants ∧
  ∀ (o : Sh) (s : State), Issues s →
    ((s.ctx s.cur).mig = true → exec (.vclaim o) s = .next (s.traps 12 0 (s.iw.setWidth 64)) ∧
      exec (.vrenew o) s = .next (s.traps 12 0 (s.iw.setWidth 64))) ∧
    ((s.ctx s.cur).mig = false → ((s.ctx s.cur).pend.any fun p => !p.op.isMatrix) = true →
      exec (.vclaim o) s = .next (park s.cur .again false s) ∧ exec (.vrenew o) s = .next (park s.cur .again false s))

/-! ### Loads, stores and atomics -/

/-- The value of a load of a width function code (R171): the bytes, lowest first, sign- or zero-extended. -/
def loaded (fn : Nat) (bs : List Byte) : Word :=
  let v := leNat bs
  match fn with
  | 1 => (BitVec.ofNat 8 v).signExtend 64
  | 3 => (BitVec.ofNat 16 v).signExtend 64
  | 5 => (BitVec.ofNat 32 v).signExtend 64
  | _ => BitVec.ofNat 64 v

/-- The bytes that a width function code of a load moves, and of a store (R171). -/
def widthOf (st : Bool) (fn : Nat) : Nat :=
  if st then [8, 1, 2, 4].getD fn 4 else [8, 1, 1, 2, 2, 4, 4].getD fn 4

/-- The effective address of R169. -/
def effective (s : State) (base : BitVec 6) (off : BitVec 20) : Va := (s.x base + off.signExtend 64).setWidth 57

/-- The state after an instruction of 8 bytes that has translated its address and whose effect is `g`. -/
def landed (s t : State) (g : State → State) : State := complete (s.pc + 8) false 0 (g t)

/-- A loaded value enters a register of the current context with the mark of its bytes (R175). -/
def delivers (rd : BitVec 6) (fn : Nat) (bs : List Byte) (mark : Nat) (t : State) : State :=
  t.modCtx t.cur (·.setXMarked rd.toNat (loaded fn bs) mark)

/-- Whether a scalar load of the current context at a place waits for its line: through its L1, or on the constant path
through its die's L2; a scratchpad or cluster memory has no cache, and host uncached memory no line to wait for (R179, R190,
R258, R269, R273, R307). -/
def loadWaits (const : Bool) (loc : Loc) (p : Nat) (t : State) : Bool :=
  match loc with
  | .mem _ mt => mt != 3 && t.readWaits (loadVia const (coreOfKey t.cur)) p
  | _ => t.readWaits (.l1 (coreOfKey t.cur)) p

/-- What a scalar load asks of the caches before it reads, or of the link to another die's bank (R270, R346, R349, R400). -/
def loadAsks (const : Bool) (ch : BitVec 3) (loc : Loc) (p : Nat) (t : State) : State :=
  match loc with
  | .mem _ mt => if mt = 3 then t else lineRead (loadVia const (coreOfKey t.cur)) ch.toNat p t
  | _ => lineRead (.l1 (coreOfKey t.cur)) 0 p t

/-- The bytes that a load finds at a place: those of memory with the context's own posted stores laid over them (R173). -/
def finds (loc : Loc) (p n : Nat) (t : State) : List Byte :=
  match loc with
  | .mem _ _ => t.ownBytes t.cur p n
  | _ => t.bytes p n

/-- The mark that a load finds there: the context's own posted stores leave none (R173, R175). -/
def findsMark (loc : Loc) (p n : Nat) (t : State) : Nat :=
  match loc with
  | .mem _ _ => t.ownMark t.cur p n
  | _ => t.firstMark p n

/-- R172, R173, R176: an aligned `ld` or `lda` of a place of this package whose line it need not wait for, and which no store
of the context through the window is still to write, reads the bytes there, with the context's own posted stores laid over
them, and changes nothing else but what the caches hold; `lda` is an
acquire at its scope. -/
def Obligations.LoadResults : Prop :=
  ∀ (fn : BitVec 4) (o : ShM) (s t : State) (loc : Loc) (p : Nat), fn.toNat < 7 → Issues s → Readable s o.rs1.toNat →
    let va := effective s o.rs1 o.off
    let n := widthOf false fn.toNat
    let u := loadAsks false o.ch loc p t
    va.toNat % n = 0 → OrderFree s false → Lands s va.toNat n accRead loc t → loc.place? = some p →
    loadWaits false loc p t = false → u.gatewayPost s.cur p n = false → watchHits t s.cur true false va.toNat n = [] →
    let gives := delivers o.rd fn.toNat (finds loc p n t) (findsMark loc p n t)
    t.OnlyCaches u ∧ exec (.ld fn o) s = .next (landed s u gives) ∧
    exec (.lda fn o) s = .next (landed s u fun t => gives (acquireCtx s.cur o.scp.toNat t))

/-- What a scalar store of `n` bytes of a value at a place does, a rollback team's old bytes logged first (R174, R392). -/
def stores (p n : Nat) (v : Word) (t : State) : State :=
  (teamWrite t.cur p n t).store (t.sourceOf t.cur) p (leBytes n v.toNat)

/-- A scalar store of the current context at a place of this package can be made at once: no earlier posted store of the
context to these bytes is in flight (R173), and neither a tile nor the line's home holds it up (R190, R269, R273, R307). -/
def storeFree (loc : Loc) (p n : Nat) (t : State) : Prop :=
  loc.place? = some p ∧ (∀ q, loc ≠ .mem q 3) ∧ t.ownPost t.cur p n = false ∧ t.gatewayPost t.cur p n = false ∧
    t.writeWaits (.l1 (coreOfKey t.cur)) p = false ∧ NoWaiter t

/-- R121, R84: a guarded load or store whose guard enables it does what the plain one does, and one whose guard disables it
makes no access, translates nothing and goes on. -/
def Obligations.GuardedAccesses : Prop :=
  ∀ (fn : BitVec 6) (o : LgM) (s t : State) (loc : Loc) (p : Nat), Issues s → GuardReadable s o.g1 →
    (guardTrue s o.g1 = false → exec (.guardedLd fn o) s = .next (s.endsLong o.toLow id) ∧
      exec (.guardedSt fn o) s = .next (s.endsLong o.toLow id)) ∧
    (guardTrue s o.g1 = true → Readable s o.a.toNat →
      let va := effective s o.a o.off
      (let n := widthOf false fn.toNat
       let u := loadAsks false o.ch loc p t
       fn.toNat < 7 → va.toNat % n = 0 → OrderFree s false → Lands s va.toNat n accRead loc t → loc.place? = some p →
       loadWaits false loc p t = false → u.gatewayPost s.cur p n = false → watchHits t s.cur true false va.toNat n = [] →
       exec (.guardedLd fn o) s = .next (complete (s.pc + 12) (o.yld == 1) o.dly.toNat
         (delivers o.d fn.toNat (finds loc p n t) (findsMark loc p n t) u))) ∧
      (let n := widthOf true fn.toNat
       fn.toNat < 4 → Readable s o.b.toNat → va.toNat % n = 0 → OrderFree s true → Lands s va.toNat n accWrite loc t →
       storeFree loc p n t → watchHits t s.cur false true va.toNat n = [] →
       exec (.guardedSt fn o) s = .next (complete (s.pc + 12) (o.yld == 1) o.dly.toNat (stores p n (s.x o.b) t))))

/-- R172, R174, R176: an aligned `st` or `stl` to a place of this package writes the low bytes of xv there as one write of its
context; `stl` waits for its earlier accesses first. A rollback team's member logs the old bytes (R392). -/
def storeResults : Prop :=
  ∀ (fn : BitVec 4) (o : ShM) (s t : State) (loc : Loc) (p : Nat), fn.toNat < 4 → Issues s → Readable s o.rs1.toNat →
    Readable s o.rs2.toNat →
    let va := effective s o.rs1 o.off
    let n := widthOf true fn.toNat
    va.toNat % n = 0 → OrderFree s true → Lands s va.toNat n accWrite loc t → storeFree loc p n t →
    watchHits t s.cur false true va.toNat n = [] →
    let done := landed s t (stores p n (s.x o.rs2))
    exec (.st fn o) s = .next done ∧
    (Released t o.scp.toNat → exec (.stl fn o) s = .next done) ∧
    (¬ Released t o.scp.toNat → exec (.stl fn o) s = .next (park s.cur .again false t))

/-- The frame of `st` and `stl`, whose bytes lie where the address of R169 leads: every byte outside the bytes stored reads as
it did once the address had been translated, and so do the marks; the bytes stored read as written, without a mark; no
register, flag or other part of the context changes but its pc and the state that issue gives it; no other context changes,
unless it waits at an event unit, which a line-watch unit may fire (R285); of a core only the lines that it caches change, and
of a cluster only its cached lines, its undo log, and the lines and waiters of its event unit. -/
def storeFrame : Prop :=
  ∀ (fn : BitVec 4) (o : ShM) (s t : State) (loc : Loc) (p : Nat), fn.toNat < 4 → Issues s → Readable s o.rs1.toNat →
    Readable s o.rs2.toNat →
    let va := effective s o.rs1 o.off
    let n := widthOf true fn.toNat
    va.toNat % n = 0 → OrderFree s true → Lands s va.toNat n accWrite loc t → storeFree loc p n t →
    watchHits t s.cur false true va.toNat n = [] →
    ∃ u, exec (.st fn o) s = .next u ∧ (Released t o.scp.toNat → exec (.stl fn o) s = .next u) ∧
      (∀ q, q < p ∨ p + n ≤ q → u.byte q = t.byte q ∧ u.byteMark q = t.byteMark q) ∧
      (∀ i < n, u.byte (p + i) = BitVec.ofNat 8 ((s.x o.rs2).toNat / 2 ^ (8 * i)) ∧ u.byteMark (p + i) = 0) ∧
      (s.ctx s.cur).OnlyX (u.ctx s.cur) [] ∧ (u.ctx s.cur).sr = (s.ctx s.cur).sr ∧
      (∀ k, k ≠ s.cur → (∀ cl, ∀ w ∈ (t.cluster cl).waiters, w.key ≠ k) → u.ctx k = t.ctx k) ∧
      (∀ k, u.core k = { t.core k with l1 := (u.core k).l1, rc := (u.core k).rc }) ∧
      (∀ k, u.cluster k = { t.cluster k with
        pool := (u.cluster k).pool, undo := (u.cluster k).undo, ovf := (u.cluster k).ovf, lines := (u.cluster k).lines
        waiters := (u.cluster k).waiters }) ∧
      u.regs = t.regs ∧ u.posts = t.posts ∧ u.copies = t.copies

/-- R172, R174, R176: what `st` and `stl` write, and their frame. -/
def Obligations.StoreResults : Prop := storeResults ∧ storeFrame

/-- R179: an aligned `ldk` returns for its bytes the values that they held at some point not before the context's floor for
them (its last `kfence` and what it has read there before), one point for the whole access; which one is free (log entry 5). -/
def constantLoads : Prop :=
  ∀ (fn : BitVec 4) (o : ShM) (s t : State) (p mt : Nat), fn.toNat < 7 → Issues s → Readable s o.rs1.toNat →
    let va := effective s o.rs1 o.off
    let n := widthOf false fn.toNat
    va.toNat % n = 0 → OrderFree s false → Lands s va.toNat n accRead (.mem p mt) t →
    loadWaits true (.mem p mt) p t = false → (loadAsks true o.ch (.mem p mt) p t).gatewayPost s.cur p n = false →
    watchHits t s.cur true false va.toNat n = [] →
    ∃ (u : State) (k : Nat), exec (.ldk fn o) s = .next u ∧ (t.ctx s.cur).constFloor (placesFrom p n) ≤ k ∧
      (o.rd ≠ 0 → (u.ctx s.cur).xr o.rd.toNat =
        loaded fn.toNat ((placesFrom p n).map fun q => oldByte q k t.wlog (t.byte q))) ∧
      (u.ctx s.cur).pc = s.pc + 8 ∧ (∀ r, r ≠ o.rd.toNat → (u.ctx s.cur).xr r = (s.ctx s.cur).xr r) ∧
      (u.ctx s.cur).sr = (s.ctx s.cur).sr ∧ u.mem = t.mem

/-- R180: `ldp` of a window of size 0 raises ParamUnbound with the window's number, one of an offset that is no multiple of 8
Misaligned with SUB 3; beyond the window it reads 0 and sets SR.PW; within it, with the bytes' places found and no write to
them since the context's floor, it reads those bytes, 0 for those beyond the end, their lines through the die's L2 (R179). No
watchpoint matches the address that the window has in its aperture, at which the read is noted (log entry 33). -/
def parameterLoads : Prop :=
  ∀ (fn : BitVec 4) (o : ShM) (s : State), Issues s → Readable s o.rs1.toNat → OrderFree s false →
    let off := (s.x o.rs1 + o.off.signExtend 64).toNat
    let b := (s.launch (s.ctx s.cur).launch).params.getD fn.toNat (0, 0)
    let unwatched := fun (t : State) => off < 2 ^ 48 →
      watchHits t s.cur true false (2 ^ 55 + 5 * 2 ^ 52 + fn.toNat * 2 ^ 48 + off) 8 = []
    (b.2 = 0 → exec (.ldp fn o) s = .next (s.traps 9 0 (BitVec.ofNat 64 fn.toNat))) ∧
    (b.2 ≠ 0 → off % 8 ≠ 0 → exec (.ldp fn o) s = .next (s.traps 4 3 (BitVec.ofNat 64 off))) ∧
    (b.2 ≠ 0 → off % 8 = 0 → off ≥ b.2 → unwatched s → exec (.ldp fn o) s = .next (s.ends 8 false 0 fun c =>
      ({ c with sr := c.sr ||| 2#64 } : Ctx).setX o.rd.toNat 0)) ∧
    (∀ qs t v, b.2 ≠ 0 → off % 8 = 0 → off < b.2 →
      (paramPlaces (s.envOf s.cur) b.1 b.2 off 8).run (clearNotes s) = .ok qs t → s.Keeps t →
      (readLines (.l2 (dieOfCore (coreOfKey s.cur))) 0 ((qs.filter (·.2 != 3)).map fun q => q.1 / 128 * 128).eraseDups).run t =
        .ok () v →
      let ps := qs.map (·.1)
      touching ps ((t.ctx s.cur).constFloor ps) t.wlog = [] → unwatched v →
      ∃ u, exec (.ldp fn o) s = .next u ∧ (u.ctx s.cur).pc = s.pc + 8 ∧
        (o.rd ≠ 0 → (u.ctx s.cur).xr o.rd.toNat = BitVec.ofNat 64 (leNat (ps.map t.byte))) ∧
        (u.ctx s.cur).sr = (if off + 8 > b.2 then (s.ctx s.cur).sr ||| 2#64 else (s.ctx s.cur).sr) ∧ u.mem = t.mem)

/-- R179 and R180: loads through the constant path and of parameter windows. -/
def Obligations.ConstantAndParameterLoads : Prop := constantLoads ∧ parameterLoads

/-- R169: a scalar access of 2, 4 or 8 bytes at an address that is no multiple of its size raises Misaligned, with SUB = log₂
size and ETVAL the address, before anything else of it. That it does so at the event unit, where R204 gives Aperture with SUB 4,
and for a store at the parameter aperture, where R180 gives Aperture with SUB 5, is the model's choice of which fault comes first
(log entry 62). R180: a load of the parameter-window aperture raises it for its
offset in the window, which ETVAL names, where the window is bound. -/
def Obligations.MisalignedAccesses : Prop :=
  ∀ (o : ShM) (s : State), Issues s → Readable s o.rs1.toNat → Readable s o.rs2.toNat → Readable s o.rd.toNat →
    let va := effective s o.rs1 o.off
    let fails := fun (n k : Nat) (l : List Instr) => va.toNat % n ≠ 0 → ∀ i ∈ l, exec i s = .next (s.traps 4 k (va.setWidth 64))
    (paramAperture va.toNat = false → (∀ f ∈ [3, 4], fails 2 1 [.ld f o, .ldk f o, .lda f o]) ∧
      (∀ f ∈ [5, 6], fails 4 2 [.ld f o, .ldk f o, .lda f o]) ∧ fails 8 3 [.ld 0 o, .ldk 0 o, .lda 0 o]) ∧
    (paramAperture va.toNat = true → OrderFree s false →
      let b := (s.launch (s.ctx s.cur).launch).params.getD (va.toNat % 2 ^ 52 / 2 ^ 48) (0, 0)
      let off := va.toNat % 2 ^ 48
      ∀ i ∈ [Instr.ld 0 o, .ldk 0 o, .lda 0 o],
        (b.2 = 0 → exec i s = .next (s.traps 9 0 (BitVec.ofNat 64 (va.toNat % 2 ^ 52 / 2 ^ 48)))) ∧
        (b.2 ≠ 0 → off % 8 ≠ 0 → exec i s = .next (s.traps 4 3 (BitVec.ofNat 64 off)))) ∧
    fails 8 3 [.st 0 o, .stl 0 o, .sts 0 o, .amoAdd o, .amoSwap o, .amoFaddF64 o, .cas o, .ramoAdd o, .waitEq o, .waitNe o] ∧
    fails 2 1 [.st 2 o, .stl 2 o, .sts 2 o] ∧ fails 4 2 [.st 3 o, .stl 3 o, .sts 3 o, .amoAddI32 o, .amoFaddF32 o, .casI32 o]

/-- The new word of an integer atomic (R191): m the old word, v the operand, both of w bits. -/
def r191 (w fn : Nat) (m v : BitVec w) : BitVec w :=
  match fn with
  | 0 => m + v
  | 1 => m &&& v
  | 2 => m ||| v
  | 3 => m ^^^ v
  | 4 => if v.toInt < m.toInt then v else m
  | 5 => if m.toInt < v.toInt then v else m
  | 6 => if v.toNat < m.toNat then v else m
  | 7 => if m.toNat < v.toNat then v else m
  | _ => v

/-- What an atomic on `n` bytes does that writes `new` and hands `old` to xd: the word is written as one write, a mark of the old
word stays with the word and goes to xd, and the scope acquires (R174, R175, R191, R392). -/
def swaps (o : ShM) (p n : Nat) (w : Source) (old : Word) (new : Nat) (t : State) : State :=
  let mark := t.firstMark p n
  let u := (teamWrite t.cur p n t).store w p (leBytes n new)
  let u := if mark = 0 then u else { u with marks := (List.range n).foldl (fun m i => Tbl.set 0 m (p + i) mark) u.marks }
  (acquireCtx t.cur o.scp.toNat u).modCtx t.cur (·.setXMarked o.rd.toNat old mark)

/-- An aligned word of `n` bytes of this package lies at `p` once its address is translated, in the state `t`, and nothing stands
before an atomic on it: no earlier posted store of the context to it, and no access that its release awaits. -/
def AtomicAt (o : ShM) (n : Nat) (s t : State) (loc : Loc) (p : Nat) : Prop :=
  let va := effective s o.rs1 o.off
  Issues s ∧ Readable s o.rs1.toNat ∧ Readable s o.rs2.toNat ∧ va.toNat % n = 0 ∧ OrderFree s true ∧
    Lands s va.toNat n accAtomic loc t ∧ loc.place? = some p ∧ (∀ q, loc ≠ .mem q 3) ∧ t.ownPost s.cur p n = false ∧
    t.gatewayPost s.cur p n = false ∧ Released t o.scp.toNat ∧ NoWaiter t ∧ watchHits t s.cur true true va.toNat n = []

/-- The `amo` of 64 bits with the codes of R191. -/
def amoForms : List ((ShM → Instr) × Nat) :=
  [(.amoAdd, 0), (.amoAnd, 1), (.amoOr, 2), (.amoXor, 3), (.amoMin, 4), (.amoMax, 5), (.amoMinu, 6), (.amoMaxu, 7), (.amoSwap, 8)]

/-- The `amo` of 32 bits with the codes of R191. -/
def amo32Forms : List ((ShM → Instr) × Nat) :=
  [(.amoAddI32, 0), (.amoAndI32, 1), (.amoOrI32, 2), (.amoXorI32, 3), (.amoMinI32, 4), (.amoMaxI32, 5), (.amoMinuI32, 6),
   (.amoMaxuI32, 7), (.amoSwapI32, 8)]

/-- The `ramo` with the codes of R191. -/
def ramoForms : List ((ShM → Instr) × Nat) :=
  [(.ramoAdd, 0), (.ramoAnd, 1), (.ramoOr, 2), (.ramoXor, 3), (.ramoMin, 4), (.ramoMax, 5), (.ramoMinu, 6), (.ramoMaxu, 7),
   (.ramoSwap, 8)]

/-- The forms of `amo.fadd` with their width. -/
def faddForms : List ((ShM → Instr) × Nat) := [(.amoFaddF64, 64), (.amoFaddF32, 32)]

/-- The forms of `cas` with their width. -/
def casForms : List ((ShM → Instr) × Nat) := [(.cas, 64), (.casI32, 32)]

/-- Every atomic but `ramo`, with the bytes of its word. -/
def plainAtomics : List ((ShM → Instr) × Nat) :=
  amoForms.map (fun q => (q.1, 8)) ++ amo32Forms.map (fun q => (q.1, 4)) ++ (faddForms ++ casForms).map fun q => (q.1, q.2 / 8)

/-- R191 to R193: an aligned `amo`, `cas` or `ramo` on a word of this package reads and writes it as one access: the new word
of R191 is stored, xd receives the old one, sign-extended for the 32-bit integer forms, and a scope makes it a release and an
acquire. A `ramo` runs at the home slice, which recalls the line from every cache (R192, R281). A float atomic rounds to nearest
even and sets no flag; in a deterministic launch it records the context that touches the word first. A mark of the old word
stays and goes to xd (DEDUCED, log entry 16). -/
def Obligations.AtomicResults : Prop :=
  ∀ (o : ShM) (s t : State) (loc : Loc) (p : Nat) (w : Nat), w = 32 ∨ w = 64 → AtomicAt o (w / 8) s t loc p →
    let n := w / 8
    let m := BitVec.ofNat w (leNat (t.bytes p n))
    let v := BitVec.ofNat w (s.x o.rs2).toNat
    let does := fun (i : Instr) (t : State) (k : Source) (old : Word) (new : BitVec w) =>
      exec i s = .next (landed s t (swaps o p n k old new.toNat))
    let here := t.sourceOf s.cur
    (∀ q ∈ ramoForms, w = 64 → t.writeWaits .home p = false →
      does (q.1 o) t { here with via := .home } (m.setWidth 64) (r191 w q.2 m v)) ∧
    (t.writeWaits (.l1 (coreOfKey s.cur)) p = false →
      (∀ q ∈ amoForms, w = 64 → does (q.1 o) t here (m.setWidth 64) (r191 w q.2 m v)) ∧
      (∀ q ∈ amo32Forms, w = 32 → does (q.1 o) t here (m.signExtend 64) (r191 w q.2 m v)) ∧
      (∀ q ∈ casForms, w = q.2 → Readable s o.rd.toNat →
        does (q.1 o) t here (if w = 32 then m.signExtend 64 else m.setWidth 64)
          (if m = BitVec.ofNat w (s.x o.rd).toNat then v else m)) ∧
      (∀ q ∈ faddForms, w = q.2 →
        let c := s.ctx s.cur
        let f := if w = 64 then f64 else f32
        let first := Tbl.get 0 (t.launch c.launch).detWords (p / 8)
        let u := if c.det then t.modLaunch c.launch fun l => { l with detWords := Tbl.set 0 l.detWords (p / 8) (c.pslot + 1) } else t
        c.det = false ∨ first = 0 ∨ first = c.pslot + 1 →
          does (q.1 o) u here (m.setWidth 64) (BitVec.ofNat w (fAdd f 0 false m.toNat v.toNat).1)))

/-- R193: in a deterministic launch a float atomic on a word that another context touched first with one raises DetViolation
with ETVAL the address, and memory stays. -/
def floatAtomicOrder : Prop :=
  ∀ q ∈ faddForms, ∀ (o : ShM) (s t : State) (loc : Loc) (p : Nat), AtomicAt o (q.2 / 8) s t loc p →
    let first := Tbl.get 0 (t.launch (s.ctx s.cur).launch).detWords (p / 8)
    t.writeWaits (.l1 (coreOfKey s.cur)) p = false → (s.ctx s.cur).det = true → first ≠ 0 → first ≠ (s.ctx s.cur).pslot + 1 →
    exec (q.1 o) s = .next (t.traps 14 0 ((effective s o.rs1 o.off).setWidth 64))

/-- R192: the atomics that an address refuses: an `amo` or `cas` on a window address raises Aperture; any atomic at the event unit
or in the parameter aperture Aperture too, with the number of the aperture, 9 for a peer's (R42, R180, R204); and any atomic on
memory type 3 or on the device registers PagePermission with SUB 4. -/
def atomicFaults : Prop :=
  (∀ q ∈ plainAtomics ++ ramoForms.map (fun q => (q.1, 8)), ∀ (o : ShM) (s t : State) (loc : Loc), Issues s →
    Readable s o.rs1.toNat → Readable s o.rs2.toNat → Readable s o.rd.toNat →
    let va := effective s o.rs1 o.off
    va.toNat % q.2 = 0 → OrderFree s true → Lands s va.toNat q.2 accAtomic loc t →
    ((∃ cl off peer, loc = .event cl off peer) ∨ (∃ k off, loc = .param k off) →
      exec (q.1 o) s = .next (t.traps 10 (if va.toNat / 2 ^ 55 % 4 = 2 then 9 else va.toNat / 2 ^ 52 % 8) (va.setWidth 64))) ∧
    ((∃ p, loc = .mem p 3) ∨ (∃ off, loc = .regs off) → exec (q.1 o) s = .next (t.traps 6 4 (va.setWidth 64)))) ∧
  ∀ q ∈ plainAtomics, ∀ (o : ShM) (s t : State) (a : Nat), Issues s →
    Readable s o.rs1.toNat → Readable s o.rs2.toNat → Readable s o.rd.toNat →
    let va := effective s o.rs1 o.off
    va.toNat % q.2 = 0 → OrderFree s true → Lands s va.toNat q.2 accAtomic (.window a) t →
    exec (q.1 o) s = .next (t.traps 10 10 (BitVec.ofNat 64 a))

/-- R192 and R193: the atomics that an address or a deterministic launch refuses. -/
def Obligations.AtomicFaults : Prop := floatAtomicOrder ∧ atomicFaults

/-- R195, R196: an aligned `sts` to a package address is posted: it enters the list of posted stores on its stream towards the
home die with its bytes and place, memory stays as it is until it commits, and the context goes on; an earlier one of the
context to the same line on another stream makes it wait, as does one through the window to the same bytes (R173). -/
def Obligations.PostedStores : Prop :=
  ∀ (fn : BitVec 4) (o : ShM) (s t : State) (p mt d : Nat), fn.toNat < 4 → Issues s → Readable s o.rs1.toNat →
    Readable s o.rs2.toNat →
    let va := effective s o.rs1 o.off
    let n := widthOf true fn.toNat
    let dest := 2048 + d
    va.toNat % n = 0 → OrderFree s true → Lands s va.toNat n accWrite (.mem p mt) t → mt ≠ 3 → homeDie p = some d →
    t.streamFull (coreOfKey s.cur) o.str.toNat dest = false → watchHits t s.cur false true va.toNat n = [] →
    (t.otherStream s.cur o.str.toNat dest va.toNat p = true → exec (.sts fn o) s = .next (park s.cur .again false t)) ∧
    (t.otherStream s.cur o.str.toNat dest va.toNat p = false → t.gatewayPost s.cur p n = false → ∃ (u : State) (q : Post), exec (.sts fn o) s = .next u ∧
      u.posts = t.posts ++ [q] ∧ q.key = s.cur ∧ q.dest = dest ∧
      q.stream = o.str.toNat ∧ q.place = p ∧ q.bytes = leBytes n (s.x o.rs2).toNat ∧ q.marker = none ∧ q.copy = none ∧
      (u.ctx s.cur).pc = s.pc + 8 ∧ (∀ r, (u.ctx s.cur).xr r = (s.ctx s.cur).xr r) ∧ u.mem = t.mem)

/-- R177: `fence` waits as a release at its scope and then is an acquire at it. -/
def fences : Prop :=
  ∀ (o : ShM) (s : State), Issues s →
    (Released s o.scp.toNat → exec (.fence o) s = .next (s.finishes 8 fun s => acquireCtx s.cur o.scp.toNat s)) ∧
    (¬ Released s o.scp.toNat → exec (.fence o) s = .next (park s.cur .again false s))

/-- R213: `cinv` and `cwb` of an address that no cache holds go on. On memory they name the caches of their scope: the own L1;
from `.cl` on those of the cluster and its victim cache; at `.die` the die's L2 too; above, all of the package. Where none of
them holds the line (dirty, for `cwb`) nothing happens; a line that a tile holds or a request is busy with makes them wait,
their own request in the home's queue where that has room (R347). On the window `cinv` drops what `.rc` loads have kept of the
line in the L1s of its scope (R172).
Else no byte of memory changes: `cinv` leaves the line in none of these caches, `cwb` keeps a dirty die's copy clean. -/
def maintenance : Prop :=
  ∀ (o : ShM) (s t : State) (p mt : Nat), Issues s → Readable s o.rs1.toNat →
    let va := (effective s o.rs1 o.off).toNat
    let core := coreOfKey s.cur
    let scope := o.scp.toNat
    let cores := if scope ≤ 1 then [core] else if scope ≤ 3 then (List.range 8).map (core / 8 * 8 + ·) else t.cores.map (·.1)
    let pools := if scope ≤ 1 then [] else if scope ≤ 3 then [core / 8] else t.clusters.map (·.1)
    let dies := if scope ≤ 2 then [] else if scope = 3 then [core / 512] else [0, 1, 2, 3]
    let line := p / 128 * 128
    let busy := t.tileHolds line || !(t.accepts .home line && t.homeOpen [] line false)
    let holds := fun (st sd : Nat) => (∃ k ∈ cores, st ≤ t.l1 k line) ∨ (∃ c ∈ pools, st ≤ (t.poolOf c line).st) ∨
      ∃ d ∈ dies, sd ≤ t.dieLine d line
    (va / 2 ^ 55 % 4 = 2 → exec (.cinv o) s = .next (s.finishes 8 id) ∧ exec (.cwb o) s = .next (s.finishes 8 id)) ∧
    (va / 2 ^ 55 % 4 = 3 → exec (.cinv o) s = .next (s.finishes 8 fun s => (if scope ≤ 3 then cores else s.cores.map (·.1)).foldl
      (fun s k => dropRc k va s) s) ∧ exec (.cwb o) s = .next (s.finishes 8 id)) ∧
    (va / 2 ^ 55 % 4 = 0 → Lands s va 1 accRead (.mem p mt) t →
      (¬ holds 1 1 → exec (.cinv o) s = .next (landed s t id)) ∧ (¬ holds 4 3 → exec (.cwb o) s = .next (landed s t id)) ∧
      (holds 1 1 → busy = true → exec (.cinv o) s = .next (park s.cur .again false (noteMiss .home false line t))) ∧
      (holds 4 3 → busy = true → exec (.cwb o) s = .next (park s.cur .again false (noteMiss .home false line t))) ∧
      (holds 1 1 → busy = false → ∃ u, exec (.cinv o) s = .next u ∧ u.mem = t.mem ∧ (u.ctx s.cur).pc = s.pc + 8 ∧
        (∀ k ∈ cores, u.l1 k line = 0) ∧ (∀ c ∈ pools, (u.poolOf c line).st = 0) ∧ ∀ d ∈ dies, u.dieLine d line = 0) ∧
      (holds 4 3 → busy = false → ∃ u, exec (.cwb o) s = .next u ∧ u.mem = t.mem ∧ (u.ctx s.cur).pc = s.pc + 8 ∧
        ∀ d ∈ dies, d < 4 → u.dieLine d line =
          if t.dieLine d line = 4 then 2 else if t.dieLine d line = 3 then 1 else t.dieLine d line))

/-- R177 and R213: fences and the maintenance of caches. -/
def Obligations.FencesAndMaintenance : Prop := fences ∧ maintenance

/-- The place of the table entry at which the walk of R367 from a table with `n` levels left ends: that of the first entry that
is no pointer. -/
def leafPlace (s : State) (va : Nat) : Nat → Nat → Nat
  | 0, a => a
  | n + 1, a =>
    let p := a + 8 * (va / 2 ^ (12 + 9 * n) % 512)
    let w := BitVec.ofNat 64 (leNat (s.bytes p 8))
    if w.getLsbD 1 then leafPlace s va n (field w 12 40 * 4096) else p

/-- Translate of R367 grants only what a leaf grants: that of the translation-cache entry which the access hits, where nothing
changes, and else that at which the walk from the deepest walk-cache hit ends. The leaf has the right that the kind needs, at
privilege 0 it has no supervisor bit, and after a write or atomic it has D set; the address and the type are the leaf's. The only
bytes of memory that a walk changes are bits 6 and 7 (A and D) of that leaf. -/
def Obligations.TranslationChecks : Prop :=
  ∀ (e : Env) (va kind pa mt : Nat) (s t : State), kind ∈ [accRead, accWrite, accExec, accAtomic] →
    (translate e va kind).run s = .ok (pa, mt) t →
    ∃ g : TlbEnt,
      (match s.tlbFind e va kind with
        | some h => g = h ∧ t = s
        | none => (walk e va kind (s.walkStart e va).1 (s.walkStart e va).2).run s = .ok g t ∧
            let p := leafPlace s va (s.walkStart e va).1 (s.walkStart e va).2
            g.leaf ||| 0xC0#64 = BitVec.ofNat 64 (leNat (s.bytes p 8)) ||| 0xC0#64 ∧ g.va = va / 2 ^ g.size * 2 ^ g.size ∧
              g.size ∈ [12, 16, 21] ∧ g.asid = e.asid ∧ (∀ q, q ≠ p → t.byte q = s.byte q) ∧
              t.byte p ||| 0xC0#8 = s.byte p ||| 0xC0#8) ∧
      mt = field g.leaf 9 3 ∧ pa = leafAddr g.leaf g.size va ∧
      (kind = accRead → g.leaf.getLsbD 2 = true) ∧ (kind = accWrite → g.leaf.getLsbD 3 = true) ∧
      (kind = accExec → g.leaf.getLsbD 4 = true) ∧ (kind = accAtomic → g.leaf.getLsbD 2 = true ∧ g.leaf.getLsbD 3 = true) ∧
      (g.leaf.getLsbD 5 = true → e.priv ≠ 0) ∧ (kind = accWrite ∨ kind = accAtomic → g.leaf.getLsbD 7 = true) ∧
      t.launches = s.launches ∧ t.queues = s.queues ∧ t.posts = s.posts ∧ t.copies = s.copies ∧ t.regs = s.regs ∧
      ∀ k, (∀ cl, ∀ w ∈ (s.cluster cl).waiters, w.key ≠ k) → t.ctx k = s.ctx k

/-! ### Synchronisation -/

/-- R203: an aligned `wait.eq` or `wait.ne` of a word of this package, which it reads as a load does, goes on where its test
holds, as an acquire at its scope; where it fails, its context sleeps on the word, until a write is made after this test
(R341). -/
def Obligations.WaitOnWord : Prop :=
  ∀ (o : ShM) (s t : State) (loc : Loc) (p : Nat), Issues s → Readable s o.rs1.toNat → Readable s o.rs2.toNat →
    let va := effective s o.rs1 o.off
    va.toNat % 8 = 0 → OrderFree s false → Lands s va.toNat 8 accRead loc t → loc.place? = some p →
    let u := loadAsks false 0 loc p t
    loadWaits false loc p t = false → u.gatewayPost s.cur p 8 = false → watchHits t s.cur true false va.toNat 8 = [] →
    let v := s.x o.rs2
    let w : Word := BitVec.ofNat 64 (leNat (finds loc p 8 t))
    let sleeps := fun (ne : Bool) => Host.Outcome.next (park s.cur (.word va v ne o.scp.toNat) true
      (u.modCtx s.cur fun c => { c with tested := u.wlog.length }))
    let done := Host.Outcome.next (landed s u (acquireCtx s.cur o.scp.toNat))
    (w = v → exec (.waitEq o) s = done) ∧ (w ≠ v → exec (.waitNe o) s = done) ∧
    (w ≠ v → exec (.waitEq o) s = sleeps false) ∧ (w = v → exec (.waitNe o) s = sleeps true)

/-- R205 and R209: `evw` of a set line consumes it, delivers its payload and is an acquire at `.pk`; of a line that is not set
it waits in order. `evs` is a release at `.pk` and fires the line with payload 0: the oldest waiter receives it, else the line
is set. -/
def eventLines : Prop :=
  ∀ (o : Sh) (s : State), Issues s →
    let cl := clusterOfCore (coreOfKey s.cur)
    let n := o.imm.toNat % 64
    let l : EvLine := Tbl.get {} (s.cluster cl).lines n
    (l.set = true → exec (.evw o) s = .next (s.finishes 8 fun s =>
      (acquireCtx s.cur 4 (s.modCluster cl fun c => { c with lines := Tbl.set {} c.lines n { l with set := false } })).modCtx s.cur
        (·.setX o.rd.toNat l.payload))) ∧
    (l.set = false → ∃ t, exec (.evw o) s = .next t ∧ (t.ctx s.cur).st = (if (s.ctx s.cur).st = .gated then .gated else .sleeping) ∧
      (t.cluster cl).waiters.map (fun w => (w.key, w.obj, w.rd)) =
        (s.cluster cl).waiters.map (fun w => (w.key, w.obj, w.rd)) ++ [(s.cur, n, o.rd)]) ∧
    (¬ Released s 4 → exec (.evs o) s = .next (park s.cur .again false s)) ∧
    (Released s 4 → NoWaiter s →
      exec (.evs o) s = .next (s.finishes 8 fun s => fireLine cl n 0 (uncover s.cur s))) ∧
    (∀ (u : State) (v : Word), waitersAt cl n u = [] →
      Tbl.get {} ((fireLine cl n v u).cluster cl).lines n = { set := true, payload := v }) ∧
    (∀ (u : State) (v : Word) (w : Waiter) (ws : List Waiter), waitersAt cl n u = w :: ws → w.gate = false → w.rd ≠ 0 →
      ((fireLine cl n v u).ctx w.key).xr w.rd.toNat = v ∧
      Tbl.get {} ((fireLine cl n v u).cluster cl).lines n = Tbl.get {} (u.cluster cl).lines n)

/-- R204 to R206, by `ld` and `st` at the event unit: a line is loaded and fired as by `evw` and `evs`; an arrival, which is a
release at `.cl`, that completes a counter's round returns the new round number; a counter reads round, arrivals and expected
arrivals, and a store sets the expected number (1 to 88); a free mutex is taken by a load, which returns 1, and freed by its
holder's store. A store of another, or to a counter's arrive offset, is an Aperture fault. An access to a cluster of another die
wakes the link to it (R400). -/
def eventUnitAccesses : Prop :=
  ∀ (o : ShM) (s t : State) (cl off : Nat) (peer : Bool), Issues s → Readable s o.rs1.toNat → Readable s o.rs2.toNat →
    NoWaiter s →
    let va := effective s o.rs1 o.off
    let k := s.cluster cl
    let far := [dieOfCluster cl]
    let die := dieOfCore (coreOfKey s.cur)
    let v := if peer then useLinks die far t else t
    let fails := fun (i : Instr) => exec i s = .next (v.traps 10 (if va.toNat / 2 ^ 55 % 4 = 2 then 9 else 4) (va.setWidth 64))
    (peer = true → t.linksOpen die far = true) →
    let loads := Lands s va.toNat 8 accRead (.event cl off peer) t ∧ va.toNat % 8 = 0 ∧ OrderFree s false ∧
      watchHits t s.cur true false va.toNat 8 = []
    let stores := Lands s va.toNat 8 accWrite (.event cl off peer) t ∧ va.toNat % 8 = 0 ∧ OrderFree s true ∧
      watchHits t s.cur false true va.toNat 8 = []
    (∀ n < 64, off = 8 * n → loads → (Tbl.get {} k.lines n).set = true → o.rd ≠ 0 →
      ∃ u, exec (.ld 0 o) s = .next u ∧ (u.ctx s.cur).xr o.rd.toNat = (Tbl.get {} k.lines n).payload ∧
        (Tbl.get {} (u.cluster cl).lines n).set = false) ∧
    (∀ n < 64, off = 8 * n → stores → Released s 4 → waitersAt cl n s = [] →
      ∃ u, exec (.st 0 o) s = .next u ∧ Tbl.get {} (u.cluster cl).lines n = { set := true, payload := s.x o.rs2 }) ∧
    (∀ b < 16, off = 0x200 + 8 * b → loads → let q := Tbl.get {} k.counters b
      (q.expect = 0 → fails (.ld 0 o)) ∧
      (q.expect ≠ 0 → ¬ Released s 2 → exec (.ld 0 o) s = .next (park s.cur .again false v)) ∧
      (q.expect ≠ 0 → Released s 2 → q.arrived + 1 ≥ q.expect → o.rd ≠ 0 →
        ∃ u, exec (.ld 0 o) s = .next u ∧ (u.ctx s.cur).xr o.rd.toNat = (q.round + 1).setWidth 64 ∧
          Tbl.get {} (u.cluster cl).counters b = { q with round := q.round + 1, arrived := 0 })) ∧
    (∀ b < 16, off = 0x200 + 8 * b → stores → fails (.st 0 o)) ∧
    (∀ b < 16, off = 0x280 + 8 * b → let q := Tbl.get {} k.counters b
      (loads → o.rd ≠ 0 → ∃ u, exec (.ld 0 o) s = .next u ∧ (u.ctx s.cur).xr o.rd.toNat =
        BitVec.ofNat 64 (q.round.toNat * 2 ^ 32 + q.arrived % 256 * 256 + q.expect % 256)) ∧
      (stores → let e := field (s.x o.rs2) 0 8
        (1 ≤ e ∧ e ≤ 88 → ∃ u, exec (.st 0 o) s = .next u ∧
          Tbl.get {} (u.cluster cl).counters b = { q with expect := e, arrived := 0 }) ∧
        (e = 0 ∨ e > 88 → fails (.st 0 o)))) ∧
    (∀ m < 16, off = 0x300 + 8 * m → let h := Tbl.get 0 k.mutexes m
      (loads → h = 0 → o.rd ≠ 0 → ∃ u, exec (.ld 0 o) s = .next u ∧ (u.ctx s.cur).xr o.rd.toNat = 1 ∧
        Tbl.get 0 (u.cluster cl).mutexes m = s.cur + 1) ∧
      (stores → h ≠ s.cur + 1 → fails (.st 0 o)) ∧
      (stores → h = s.cur + 1 → Released s 2 → waitersAt cl (objMutex m) s = [] →
        ∃ u, exec (.st 0 o) s = .next u ∧ Tbl.get 0 (u.cluster cl).mutexes m = 0))

/-- R204 to R206 and R209: the event unit by `evw` and `evs` and by load and store. -/
def Obligations.EventUnit : Prop := eventLines ∧ eventUnitAccesses

/-- R210, R211: in a group of its core a `bara` adds an arrival of its role and goes on unless the role is a phase ahead; a `barw`
goes on once the phase of the role's latest arrival has completed, which is when every role has arrived as often, and it keeps
that phase where it is run again (R413); `bar` is both, and its arrival is made once; `bard` records an arrival that the
hardware makes later. Each is a renegotiation point (R18, R315). That a `bara` which waits leaves its context Sleeping, as a `bar`
does, is the model's choice (log entry 63). -/
def Obligations.GroupBarriers : Prop :=
  ∀ (o : Sh) (s : State) (gr : Group) (r : Nat), Issues s → VectorsRetired s → (s.ctx s.cur).spillDue = false →
    let c := s.ctx s.cur
    let l := c.launch
    let g := o.imm.toNat % 256
    (s.launch l).group g = some gr → c.grp.contains g = true → s.roleOf s.cur gr = some r → gr.rb = false →
    let a := s.arrivals l gr.g r
    let n := s.phases l gr
    let arrived := fun (s : State) => addArrival l gr.g r s
    (a ≤ n → Released s 4 → exec (.bara o) s = .next (s.finishes 8 fun s => renegotiate s.cur (arrived s))) ∧
    (∀ u : State, (arrived u).arrivals l gr.g r = u.arrivals l gr.g r + 1) ∧
    (n < a → exec (.bara o) s = .next (park s.cur .again true s)) ∧
    (∀ k, ((c.barw.find? fun b => b.1 == c.priv && b.2.1 == c.pc && b.2.2.1 == gr.g) = none ∧ k = a ∨
        (c.barw.find? fun b => b.1 == c.priv && b.2.1 == c.pc && b.2.2.1 == gr.g) = some (c.priv, c.pc, gr.g, k)) →
      let noted := fun (c : Ctx) => { c with barw := (c.priv, c.pc, gr.g, k) :: c.barw.filter fun b => b.1 != c.priv }
      (k ≤ n → exec (.barw o) s = .next (s.finishes 8 fun s =>
        renegotiate s.cur (acquireCtx s.cur 4 (s.modCtx s.cur noted)))) ∧
      (n < k → exec (.barw o) s = .next (park s.cur .again true (s.modCtx s.cur noted)))) ∧
    (c.barred = none → n < a → exec (.bar o) s = .next (park s.cur .again true s)) ∧
    let waits := fun (b : Option (Nat × Nat)) (s : State) => s.modCtx s.cur fun c => { c with barred := b }
    let returns := fun (s : State) => renegotiate s.cur (acquireCtx s.cur 4 (waits none s))
    (c.barred = none → a ≤ n → Released s 4 →
      let u := arrived (waits (some (gr.g, a + 1)) (clearNotes s))
      (a + 1 ≤ u.phases l gr → exec (.bar o) s = .next (complete (s.pc + 8) false 0 (returns u))) ∧
      (u.phases l gr < a + 1 → exec (.bar o) s = .next (park s.cur .again true u))) ∧
    (∀ b k, c.barred = some (b, k) → (k ≤ n → exec (.bar o) s = .next (s.finishes 8 returns)) ∧
      (n < k → exec (.bar o) s = .next (park s.cur .again true s))) ∧
    let mine := fun (u : State) => (u.copies.filter (·.key == some u.cur)).map (·.id)
    (∃ id, exec (.bard o) s = .next (s.finishes 8 fun s =>
      let u := { s with fresh := s.fresh + 1 }
      let b : Bard := { id := id, launch := l, group := gr.g, role := r, key := u.cur, copies := mine u }
      renegotiate u.cur { arrived u with bards := u.bards ++ [b] }))

/-- R252 to R254: `role`, `gsize` and `grank` read the launch's groups, with all ones for a role or a context that is none;
`recv` delivers the oldest message, as an acquire at `.pk`, or sleeps, and its room is given to the oldest parked message
(R318); `send` puts its value at the end of the mailbox of the role's context, and sleeps where that is full. -/
def Obligations.RolesAndMessages : Prop :=
  ∀ (o : Sh) (s : State), Issues s →
    let c := s.ctx s.cur
    let l := s.launch c.launch
    let g := o.imm.toNat % 256
    let reads := fun (i : Instr) (v : Word) => exec i s = .next (s.ends 8 false 0 (·.setX o.rd.toNat v))
    (∀ gr, l.group g = some gr →
      reads (.gsize o) (BitVec.ofNat 64 gr.members.length) ∧
      reads (.grank o) (match s.roleOf s.cur gr with | some r => BitVec.ofNat 64 r | none => BitVec.allOnes 64) ∧
      (Readable s o.rs1.toNat → let r := (s.x o.rs1).toNat
        reads (.role o) (if r < gr.members.length then
          match l.place gr.g r with | some k => BitVec.ofNat 64 (k / 16) | none => BitVec.allOnes 64 else BitVec.allOnes 64)) ∧
      (Readable s o.rs1.toNat → Readable s o.rs2.toNat → (s.x o.rs2).toNat < gr.members.length → Released s 4 →
        ∀ place, l.place gr.g (s.x o.rs2).toNat = some place →
          let key := s.mailTarget place (o.imm.toNat / 256 % 16)
          let t := s.ctx key
          t.st ≠ .absent → t.st ≠ .migrating → s.parkedFor key = false →
          (t.mail.length < 8 → exec (.send o) s = .next (s.finishes 8 fun s =>
            uncover s.cur (s.modCtx key fun t => { t with mail := t.mail ++ [s.x o.rs1] }))) ∧
          (t.mail.length ≥ 8 → exec (.send o) s = .next (park s.cur .again true s)))) ∧
    (l.group g = none → ∀ i ∈ [Instr.gsize o, .grank o],
      exec i s = .next (s.traps 2 0 (s.iw.setWidth 64))) ∧
    (c.mail = [] → exec (.recv o) s = .next (park s.cur .again true s)) ∧
    (∀ v rest, c.mail = v :: rest →
      let parked := fun (u : State) => ((u.die (dieOfCore (coreOfKey s.cur))).parked.filter (·.key == s.cur)).map (·.v)
      ∃ t, exec (.recv o) s = .next t ∧ (s.ctx s.cur).OnlyX { t.ctx s.cur with mail := c.mail, acq := c.acq } [o.rd.toNat] ∧
        (t.ctx s.cur).xr o.rd.toNat = (if o.rd = 0 then 0 else v) ∧ (t.ctx s.cur).pc = s.pc + 8 ∧
        (t.ctx s.cur).mail = rest ++ (parked s).take (8 - rest.length) ∧ parked t = (parked s).drop (8 - rest.length) ∧
        (t.ctx s.cur).acq = s.wlog.length ∧ t.mem = s.mem)

/-- R200, R201: `sfence` waits for the context's posted stores on its streams within its scope, and for its dispatched
instructions that store on one of them; with none left it returns 0, and with stores to lost devices bit 63 and the lowest of
them. `mark` puts a marker on each of the sixteen streams towards the device of a window address. -/
def Obligations.StreamFences : Prop :=
  ∀ (o : Sh) (s : State), Issues s →
    let mine := s.posts.filter fun p => p.key == s.cur && o.streams.getLsbD p.stream && p.copy.isNone && p.marker.isNone &&
      p.dest != hostDest && destWithin s o.scope24.toNat p
    let flying := (s.ctx s.cur).pend.any fun p => p.op.stream.any fun n => o.streams.getLsbD n
    (flying = true ∨ (∃ p ∈ mine, p.st ≠ .lost) → exec (.sfence o) s = .next (park s.cur .again false s)) ∧
    (flying = false → mine = [] → ∃ t, exec (.sfence o) s = .next t ∧
      t.ctx s.cur = (s.ends 8 false 0 (·.setX o.rd.toNat 0)).ctx s.cur ∧ t.mem = s.mem) ∧
    (flying = false → mine ≠ [] → (∀ p ∈ mine, p.st = .lost ∧ p.dest < 4096) →
      peerLost s.cur (mine.foldl (fun d p => min d p.dest) 4096) s = none → o.rd ≠ 0 → ∃ t, exec (.sfence o) s = .next t ∧
        (t.ctx s.cur).xr o.rd.toNat = BitVec.ofNat 64 (2 ^ 63 + mine.foldl (fun d p => min d p.dest) 4096) ∧
        ∀ p ∈ mine, ∀ q ∈ t.posts, q.id ≠ p.id) ∧
    (Readable s o.rs1.toNat → let va := (s.x o.rs1).toNat % 2 ^ 57
      let dev := windowDev va
      va / 2 ^ 55 % 4 = 3 → s.unreachable dev = false → ((s.ctx s.cur).pend.any fun p => p.op.stream.isSome) = false →
      (∀ t < 16, (s.stream (coreOfKey s.cur) t dev).unacked < 64 ∧ s.markPending (coreOfKey s.cur) t dev = false) →
      ∃ (t : State) (ps : List Post) (m : Nat), exec (.mark o) s = .next t ∧ t.posts = s.posts ++ ps ∧
        ps.map (·.stream) = List.range 16 ∧ (∀ p ∈ ps, p.marker = some m ∧ p.dest = dev ∧ p.key = s.cur) ∧
        (t.ctx s.cur).pc = s.pc + 8 ∧ t.mem = s.mem)

/-! ### Vector and matrix instructions -/

/-- The vector instructions of the long form that name registers only, with what each dispatches (R149 to R161). -/
noncomputable def vectorForms : List ((Lg → Instr) × (Lg → VOp)) :=
  [(Instr.vaddInt, VOp.int 0), (Instr.vsubInt, VOp.int 1), (Instr.vmulInt, VOp.int 2), (Instr.vmulh, VOp.int 3),
   (Instr.vmulhu, VOp.int 4), (Instr.vminInt, VOp.int 5), (Instr.vminu, VOp.int 6), (Instr.vmaxInt, VOp.int 7),
   (Instr.vmaxu, VOp.int 8), (Instr.vand, VOp.int 9), (Instr.vor, VOp.int 10), (Instr.vxor, VOp.int 11),
   (Instr.vshl, VOp.int 12), (Instr.vshr, VOp.int 13), (Instr.vsra, VOp.int 14), (Instr.vabsInt, VOp.int 15),
   (Instr.vnegInt, VOp.int 16), (Instr.vaddSat, VOp.int 17), (Instr.vsubSat, VOp.int 18), (Instr.vadduSat, VOp.int 19),
   (Instr.vsubuSat, VOp.int 20), (Instr.vpop, VOp.int 21), (Instr.vclz, VOp.int 22)] ++
  [(Instr.vaddF, VOp.float 0), (Instr.vsubF, VOp.float 1), (Instr.vmulF, VOp.float 2), (Instr.vdiv, VOp.float 3),
   (Instr.vsqrt, VOp.float 4), (Instr.vminF, VOp.float 5), (Instr.vmaxF, VOp.float 6), (Instr.vabsF, VOp.float 7),
   (Instr.vnegF, VOp.float 8), (Instr.vfma, VOp.float 9), (Instr.vfms, VOp.float 10), (Instr.vfnma, VOp.float 11),
   (Instr.vrcp, VOp.float 12), (Instr.vrsqrt, VOp.float 13), (Instr.vex2, VOp.float 14), (Instr.vlg2, VOp.float 15),
   (Instr.vcopysign, VOp.float 16)] ++
  [(Instr.vcmpEq, VOp.cmp 0), (Instr.vcmpNe, VOp.cmp 1), (Instr.vcmpLt, VOp.cmp 2), (Instr.vcmpLe, VOp.cmp 3),
   (Instr.vcmpGt, VOp.cmp 4), (Instr.vcmpGe, VOp.cmp 5), (Instr.vcmpLtu, VOp.cmp 6), (Instr.vcmpLeu, VOp.cmp 7),
   (Instr.vcmpGtu, VOp.cmp 8), (Instr.vcmpGeu, VOp.cmp 9), (Instr.vsel, VOp.misc 0), (Instr.vmkl, VOp.misc 1),
   (Instr.vbcast, VOp.misc 2), (Instr.vmov, VOp.misc 3), (Instr.vget, VOp.misc 4), (Instr.vput, VOp.misc 5),
   (Instr.vmpop, VOp.misc 6), (Instr.vperm, VOp.perm 0), (Instr.vrot, VOp.perm 1), (Instr.vcompress, VOp.perm 2),
   (Instr.vexpand, VOp.perm 3)] ++
  [(Instr.vcvtF32I32, VOp.cvt 0), (Instr.vcvtF32N32, VOp.cvt 1), (Instr.vcvtI32F32, VOp.cvt 2),
   (Instr.vcvtN32F32, VOp.cvt 3), (Instr.vcvtF16F32, VOp.cvt 4), (Instr.vcvtBf16F32, VOp.cvt 5),
   (Instr.vcvtF32F16, VOp.cvt 6), (Instr.vcvtF32Bf16, VOp.cvt 7), (Instr.vcvtE4m3F32, VOp.cvt 8),
   (Instr.vcvtF32E4m3, VOp.cvt 9), (Instr.vcvtF64F32, VOp.cvt 10), (Instr.vcvtF32F64, VOp.cvt 11),
   (Instr.vcvtF64I32, VOp.cvt 12), (Instr.vcvtI32F64, VOp.cvt 13), (Instr.vcvtF16Bf16, VOp.cvt 14),
   (Instr.vcvtBf16F16, VOp.cvt 15)] ++
  [(Instr.vredAdd, VOp.red 0), (Instr.vredMin, VOp.red 1), (Instr.vredMax, VOp.red 2), (Instr.vredAnd, VOp.red 3),
   (Instr.vredOr, VOp.red 4), (Instr.vredXor, VOp.red 5), (Instr.vredMinu, VOp.red 6), (Instr.vredMaxu, VOp.red 7),
   (Instr.vscanAdd, VOp.red 8), (Instr.vscanMin, VOp.red 9), (Instr.vscanMax, VOp.red 10)]

/-- The vector instructions that access memory, with what each dispatches (R162 to R168, R182 to R185). -/
noncomputable def vectorMemoryForms : List ((LgM → Instr) × (LgM → VOp)) :=
  [(Instr.vqsh, VOp.quant 0), (Instr.vdqsh, VOp.quant 1), (Instr.vbaq, VOp.quant 2), (Instr.vld, VOp.load 0),
   (Instr.vlds, VOp.load 1), (Instr.vgather, VOp.load 2), (Instr.vldw, VOp.load 3), (Instr.vldl, VOp.load 4),
   (Instr.vst, VOp.store 0), (Instr.vsts, VOp.store 1), (Instr.vscatter, VOp.store 2), (Instr.vstl, VOp.store 3)]

/-- Whether a vector store that writes at an address has room there: through the window, on its stream (R167, R196). -/
def RoomAt (s : State) (o : LgM) (va : Nat) : Prop :=
  va / 2 ^ 55 % 4 = 3 → s.streamFull (coreOfKey s.cur) o.str.toNat (windowDev va) = false

/-- What a vector memory instruction needs of the streams: a store room for what it writes through the window, a quantising one for
its elements and for its scale pairs (R167, R196). -/
def StreamOpen (s : State) (o : LgM) (op : VOp) : Prop :=
  let va := (effective s o.a o.off).toNat
  match op with
  | .store fn _ => fn < 3 → RoomAt s o va
  | .quant fn _ => fn ≠ 1 → RoomAt s o va ∧ RoomAt s o ((s.ctx s.cur).xr (pfxBase s.prefixNow)).toNat
  | _ => True

/-- The x registers that a vector or matrix instruction reads at dispatch, in order (R36, R141, R147). -/
def dispatchSources (s : State) (op : VOp) : List Nat :=
  (op.recorded s.prefixNow).1.toList ++ (op.recorded s.prefixNow).2.toList ++ op.unrecorded s.prefixNow

/-- R141, R36: a vector instruction that can be dispatched is, with the sources as they stand, and its context goes on; a store
through the window finds room on its stream, or waits at issue (R167, R196), and `vbaq` in a deterministic launch names the core
scratchpad, or raises DetViolation (R168). -/
def vectorDispatch : Prop :=
  (∀ p ∈ vectorForms, ∀ (o : Lg) (s : State), Dispatchable s (p.2 o) →
    exec (p.1 o) s = .next (s.dispatched (p.2 o) 12 o.toLow)) ∧
  (∀ (o : ExE) (s : State), Dispatchable s (.expr o) → exec (.vexpr o) s = .next (s.dispatched (.expr o) 16 o.toLow)) ∧
  ∀ p ∈ vectorMemoryForms, ∀ (o : LgM) (s : State), Dispatchable s (p.2 o) →
    let va := (effective s o.a o.off).toNat
    let strays := p.2 o = .quant 2 o ∧ (s.ctx s.cur).det = true ∧ ¬ (va / 2 ^ 55 % 4 = 1 ∧ va / 2 ^ 52 % 8 = 0)
    (strays → exec (p.1 o) s = .next (s.traps 14 0 (BitVec.ofNat 64 va))) ∧
    (¬ strays → StreamOpen s o (p.2 o) → exec (p.1 o) s = .next (s.dispatched (p.2 o) 12 o.toLow)) ∧
    (¬ strays → ¬ StreamOpen s o (p.2 o) → exec (p.1 o) s = .next (park s.cur .again false s))

/-- What keeps a vector instruction from its dispatch, none of which has any other effect: a prefix that it does not run under
raises PrefixMisuse (R25), no lanes LaneNone (R16), a source that cannot be read makes it wait or fault (R13, R141), and a full
dispatch ring makes it wait at issue (R35). -/
def Refuses (s : State) (i : Instr) (op : VOp) (pfx : Prop) : Prop :=
  let c := s.ctx s.cur
  (¬ pfx → exec i s = .next (s.traps 11 0 (s.iw.setWidth 64))) ∧
  (pfx → c.grant = 0 → exec i s = .next (s.traps 12 0 (s.iw.setWidth 64))) ∧
  (pfx → c.grant ≠ 0 → Sources s (dispatchSources s op) i ∧
    ((∀ r ∈ dispatchSources s op, Readable s r) → c.ringFull = true → exec i s = .next (park s.cur .again false s)))

/-- R13, R16, R25, R35, R99, R141, R162, R185: what keeps each vector instruction from its dispatch. A quantising one runs under a
prefix of format 1 to 3, `vldw` under one of 4 or 5, and every other one under none. -/
def dispatchRefusals : Prop :=
  ∀ s : State, s.mayIssue s.cur = true → (s.ctx s.cur).fetched = none →
    let c := s.ctx s.cur
    let fmt := c.pfx.toNat % 16
    (∀ p ∈ vectorForms, ∀ o, Refuses s (p.1 o) (p.2 o) (c.pp = false)) ∧
    (∀ o, Refuses s (.vexpr o) (.expr o) (c.pp = false)) ∧
    ∀ p ∈ vectorMemoryForms, ∀ o, Refuses s (p.1 o) (p.2 o) (match p.2 o with
      | .quant _ _ => c.pp = true ∧ 1 ≤ fmt ∧ fmt ≤ 3
      | .load 3 _ => c.pp = true ∧ (fmt = 4 ∨ fmt = 5)
      | _ => c.pp = false)

/-- Every vector instruction's dispatch, and what keeps one from it. -/
def Obligations.VectorDispatch : Prop := vectorDispatch ∧ dispatchRefusals

/-- R215, R219, R233: the matrix instructions are dispatched into the cluster's queue, in order, and a source that cannot be read
makes one wait or fault (R13, R141); `mld` of a prefix and types that do not pair is ReservedField before anything else (R94, R222). `mclaim` gives the core every named tile that nobody holds and reads which it holds,
`mrel` frees named tiles of the core once no queued entry names one, and `mfol` registers a follow-on command; none of the three
needs a prefix or takes one. -/
def Obligations.MatrixDispatch : Prop :=
  (∀ p ∈ ([(Instr.mld, VOp.mld), (Instr.wload, VOp.wload), (Instr.mma, VOp.mma), (Instr.mseq, VOp.mseq), (Instr.macrd, VOp.macrd),
      (Instr.macwr, VOp.macwr)] : List ((ExM → Instr) × (ExM → VOp))),
    ∀ (o : ExM) (s : State), (Dispatchable s (p.2 o) → exec (p.1 o) s = .next (s.dispatched (p.2 o) 16 o.toLow)) ∧
      (s.mayIssue s.cur = true → (s.ctx s.cur).fetched = none → dispatchFault (s.ctx s.cur) s.prefixNow (p.2 o) = none →
        Sources s (dispatchSources s (p.2 o)) (p.1 o))) ∧
  (∀ (o : ExT) (s : State), Dispatchable s (.macz o) → exec (.macz o) s = .next (s.dispatched (.macz o) 16 o.toLow)) ∧
  (∀ (o : ExM) (s : State), s.mayIssue s.cur = true → mldPair o s.prefixNow = false →
    exec (.mld o) s = .next (s.traps 2 0 (s.iw.setWidth 64))) ∧
  (∀ (o : ExT) (s : State), Dispatchable s (.acted true 0 none) →
    let core := coreOfKey s.cur
    let cl := clusterOfCore core
    let holder := fun (u : State) (t : Nat) => Tbl.get 0 (u.cluster cl).owner t
    let named := fun (t : Nat) => o.tail.toNat.testBit t
    (∃ u, exec (.mclaim o) s = .next u ∧ (u.ctx s.cur).pc = s.pc + 16 ∧
      (∀ t < 4, holder u t = if named t ∧ holder s t = 0 then core + 1 else holder s t) ∧
      (o.d ≠ 0 → ∀ t < 64, ((u.ctx s.cur).xr o.d.toNat).getLsbD t = decide (t < 4 ∧ holder u t = core + 1))) ∧
    ((∀ m ∈ (s.cluster cl).queue, m.core = core → ∀ t, s.entryTile m = some t → named t = false) →
      ∃ u, exec (.mrel o) s = .next u ∧ (u.ctx s.cur).pc = s.pc + 16 ∧
        ∀ t < 4, (named t → holder s t = core + 1 → holder u t ≠ core + 1) ∧ (named t = false → holder u t = holder s t)) ∧
    ((∃ m ∈ (s.cluster cl).queue, m.core = core ∧ ∃ t, s.entryTile m = some t ∧ named t = true) →
      exec (.mrel o) s = .next (park s.cur .again false s))) ∧
  (∀ (o : ExM) (s : State), Dispatchable s (.acted true o.aoff.toNat none) →
    let core := coreOfKey s.cur
    Tbl.get 0 (s.cluster (clusterOfCore core)).owner o.acc.toNat = core + 1 →
    ∃ u, exec (.mfol o) s = .next u ∧ (u.ctx s.cur).pc = s.pc + 16 ∧
      u.followOf s.cur o.d.toNat = some { o := o, off := s.x o.aoff } ∧
      Tbl.get none (u.core core).follow o.d.toNat = some { o := o, off := s.x o.aoff })

/-- One element of `w` bits at a position of a lane. -/
def laneElem (w : Nat) (lane : Lane) (q : Nat) : BitVec w := BitVec.ofNat w (lane.toNat / 2 ^ (w * q))

/-- Clamped to a signed and to an unsigned width (R44). -/
def clampS (w : Nat) (v : Int) : BitVec w := BitVec.ofInt w (max (-(2 : Int) ^ (w - 1)) (min ((2 : Int) ^ (w - 1) - 1) v))

/-- Clamped to an unsigned width (R44). -/
def clampU (w : Nat) (v : Int) : BitVec w := BitVec.ofInt w (max 0 (min ((2 : Int) ^ w - 1) v))

/-- The results of major 0x10 by function code (R149). -/
def r149 (w fn : Nat) (a b : BitVec w) : BitVec w :=
  let sh := b.toNat % w
  match fn with
  | 0 => a + b
  | 1 => a - b
  | 2 => a * b
  | 3 => BitVec.ofInt w (a.toInt * b.toInt / 2 ^ w)
  | 4 => BitVec.ofNat w (a.toNat * b.toNat / 2 ^ w)
  | 5 => if a.toInt ≤ b.toInt then a else b
  | 6 => if a.toNat ≤ b.toNat then a else b
  | 7 => if a.toInt ≤ b.toInt then b else a
  | 8 => if a.toNat ≤ b.toNat then b else a
  | 9 => a &&& b
  | 10 => a ||| b
  | 11 => a ^^^ b
  | 12 => a <<< sh
  | 13 => a >>> sh
  | 14 => a.sshiftRight sh
  | 15 => if a.toInt < 0 then -a else a
  | 16 => -a
  | 17 => clampS w (a.toInt + b.toInt)
  | 18 => clampS w (a.toInt - b.toInt)
  | 19 => clampU w (a.toNat + b.toNat)
  | 20 => clampU w ((a.toNat : Int) - b.toNat)
  | 21 => BitVec.ofNat w ((List.range w).filter fun i => a.getLsbD i).length
  | _ => BitVec.ofNat w (((List.range w).takeWhile fun i => !a.getLsbD (w - 1 - i)).length)

/-- Whether a lane is active (R12, R143): below the VL that its instruction was dispatched with, and enabled by the guard as its quad
was read then. -/
def laneActive (p : Pend) (g : BitVec 4) (i : Nat) : Prop :=
  i < 32 * p.grant ∧ (g ≠ 0 → (p.xv (32 + 4 * (g.toNat % 8) + i / 64)).getLsbD (i % 64) = decide (g.toNat < 8))

/-- R149 with R142 and R143, at retirement: where the oldest instruction in flight is one of major 0x10 whose active source
lanes carry no poison, each element of each active lane of vd becomes R149's value, every other lane of every register stays,
and so do every x register, SR, every slice and memory; the instruction leaves the ring as retired. -/
def Obligations.VectorIntegerLanes : Prop :=
  ∀ (key : Nat) (s : State) (p : Pend) (rest : List Pend) (fn : Nat) (o : Lg),
    (s.ctx key).pend = p :: rest → p.op = .int fn o → fn < 23 → o.ty ∈ [0, 5, 6] → p.grant ≤ 8 →
    p.req = none → (s.ctx key).live = true → (s.ctx key).st ≠ .migrating →
    let c := s.ctx key
    (∀ i, laneActive p o.g1 i → c.vmark o.a.toNat i = 0 ∧ c.vmark o.b.toNat i = 0) → (∀ q ∈ rest, q.seq ≠ p.seq) →
    ∃ t, exec (.vectorRetire key) s = .next t ∧ (t.ctx key).pend = rest ∧ t.mem = s.mem ∧
      (∀ r < 32, ∀ i < 256,
        (r = o.d.toNat → laneActive p o.g1 i → let w := tyBits o.ty
          ∀ q < 32 / w, laneElem w ((t.ctx key).vr r i) q = r149 w fn (laneElem w (c.vr o.a.toNat i) q) (laneElem w (c.vr o.b.toNat i) q)) ∧
        (r ≠ o.d.toNat ∨ ¬ laneActive p o.g1 i → (t.ctx key).vr r i = c.vr r i)) ∧
      (∀ r, (t.ctx key).xr r = c.xr r) ∧ (t.ctx key).sr = c.sr ∧ (t.ctx key).sl = c.sl ∧ (t.ctx key).pc = c.pc ∧
      ∀ k, k ≠ key → t.ctx k = s.ctx k

/-- R32 and R145: where the oldest instruction in flight reads a poisoned element in an active lane, it has no effect: every later
one in flight is cancelled, and an imprecise UncorrectableData of the lane group becomes due with its number. -/
def Obligations.VectorFaultsAreImprecise : Prop :=
  ∀ (key : Nat) (s : State) (p : Pend) (rest : List Pend) (fn : Nat) (o : Lg),
    (s.ctx key).pend = p :: rest → p.op = .int fn o → p.req = none → (s.ctx key).live = true →
    (s.ctx key).st ≠ .migrating →
    let c := s.ctx key
    let act := (List.range (32 * p.grant)).filter fun i => maskBit p.xv o.g1 i
    let m := c.laneMark [o.a.toNat, o.b.toNat] act
    m ≠ 0 → fn < 15 →
    ∃ t, exec (.vectorRetire key) s = .next t ∧ (t.ctx key).pend = [] ∧
      (t.ctx key).due = c.due ++ [{ kind := .imprecise, code := 23, sub := if m % 2 = 1 then 0xFE else 2, val := markVal m
                                    seq := p.seq, tag := false, at' := BitVec.ofNat 57 (markVal m).toNat }] ∧
      (t.ctx key).v = c.v ∧ (t.ctx key).x = c.x ∧ (t.ctx key).sr = c.sr ∧ t.mem = s.mem

/-! ### What vector instructions leave when they retire -/

/-- Where the oldest instruction in flight retires without a device that did not answer, its entry leaves the ring, the flags that
`flag` names by bit are ORed into SR[6:2] (R23, R144), its context is otherwise as `new` says, and nothing else changes. -/
def Retires (key : Nat) (s : State) (p : Pend) (rest : List Pend) (flag : Nat → Prop) (new : Ctx → Prop) : Prop :=
  let c := s.ctx key
  ∃ t, exec (.vectorRetire key) s = .next t ∧ (t.ctx key).pend = rest ∧ new (t.ctx key) ∧
    (∀ k < 64, (t.ctx key).sr.getLsbD k = true ↔ c.sr.getLsbD k = true ∨ (2 ≤ k ∧ k < 7 ∧ flag (k - 2))) ∧
    (t.ctx key).pc = c.pc ∧ (t.ctx key).grant = c.grant ∧ (t.ctx key).sl = c.sl ∧ t.mem = s.mem ∧
    (p.hit = none → (t.ctx key).due = c.due) ∧ ∀ k, k ≠ key → t.ctx k = s.ctx k

/-- The oldest instruction in flight of a context is `p`, which asks no other device for anything, and it can retire. -/
def Oldest (key : Nat) (s : State) (p : Pend) (rest : List Pend) : Prop :=
  (s.ctx key).pend = p :: rest ∧ p.req = none ∧ (s.ctx key).live = true ∧ (s.ctx key).st ≠ .migrating ∧ p.grant ≤ 8 ∧
    ∀ q ∈ rest, q.seq ≠ p.seq

/-- No flag. -/
def noFlag (_ : Nat) : Prop := False

/-- An element of a lane; one of 64 bits lies in a pair of registers (R142). -/
def vecElem (c : Ctx) (ty : BitVec 3) (r i q : Nat) : Nat :=
  if ty = 4 then (c.vr r i).toNat + 2 ^ 32 * (c.vr (r + 1) i).toNat else (c.vr r i).toNat / 2 ^ (tyBits ty * q) % 2 ^ tyBits ty

/-- R142, R143: each element of the lanes that `act` names reads as given, unmarked, every other lane of every register is as it
was, and so is every x register. -/
def LanesBecome (c : Ctx) (ty : BitVec 3) (d : Nat) (act : Nat → Prop) (val : Nat → Nat → Nat) (c' : Ctx) : Prop :=
  (∀ r < 32, ∀ i < 256,
    (r ∈ tyRegs ty d → act i → (∀ q < tyCount ty, vecElem c' ty d i q = val i q) ∧ c'.vmark r i = 0) ∧
    (r ∉ tyRegs ty d ∨ ¬ act i → c'.vr r i = c.vr r i ∧ c'.vmark r i = c.vmark r i)) ∧
  ∀ r, c'.xr r = c.xr r ∧ c'.mark r = c.mark r

/-- R12: a quad is written whole, and no lane or other x register. -/
def QuadBecomes (c : Ctx) (d : Nat) (bit : Nat → Prop) (c' : Ctx) : Prop :=
  (∀ i < 256, quadBit c'.xr d i = true ↔ bit i) ∧ (∀ r, r < 32 + 4 * d ∨ 36 + 4 * d ≤ r → c'.xr r = c.xr r) ∧ c'.v = c.v ∧ c'.vp = c.vp

/-- An x register is written, and no lane or other x register. -/
def WordBecomes (c : Ctx) (d : Nat) (w : Word) (c' : Ctx) : Prop :=
  (d ≠ 0 → c'.xr d = w) ∧ (∀ r, r ≠ d → c'.xr r = c.xr r) ∧ c'.v = c.v ∧ c'.vp = c.vp

/-- The lanes that `act` names carry no mark in some registers (R145). -/
def Unmarked (c : Ctx) (regs : List Nat) (act : Nat → Prop) : Prop := ∀ i, act i → ∀ r ∈ regs, c.vmark r i = 0

/-- R150: major 0x11 by function code. -/
def r150 (f : Fmt) (fn : Nat) (g : BitVec 4) (a b c : Nat) : Nat × Flags :=
  let m := g.toNat % 4
  let z := g.getLsbD 2
  match fn with
  | 0 => fAdd f m z a b
  | 1 => fSub f m z a b
  | 2 => fMul f m z a b
  | 3 => fDiv f m z a b
  | 4 => fSqrt f m z a
  | 5 => fMinMax f false false a b
  | 6 => fMinMax f true false a b
  | 7 => (a % 2 ^ (f.width - 1), 0)
  | 8 => ((a + 2 ^ (f.width - 1)) % 2 ^ f.width, 0)
  | 9 => fFma f m z false false a b c
  | 10 => fFma f m z false true a b c
  | 11 => fFma f m z true false a b c
  | 12 => fRcp f m z a
  | 13 => fRsqrt f m z a
  | 14 => fEx2 f m z a
  | 15 => fLg2 f m z a
  | _ => (a % 2 ^ (f.width - 1) + b / 2 ^ (f.width - 1) * 2 ^ (f.width - 1), 0)

/-- R150: the floating-point instructions. -/
def vectorFloats : Prop :=
  ∀ (key : Nat) (s : State) (p : Pend) (rest : List Pend) (fn : Nat) (o : Lg),
    Oldest key s p rest → p.op = .float fn o → fn < 17 → o.ty ∈ [1, 2, 3, 4] →
    let c := s.ctx key
    let act := laneActive p o.g1
    let srcs := if fn ∈ [4, 7, 8, 12, 13, 14, 15] then [o.a.toNat]
      else if fn ∈ [9, 10, 11] then [o.a.toNat, o.b.toNat, o.c.toNat] else [o.a.toNat, o.b.toNat]
    let res := fun i q => r150 (tyFmt o.ty) fn o.g2 (vecElem c o.ty o.a.toNat i q) (vecElem c o.ty o.b.toNat i q)
      (vecElem c o.ty o.c.toNat i q)
    Unmarked c (srcs.flatMap (tyRegs o.ty)) act →
    Retires key s p rest (fun k => ∃ i, act i ∧ ∃ q < tyCount o.ty, (res i q).2.getLsbD k = true)
      (LanesBecome c o.ty o.d.toNat act fun i q => (res i q).1)

/-- The relations of R151 on numbers: = ≠ < ≤ > ≥. -/
def relates (fn : Nat) (a b : Int) : Prop :=
  match fn with
  | 0 => a = b
  | 1 => a ≠ b
  | 2 => a < b
  | 3 => a ≤ b
  | 4 => b < a
  | _ => b ≤ a

/-- The comparisons of floating-point elements (R151, R48): equality, and the ordered ones. -/
def compares (f : Fmt) (fn a b : Nat) : Bool × Flags :=
  match fn with
  | 0 => fEq f false a b
  | 1 => (!(fEq f false a b).1, (fEq f false a b).2)
  | 2 => fOrd f false (· == .lt) a b
  | 3 => fOrd f false (· != .gt) a b
  | 4 => fOrd f false (· == .gt) a b
  | _ => fOrd f false (· != .lt) a b

/-- R151: the comparisons, signed for codes 0 to 5 of an integer type and unsigned for 6 to 9. -/
def vectorCompares : Prop :=
  ∀ (key : Nat) (s : State) (p : Pend) (rest : List Pend) (fn : Nat) (o : Lg),
    Oldest key s p rest → p.op = .cmp fn o →
    let c := s.ctx key
    let act := laneActive p o.g1
    let x := fun i q => vecElem c o.ty o.a.toNat i q
    let y := fun i q => vecElem c o.ty o.b.toNat i q
    let w := tyBits o.ty
    Unmarked c ([o.a.toNat, o.b.toNat].flatMap (tyRegs o.ty)) act →
    (o.ty ∈ [0, 5, 6] → fn < 10 →
      Retires key s p rest noFlag (QuadBecomes c o.d.toNat fun i => act i ∧ ∀ q < tyCount o.ty,
        if fn < 6 then relates fn (BitVec.ofNat w (x i q)).toInt (BitVec.ofNat w (y i q)).toInt else relates (fn - 4) (x i q) (y i q))) ∧
    (o.ty ∈ [1, 2, 3, 4] → fn < 6 →
      Retires key s p rest (fun k => ∃ i, act i ∧ ∃ q < tyCount o.ty, (compares (tyFmt o.ty) fn (x i q) (y i q)).2.getLsbD k = true)
        (QuadBecomes c o.d.toNat fun i => act i ∧ ∀ q < tyCount o.ty, (compares (tyFmt o.ty) fn (x i q) (y i q)).1 = true))

/-- R152 to R154: select, masks, broadcasts and single lanes. Of the sources of `vsel` a lane reads the one that its mask selects (log
entry 61), and a constant that is a signalling NaN becomes quiet and sets no flag (log entry 70). -/
def vectorMoves : Prop :=
  ∀ (key : Nat) (s : State) (p : Pend) (rest : List Pend) (o : Lg), Oldest key s p rest →
    let c := s.ctx key
    let act := laneActive p o.g1
    let d := o.d.toNat
    let a := o.a.toNat
    let one := fun (i : Nat) (v : Nat → Nat) => LanesBecome c o.ty d (fun j => act j ∧ j = i) (fun _ => v)
    (p.op = .misc 0 o → o.ty ≠ 4 → tyCount o.ty = 1 →
      let pick := fun i => if maskBit p.xv o.g2 i then a else o.b.toNat
      (∀ i, act i → c.vmark (pick i) i = 0) →
      Retires key s p rest noFlag (LanesBecome c o.ty d act fun i _ => (c.vr (pick i) i).toNat)) ∧
    (p.op = .misc 1 o → Retires key s p rest noFlag (QuadBecomes c d fun i => (i : Int) < p.dra.toInt ∧ i < 32 * p.grant)) ∧
    (p.op = .misc 2 o → o.ty ∈ [0, 1, 4] →
      let v := if a ≠ 0 then p.dra.toNat % 2 ^ tyBits o.ty
        else if o.ty = 4 then (cvtFF f32 f64 0 false o.imm.toNat).1 else o.imm.toNat
      Retires key s p rest noFlag (LanesBecome c o.ty d act fun _ _ => v)) ∧
    (p.op = .misc 3 o → o.ty ∈ [0, 1, 4] → Unmarked c (tyRegs o.ty a) act →
      Retires key s p rest noFlag (LanesBecome c o.ty d act fun i _ => vecElem c o.ty a i 0)) ∧
    (p.op = .misc 4 o → o.ty ∈ [0, 1, 4] → let i := p.dra.toNat
      (¬ act i → Retires key s p rest noFlag (WordBecomes c 0 0)) ∧
      (act i → Unmarked c (tyRegs o.ty a) (· = i) → Retires key s p rest noFlag (WordBecomes c d
        (if o.ty = 0 then (c.vr a i).signExtend 64 else BitVec.ofNat 64 (vecElem c o.ty a i 0))))) ∧
    (p.op = .misc 5 o → o.ty ∈ [0, 1, 4] →
      Retires key s p rest noFlag (one p.drb.toNat fun _ => p.dra.toNat % 2 ^ tyBits o.ty)) ∧
    (p.op = .misc 6 o → Retires key s p rest noFlag (WordBecomes c d
      (BitVec.ofNat 64 ((List.range (32 * p.grant)).countP fun i => quadBit p.xv a i))))

/-- R155: the permutes, on whole lanes of 32 bits. -/
def vectorPermutes : Prop :=
  ∀ (key : Nat) (s : State) (p : Pend) (rest : List Pend) (fn : Nat) (o : Lg),
    Oldest key s p rest → p.op = .perm fn o → fn < 4 → o.ty = 0 →
    let c := s.ctx key
    let vl := 32 * p.grant
    let act := laneActive p o.g1
    let ones := fun (n : Nat) => (List.range n).countP fun j => quadBit p.xv o.b.toNat j
    let from' := fun (i : Nat) (j : Option Nat) => match fn with
      | 0 => j = if (c.vr o.b.toNat i).toNat < vl then some (c.vr o.b.toNat i).toNat else none
      | 1 => j = some ((i + p.dra.toNat % vl) % vl)
      | 2 => if i < ones vl then ∃ k < vl, j = some k ∧ quadBit p.xv o.b.toNat k = true ∧ ones k = i else j = none
      | _ => j = if quadBit p.xv o.b.toNat i then some (ones i) else none
    (fn = 0 → Unmarked c [o.b.toNat] act) → (∀ i, act i → ∀ j, from' i (some j) → c.vmark o.a.toNat j = 0) →
    ∃ src : Nat → Option Nat, (∀ i, act i → from' i (src i)) ∧
      Retires key s p rest noFlag (LanesBecome c 0 o.d.toNat act fun i _ => match src i with
        | some j => (c.vr o.a.toNat j).toNat
        | none => 0)

/-- R156, R157: what a conversion of major 0x15 makes of one source element. -/
def r156 (fn m : Nat) (z : Bool) (a : Nat) : Nat × Flags :=
  let word := fun (r : Int × Flags) => ((BitVec.ofInt 32 r.1).toNat, r.2)
  match fn with
  | 0 => cvtIF f32 m z (BitVec.ofNat 32 a).toInt
  | 1 => cvtIF f32 m z a
  | 2 => word (cvtFI f32 m z 32 true a)
  | 3 => word (cvtFI f32 m z 32 false a)
  | 4 => cvtFF f32 f16 m z a
  | 5 => cvtFF f32 bf16 m z a
  | 6 => cvtFF f16 f32 0 false a
  | 7 => cvtFF bf16 f32 0 false a
  | 8 => e4m3Encode m (f32.decode z a)
  | 9 => f32.deliver 0 false (e4m3Decode a)
  | 10 => cvtFF f32 f64 0 false a
  | 11 => cvtFF f64 f32 m z a
  | 12 => cvtIF f64 m z (BitVec.ofNat 32 a).toInt
  | 13 => word (cvtFI f64 m z 32 true a)
  | 14 => cvtFF bf16 f16 m z a
  | _ => cvtFF f16 bf16 m z a

/-- R156, R157: the conversions. Codes 4, 5 and 8 write position b of a packed lane, 6, 7 and 9 read it, 10 and 12 write a pair, 11 and
13 read one, and 14 and 15 convert both halves of a lane. -/
def vectorConversions : Prop :=
  ∀ (key : Nat) (s : State) (p : Pend) (rest : List Pend) (fn : Nat) (o : Lg),
    Oldest key s p rest → p.op = .cvt fn o → fn < 16 → o.b.toNat < (if fn ∈ [4, 5, 6, 7] then 2 else if fn ∈ [8, 9] then 4 else 1) →
    let c := s.ctx key
    let act := laneActive p o.g1
    let dty : BitVec 3 := if fn ∈ [4, 5, 14, 15] then 2 else if fn = 8 then 5 else if fn ∈ [10, 12] then 4 else 0
    let sty : BitVec 3 := if fn ∈ [6, 7, 14, 15] then 2 else if fn = 9 then 5 else if fn ∈ [11, 13] then 4 else 0
    let at' := fun (q : Nat) => if fn ∈ [6, 7, 9] then o.b.toNat else if fn ∈ [14, 15] then q else 0
    let writes := fun (q : Nat) => fn ∈ [4, 5, 8] → q = o.b.toNat
    let res := fun i q => r156 fn (o.g2.toNat % 4) (o.g2.getLsbD 2) (vecElem c sty o.a.toNat i (at' q))
    Unmarked c (tyRegs sty o.a.toNat ++ if fn ∈ [4, 5, 8] then [o.d.toNat] else []) act →
    Retires key s p rest (fun k => ∃ i, act i ∧ ∃ q < tyCount dty, writes q ∧ (res i q).2.getLsbD k = true)
      (LanesBecome c dty o.d.toNat act fun i q =>
        if fn ∈ [4, 5, 8] ∧ q ≠ o.b.toNat then vecElem c dty o.d.toNat i q else (res i q).1)

/-- R66: PairwiseReduce over lanes 0 to n − 1, of which the absent ones hold nothing; `fuel` bounds the rounds. -/
def r66 {α : Type} (op : α → α → α) : Nat → Nat → (Nat → Option α) → Option α
  | 0, _, t => t 0
  | fuel + 1, n, t =>
    if n ≤ 1 then t 0
    else
      let h := (n + 1) / 2
      r66 op fuel h fun i =>
        if i < n - h then
          match t i, t (i + h) with
          | some a, some b => some (op a b)
          | some a, none => some a
          | none, b => b
        else t i

/-- R158: the operation of a reduction, with its flags. -/
def r158 (ty : BitVec 3) (fn : Nat) (g : BitVec 4) (a b : Nat × Flags) : Nat × Flags :=
  let w := tyBits ty
  let v : Nat × Flags :=
    if ty ∈ [1, 2, 3, 4] then r150 (tyFmt ty) (match fn with | 0 => 0 | 1 => 5 | _ => 6) g a.1 b.1 0
    else ((r149 w (match fn with | 0 => 0 | 1 => 5 | 2 => 7 | 3 => 9 | 4 => 10 | 5 => 11 | 6 => 6 | _ => 8) (BitVec.ofNat w a.1)
      (BitVec.ofNat w b.1)).toNat, 0)
  (v.1, a.2 ||| b.2 ||| v.2)

/-- R66: the value of a reduction of no lane. -/
def r66Empty (ty : BitVec 3) (fn : Nat) : Nat :=
  let w := tyBits ty
  if ty ∈ [1, 2, 3, 4] then (if fn = 0 then 0 else (tyFmt ty).nan)
  else match fn with
    | 1 => 2 ^ (w - 1) - 1
    | 2 => 2 ^ (w - 1)
    | 3 => 2 ^ w - 1
    | 6 => 2 ^ w - 1
    | _ => 0

/-- R66, R67, R158, R159: the reductions and scans, once for each element position; an inactive lane of a scan receives the value of
the nearest active lane below it. -/
def vectorReductions : Prop :=
  ∀ (key : Nat) (s : State) (p : Pend) (rest : List Pend) (fn : Nat) (o : Lg) (act : Nat → Bool),
    Oldest key s p rest → p.op = .red fn o → (∀ i, act i = true ↔ laneActive p o.g1 i) →
    let c := s.ctx key
    let float := o.ty ∈ [1, 2, 3, 4]
    let reduced := fun (f q n : Nat) => r66 (r158 o.ty f o.g2) 9 n fun i => if act i then some (vecElem c o.ty o.a.toNat i q, 0) else none
    let value := fun (f q n : Nat) => ((reduced f q n).map (·.1)).getD (r66Empty o.ty f)
    let flags := fun (f q n k : Nat) => float ∧ ∃ r, reduced f q n = some r ∧ r.2.getLsbD k = true
    let vl := 32 * p.grant
    Unmarked c (tyRegs o.ty o.a.toNat) (laneActive p o.g1) →
    (fn < 8 → (float → fn < 3) →
      Retires key s p rest (fun k => ∃ q < tyCount o.ty, flags fn q vl k) (WordBecomes c o.d.toNat
        (if o.ty = 0 then (BitVec.ofNat 32 (value fn 0 vl)).signExtend 64
          else BitVec.ofNat 64 (((List.range (tyCount o.ty)).map fun q => value fn q vl * 2 ^ (tyBits o.ty * q)).sum)))) ∧
    (8 ≤ fn → fn < 11 →
      Retires key s p rest (fun k => ∃ q < tyCount o.ty, ∃ j < vl, act j = true ∧ flags (fn - 8) q (j + 1) k)
        (LanesBecome c o.ty o.d.toNat (· < vl) fun j q => match ((List.range (j + 1)).filter act).getLast? with
          | some i => value (fn - 8) q (i + 1)
          | none => r66Empty o.ty (fn - 8)))

/-- R161: the tokens of an expression from a stack onward, with the flags so far. -/
def r161 (f : Fmt) (g : BitVec 4) (ins : Nat → Nat) (k : Nat) : List Nat → List Nat → Flags → Nat × Flags
  | [], st, fl => (st.headD 0, fl)
  | t :: ts, st, fl =>
    if t = 0 then (st.headD 0, fl)
    else if t ≤ 5 then r161 f g ins k ts ((if t = 5 then k else ins t) :: st) fl
    else
      let args := st.take (if t = 9 then 3 else if t ≤ 11 then 2 else 1)
      let x := args.getLastD 0
      let v := match t with
        | 9 => fFma f (g.toNat % 4) (g.getLsbD 2) false false x (args.getD 1 0) (args.getD 0 0)
        | 12 => r150 f 8 g x 0 0
        | 13 => r150 f 7 g x 0 0
        | 14 => r150 f 12 g x 0 0
        | 15 => r150 f 14 g x 0 0
        | _ => r150 f ([0, 1, 2, 0, 5, 6].getD (t - 6) 0) g x (args.getD 0 0) 0
      r161 f g ins k ts (v.1 :: st.drop args.length) (fl ||| v.2)

/-- R160, R161: an expression of well-formed tokens, evaluated for each active lane and position. -/
def vectorExpressions : Prop :=
  ∀ (key : Nat) (s : State) (p : Pend) (rest : List Pend) (o : ExE),
    Oldest key s p rest → p.op = .expr o → o.ty ∈ [1, 2, 3] → tokensOK o.tok = true →
    let c := s.ctx key
    let act := laneActive p o.g1
    let ins := fun (t : Nat) => [0, o.a.toNat, o.b.toNat, o.c.toNat, o.e.toNat].getD t 0
    let live := (tokenList o.tok).takeWhile (· ≠ 0)
    let res := fun i q => r161 (tyFmt o.ty) o.g2 (fun t => vecElem c o.ty (ins t) i q) (cvtFF bf16 (tyFmt o.ty) 0 false o.kbf.toNat).1
      (tokenList o.tok) [] 0
    Unmarked c ((live.filter fun t => 1 ≤ t ∧ t ≤ 4).map ins) act →
    Retires key s p rest (fun k => ∃ i, act i ∧ ∃ q < tyCount o.ty, (res i q).2.getLsbD k = true)
      (LanesBecome c o.ty o.d.toNat act fun i q => (res i q).1)

/-- What the computing vector instructions leave when they retire, where no element that they read is marked: majors 0x11 to 0x16 and
`vexpr`. -/
def Obligations.VectorResults : Prop :=
  vectorFloats ∧ vectorCompares ∧ vectorMoves ∧ vectorPermutes ∧ vectorConversions ∧ vectorReductions ∧ vectorExpressions

/-! ### Vector memory instructions -/

/-- The address of lane i (R182). -/
def r182 (fn : Nat) (o : LgM) (p : Pend) (c : Ctx) (i : Nat) : Va :=
  (p.dra + o.off.signExtend 64 + match fn with
    | 0 => BitVec.ofNat 64 (i * elemSize o.ty)
    | 1 => BitVec.ofNat 64 i * p.drb
    | _ => (c.vr o.b.toNat i).setWidth 64).setWidth 57

/-- A byte of a lane-private slice, and its mark (R184). -/
def sliceByte (c : Ctx) (i k : Nat) : Byte := Tbl.get 0 c.sl (i * 2048 + k)

/-- The mark of a byte of a lane-private slice (R402). -/
def sliceByteMark (c : Ctx) (i k : Nat) : Nat := Tbl.get 0 c.slp (i * 2048 + k)

/-- The oldest instruction in flight faults imprecisely with no effect: its trap becomes due, what follows it is cancelled, and no lane,
slice, register or byte of memory changes (R32, R145). -/
def FaultsImprecisely (key : Nat) (s : State) (p : Pend) (code sub : BitVec 8) (val : Word) : Prop :=
  let c := s.ctx key
  ∃ t, exec (.vectorRetire key) s = .next t ∧ (t.ctx key).pend = [] ∧
    (∃ d, (t.ctx key).due = c.due ++ [d] ∧ d.kind = .imprecise ∧ d.code = code ∧ d.sub = sub ∧ d.val = val ∧ d.seq = p.seq) ∧
    (t.ctx key).v = c.v ∧ (t.ctx key).vp = c.vp ∧ (t.ctx key).sl = c.sl ∧ (t.ctx key).x = c.x ∧ (t.ctx key).sr = c.sr ∧ t.mem = s.mem

/-- R184: `vldl` and `vstl` reach the slice of each active lane, where every offset is a multiple of the element size and the element lies
below byte 2,048; one that does not is Misaligned, or Aperture with SUB 8 and ETVAL the offset. -/
def sliceAccesses : Prop :=
  ∀ (key : Nat) (s : State) (p : Pend) (rest : List Pend) (o : LgM), Oldest key s p rest →
    let c := s.ctx key
    let n := elemSize o.ty
    let ty : BitVec 3 := if o.ty = 4 then 4 else 0
    let act := laneActive p o.g1
    let off := fun i => (r182 4 o p c i).toNat
    let fits := fun i => off i % n = 0 ∧ off i + n ≤ 2048
    Unmarked c [o.b.toNat] act →
    (p.op = .load 4 o → (∀ i, act i → fits i) →
      ∃ t, exec (.vectorRetire key) s = .next t ∧ (t.ctx key).pend = rest ∧ t.mem = s.mem ∧ (t.ctx key).sl = c.sl ∧
        (∀ r, (t.ctx key).xr r = c.xr r) ∧ (t.ctx key).sr = c.sr ∧ (∀ k, k ≠ key → t.ctx k = s.ctx k) ∧
        ∀ r < 32, ∀ i < 256,
          (r ∈ tyRegs ty o.d.toNat → act i → ∀ k < n, vecElem (t.ctx key) ty o.d.toNat i 0 / 2 ^ (8 * k) % 256 = (sliceByte c i (off i + k)).toNat) ∧
          (r ∈ tyRegs ty o.d.toNat → act i → ((t.ctx key).vmark r i = 0 ↔ ∀ k < n, sliceByteMark c i (off i + k) = 0)) ∧
          (r ∉ tyRegs ty o.d.toNat ∨ ¬ act i → (t.ctx key).vr r i = c.vr r i ∧ (t.ctx key).vmark r i = c.vmark r i)) ∧
    (p.op = .store 3 o → Unmarked c (tyRegs o.ty o.c.toNat) act → (∀ i, act i → fits i) →
      ∃ t, exec (.vectorRetire key) s = .next t ∧ (t.ctx key).pend = rest ∧ t.mem = s.mem ∧ (t.ctx key).v = c.v ∧
        (∀ r, (t.ctx key).xr r = c.xr r) ∧ (t.ctx key).sr = c.sr ∧ (∀ k, k ≠ key → t.ctx k = s.ctx k) ∧
        ∀ i < 256, ∀ k < 2048,
          (act i → off i ≤ k → k < off i + n →
            sliceByte (t.ctx key) i k = BitVec.ofNat 8 (vecElem c ty o.c.toNat i 0 / 2 ^ (8 * (k - off i))) ∧ sliceByteMark (t.ctx key) i k = 0) ∧
          (¬ (act i ∧ off i ≤ k ∧ k < off i + n) →
            sliceByte (t.ctx key) i k = sliceByte c i k ∧ sliceByteMark (t.ctx key) i k = sliceByteMark c i k)) ∧
    (p.op = .load 4 o ∨ (p.op = .store 3 o ∧ Unmarked c (tyRegs o.ty o.c.toNat) act) → ∀ i, act i → (∀ j < i, act j → fits j) →
      (off i % n ≠ 0 → FaultsImprecisely key s p 4 (if n = 8 then 3 else 2) (BitVec.ofNat 64 (off i))) ∧
      (off i % n = 0 → 2048 < off i + n → FaultsImprecisely key s p 10 8 (BitVec.ofNat 64 (off i))))

/-- The bytes of a piece of an access, as they were found; all ones where the device that holds them did not answer (R194). -/
def gotBytes (got : List Got) (q : Nat × Nat) : List Byte := (gotAt got q.1 q.2).bytes.getD (List.replicate q.2 0xFF)

/-- Whether a piece of an access arrived. -/
def gotArrived (got : List Got) (q : Nat × Nat) : Prop := (gotAt got q.1 q.2).bytes ≠ none

/-- Whether a piece of an access came without a mark. -/
def gotClean (got : List Got) (q : Nat × Nat) : Prop := (gotAt got q.1 q.2).mark = 0

/-- R173, R183: what a vector load reads. Every piece is found before a byte is read; one in memory or in a bank holds the bytes at its
place, and one in the window those that its request was answered with, or none where the device did not answer (R194). -/
def fetchReads : Prop :=
  ∀ (key : Nat) (p : Pend) (ch : Nat) (pieces : List (Nat × Nat)) (s t : State) (got : List Got),
    (fetch key p ch pieces).run s = .ok got t →
    ∃ locs s', (vecLocs (s.pendEnv key p) accRead pieces).run s = .ok locs s' ∧ got.map (fun g => (g.va, g.n)) = pieces ∧
      t.mem = s'.mem ∧ (∀ k, (t.ctx k).v = (s.ctx k).v ∧ (t.ctx k).vp = (s.ctx k).vp) ∧
      ∀ q ∈ locs.zip got,
        (∀ pl mt, q.1.2.2 = .mem pl mt → q.2.bytes = some (t.ownBytes key pl q.2.n) ∧ q.2.marks = t.ownMarks key pl q.2.n) ∧
        (∀ pl, q.1.2.2 = .bank pl → q.2.bytes = some (t.bytes pl q.2.n)) ∧
        (∀ w, q.1.2.2 = .window w → s.rcHit (s.pendEnv key p).core ch q.2.va q.2.n = false →
          q.2.bytes = ((s.pendReq p).bind fun r => r.piece q.2.va q.2.n).map (·.1))

/-- R183: what a vector store leaves in memory. Every piece is found before a byte moves; each byte of memory or of a bank that the pieces
write holds what the last of them gives it, without a mark, and every other one reads as before; a piece in the window is posted, to a
device that can be reached. -/
def writesLand : Prop :=
  ∀ (key : Nat) (p : Pend) (w : Source) (stream : Nat) (quant : Bool) (ws : List (Nat × List Byte)) (s u : State),
    (∀ q ∈ ws, q.1 + q.2.length ≤ 2 ^ 57) → (vecWrite key p w stream quant ws).run s = .ok () u →
    ∃ locs t, (vecLocs (s.pendEnv key p) accWrite (ws.map fun q => (q.1, q.2.length))).run s = .ok locs t ∧
      let plain := (ws.zip locs).filterMap fun q => match q.2.2.2 with
        | .mem pl mt => if mt = 3 then none else some (pl, q.1.2)
        | .bank pl => some (pl, q.1.2)
        | _ => none
      (∀ a, (∀ q ∈ plain, a < q.1 ∨ q.1 + q.2.length ≤ a) → u.byte a = t.byte a ∧ u.byteMark a = t.byteMark a) ∧
      (∀ before q after, plain = before ++ q :: after → ∀ i < q.2.length,
        (∀ r ∈ after, q.1 + i < r.1 ∨ r.1 + r.2.length ≤ q.1 + i) → u.byte (q.1 + i) = q.2.getD i 0 ∧ u.byteMark (q.1 + i) = 0) ∧
      ∀ q ∈ ws, inWindow q.1 → s.unreachable (windowDev q.1) = false → ∀ i < q.2.length, ∃ e ∈ u.posts, e.key = key ∧ e.dest = windowDev q.1 ∧ e.stream = stream ∧
        e.writes e.va.toNat (q.1 + i) = true

/-- What a vector instruction in flight does with its lanes after its window request, if it needs one, has been answered: it retires, its
flags join SR (R144), and no x register changes. -/
def RetiresWith (key : Nat) (s : State) (p : Pend) (flags : Flags) (new : Ctx → Prop) (t : State) : Prop :=
  ∃ v, exec (.vectorRetire key) s = .next v ∧ (∀ q ∈ (v.ctx key).pend, q.seq ≠ p.seq) ∧ new (v.ctx key) ∧
    (v.ctx key).sr = (t.ctx key).sr ||| (flags.setWidth 64 <<< 2) ∧ (∀ r, (v.ctx key).xr r = (t.ctx key).xr r) ∧ v.mem = t.mem

/-- A lane that a vector load writes: its value, and a mark if some byte of it came with one (R145). -/
def LoadedLanes (c : Ctx) (ty : BitVec 3) (d : Nat) (act : Nat → Prop) (val : Nat → Nat → Prop) (clean : Nat → Prop) (c' : Ctx) : Prop :=
  ∀ r < 32, ∀ i < 256,
    (r ∈ tyRegs ty d → act i → val i (vecElem c' ty d i 0) ∧ (clean i → c'.vmark r i = 0)) ∧
    (r ∉ tyRegs ty d ∨ ¬ act i → c'.vr r i = c.vr r i ∧ c'.vmark r i = c.vmark r i)

/-- R182, R183, R185: the loads, once their window bytes have been answered. `vld`, `vlds` and `vgather` write each active lane with its
element; `vldw` widens E4M3 bytes, or KV4 integers with their scales, rounding to nearest and setting no flag. -/
def vectorLoads : Prop :=
  ∀ (key : Nat) (s s' t : State) (p : Pend) (rest : List Pend) (fn : Nat) (o : LgM) (got : List Got),
    (s.ctx key).pend = p :: rest → (s.ctx key).live = true → (s.ctx key).st ≠ .migrating → p.grant ≤ 8 → p.op = .load fn o →
    let c := s.ctx key
    let act := laneActive p o.g1
    let lanes := (List.range (32 * p.grant)).filter fun i => maskBit p.xv o.g1 i
    let base := (r182 0 o p c 0).toNat
    let scales := p.drb.toNat % 2 ^ 57
    (fn < 3 → (fn = 2 → Unmarked c [o.b.toNat] act) →
      let n := elemSize o.ty
      let ty : BitVec 3 := if o.ty = 4 then 4 else 0
      let at' := fun i => (r182 fn o p c i).toNat
      let pieces := lanes.map fun i => (at' i, n)
      (∀ i, act i → at' i % n = 0) → (windowStage key p pieces).run (clearNotes s) = .ok false s' →
      (fetch key p o.ch.toNat pieces).run s' = .ok got t →
      RetiresWith key s p 0 (LoadedLanes c ty o.d.toNat act (fun i v => v = leNat (gotBytes got (at' i, n)))
        fun i => gotClean got (at' i, n)) t) ∧
    (fn = 3 → o.ty ∈ [1, 2, 3] → pfxFmt p.pfx ∈ [4, 5] →
      let kv := pfxFmt p.pfx = 5
      let f := tyFmt o.ty
      let byteOf := fun (j : Nat) => ((base + if kv then 16 * (j / 32) + j % 32 / 2 else j) % 2 ^ 57, 1)
      let scaleOf := fun (j : Nat) => ((scales + 2 * (j / 32)) % 2 ^ 57, 2)
      let element := fun (j v : Nat) =>
        let b := leNat (gotBytes got (byteOf j))
        if kv then
          let q : ℤ := (BitVec.ofNat 4 (b / 16 ^ (j % 2))).toInt
          let sc := leNat (gotBytes got (scaleOf j))
          (sc / 2 ^ 10 % 32 = 31 → v = f.nan) ∧ (sc / 2 ^ 10 % 32 ≠ 31 → let x := q * fpValue f16 sc
            (x = 0 → v = 0) ∧ (x ≠ 0 → ∃ fl, Delivers f 0 false x (v, fl)))
        else FromE4m3 f b v
      let needs := fun (j : Nat) => gotArrived got (byteOf j) ∧ (kv → gotArrived got (scaleOf j))
      (kv → base % 16 = 0 ∧ scales % 2 = 0) → (windowStage key p (widePieces o p lanes)).run (clearNotes s) = .ok false s' →
      (fetch key p o.ch.toNat (widePieces o p lanes)).run s' = .ok got t →
      RetiresWith key s p 0 (LoadedLanes c 0 o.d.toNat act
        (fun i v => ∀ q < tyCount o.ty, let j := tyCount o.ty * i + q
          (needs j → element j (v / 2 ^ (f.width * q) % 2 ^ f.width)) ∧ (¬ needs j → v / 2 ^ (f.width * q) % 2 ^ f.width = 2 ^ f.width - 1))
        fun i => ∀ q < tyCount o.ty, let j := tyCount o.ty * i + q
          gotClean got (byteOf j) ∧ (kv → gotClean got (scaleOf j))) t)

/-- R182, R183: the stores: each active lane's element goes to its address, a higher lane's over a lower one's. -/
def vectorStores : Prop :=
  ∀ (key : Nat) (s u : State) (p : Pend) (rest : List Pend) (fn : Nat) (o : LgM),
    (s.ctx key).pend = p :: rest → (s.ctx key).live = true → (s.ctx key).st ≠ .migrating → p.grant ≤ 8 → p.op = .store fn o → fn < 3 →
    let c := s.ctx key
    let act := laneActive p o.g1
    let lanes := (List.range (32 * p.grant)).filter fun i => maskBit p.xv o.g1 i
    let n := elemSize o.ty
    let at' := fun i => (r182 fn o p c i).toNat
    let element := fun i => leBytes n (vecElem c (if o.ty = 4 then 4 else 0) o.c.toNat i 0)
    (fn = 2 → Unmarked c [o.b.toNat] act) → Unmarked c (tyRegs o.ty o.c.toNat) act → (∀ i, act i → at' i % n = 0) →
    (vecWrite key p ((clearNotes s).sourceOf key) o.str.toNat false (lanes.map fun i => (at' i, element i))).run (clearNotes s) = .ok () u →
    RetiresWith key s p 0 (fun c' => c'.v = c.v ∧ c'.vp = c.vp ∧ c'.sl = c.sl) u

/-- What an element of a block delivers in binary32 (R58), with its selector and its two scale bytes. -/
def FromShade (k elem shade hair v : Nat) : Prop :=
  let m := elem % 2 ^ k
  let e := if elem / 2 ^ k % 2 = 1 then shade else hair
  (shade = 255 ∨ hair = 255 → v = f32.nan) ∧
  (shade ≠ 255 → hair ≠ 255 → (e = 0 ∨ m = 0 → v = 0) ∧
    (e ≠ 0 → m ≠ 0 → fpFinite f32 v ∧
      fpValue f32 v = (if elem / 2 ^ (k + 1) % 2 = 1 then -1 else 1) * ((m : ℝ) / 2 ^ (k - 1)) * 2 ^ ((e : ℤ) - 127)))

/-- A number rounded to an integer, a tie to the even one. -/
def NearestInt (x : ℝ) (v : ℤ) : Prop := RoundsTo (fun y => ∃ k : ℤ, y = k) (fun y => ∃ k : ℤ, Even k ∧ y = k) 0 x v

/-- R59: the quantiser on 32 patterns of binary32: the shade and hairline bytes, the elements, and the flags. -/
def Quantises (k delta : Nat) (xs : List Nat) (r : Nat × Nat × List Nat × Flags) : Prop :=
  let isNan := fun (x : Nat) => ∃ q, f32.decode false x = .nan q
  let isInf := fun (x : Nat) => x % 2 ^ 31 = 0xFF * 2 ^ 23
  let mag := fun (j : Nat) (a : ℝ) => (isInf (xs.getD j 0) → a = (2 - 2 ^ (-23 : ℤ)) * 2 ^ 127) ∧
    (¬ isInf (xs.getD j 0) → a = |fpValue f32 (xs.getD j 0)|)
  let full : ℤ := 2 ^ k - 1
  ((∃ x ∈ xs, isNan x) → r.1 = 255 ∧ r.2.1 = 255 ∧ r.2.2.1 = List.replicate 32 0 ∧
    ((∃ x ∈ xs, f32.decode false x = .nan true) → r.2.2.2 = flagNV) ∧ ((∀ x ∈ xs, f32.decode false x ≠ .nan true) → r.2.2.2 = 0)) ∧
  ((∀ x ∈ xs, ¬ isNan x) → ∀ a : Nat → ℝ, (∀ j < 32, mag j (a j)) →
    ((∀ j < 32, a j = 0) → r = (0, 0, List.replicate 32 0, 0)) ∧
    ∀ top < 32, (∀ j < 32, a j ≤ a top) → a top ≠ 0 →
      ∃ (e u sh hl : ℤ) (qh qs : Nat → ℤ), (2 : ℝ) ^ e ≤ a top ∧ a top < 2 ^ (e + 1) ∧
        let sh0 := max 1 (min 254 (e + 127))
        NearestInt (a top * 2 ^ (k - 1) / 2 ^ (sh0 - 127)) u ∧ sh = (if u = 2 ^ k ∧ sh0 < 254 then sh0 + 1 else sh0) ∧
        hl = max (sh - delta) 1 ∧ r.1 = sh ∧ r.2.1 = hl ∧ r.2.2.1.length = 32 ∧
        (∀ j < 32, NearestInt (a j * 2 ^ (k - 1) / 2 ^ (hl - 127)) (qh j) ∧ NearestInt (a j * 2 ^ (k - 1) / 2 ^ (sh - 127)) (qs j)) ∧
        let m := fun (j : Nat) => if qh j ≤ full then qh j else min (qs j) full
        let v := fun (j : Nat) => (m j : ℝ) * 2 ^ ((if qh j ≤ full then hl else sh) - 127) / 2 ^ (k - 1)
        (∀ j < 32, (r.2.2.1.getD j 0 : ℤ) =
          (if m j = 0 then 0 else ((xs.getD j 0 / 2 ^ 31 % 2 : ℕ) : ℤ) * 2 ^ (k + 1)) + (if qh j ≤ full then 0 else 2 ^ k) + m j) ∧
        let sat := (∃ x ∈ xs, isInf x) ∨ ∃ j < 32, full < qh j ∧ full < qs j
        let inexact := ∃ j < 32, v j ≠ a j
        (sat → r.2.2.2 = flagOF ||| flagNX) ∧ (¬ sat → inexact → r.2.2.2 = flagNX) ∧ (¬ sat → ¬ inexact → r.2.2.2 = 0))

/-- The quantiser does what R59 says, with every Δ and the three formats' element widths. -/
def quantiserRule : Prop :=
  ∀ k ∈ [2, 4, 6], ∀ delta < 16, ∀ xs : List Nat, xs.length = 32 → (∀ x ∈ xs, x < 2 ^ 32) → Quantises k delta xs (quantiseSH xs k delta)

/-- The bytes of a block among the pieces that were read: its element plane and its scale pair (R57, R162). -/
def blockBytes (fmt e sc : Nat) (got : List Got) (j : Nat) : List Byte := (blockPieces fmt e sc j).flatMap (gotBytes got)

/-- Element m of such a block (R57). -/
def blockElement (fmt e sc : Nat) (got : List Got) (j m : Nat) : Nat :=
  leNat ((blockBytes fmt e sc got j).take (shBytes fmt)) / 2 ^ ((shK fmt + 2) * m) % 2 ^ (shK fmt + 2)

/-- R163 to R167: the quantising instructions, once their window bytes have been answered. `vdqsh` delivers R58's values to the active
lanes; `vqsh` and `vbaq` write each block that has an active lane as R59 quantises its 32 values: of `vqsh` the active lanes and zeros, of
`vbaq` the old values with the active lanes added, flushed under `.ftz` as operands of binary32 (log entry 70). -/
def quantising : Prop :=
  ∀ (key : Nat) (s s' t u : State) (p : Pend) (rest : List Pend) (fn : Nat) (o : LgM) (got : List Got),
    (s.ctx key).pend = p :: rest → (s.ctx key).live = true → (s.ctx key).st ≠ .migrating → p.grant ≤ 8 → p.op = .quant fn o → fn < 3 →
    let c := s.ctx key
    let act := laneActive p o.g1
    let fmt := pfxFmt p.pfx
    let e := (r182 0 o p c 0).toNat
    let sc := p.drb.toNat % 2 ^ 57
    let blocks := (List.range p.grant).filter fun j => (List.range 32).any fun m => maskBit p.xv o.g1 (32 * j + m)
    let reads := if fn = 0 then [] else blocks.flatMap (blockPieces fmt e sc)
    let shade := fun (j : Nat) => ((blockBytes fmt e sc got j).getD (shBytes fmt) 0).toNat
    let hair := fun (j : Nat) => ((blockBytes fmt e sc got j).getD (shBytes fmt + 1) 0).toNat
    let clean := fun (j : Nat) => ∀ q ∈ blockPieces fmt e sc j, gotClean got q
    let arrived := fun (j : Nat) => ∀ q ∈ blockPieces fmt e sc j, gotArrived got q
    fmt ∈ [1, 2, 3] → e % 8 = 0 → sc % 2 = 0 → (fn ≠ 1 → Unmarked c [o.b.toNat] act) →
    (do translateFirst key p reads; windowStage key p reads).run (clearNotes s) = .ok false s' →
    (fetch key p o.ch.toNat reads).run s' = .ok got t →
    (fn = 1 → RetiresWith key s p 0 (LoadedLanes c 0 o.d.toNat act
      (fun i v => let j := i / 32
        (arrived j → FromShade (shK fmt) (blockElement fmt e sc got j (i % 32)) (shade j) (hair j) v) ∧ (¬ arrived j → v = 2 ^ 32 - 1))
      fun i => clean (i / 32)) t) ∧
    (fn ≠ 1 → (fn = 2 → ∀ j ∈ blocks, clean j) →
      ∀ (old sum : Nat → Nat → Nat) (added : Nat → Nat → Flags) (q : Nat → Nat × Nat × List Nat × Flags),
      (∀ j ∈ blocks, ∀ m < 32, let i := 32 * j + m
        (fn = 0 → sum j m = if maskBit p.xv o.g1 i then (c.vr o.b.toNat i).toNat else 0) ∧
        (fn = 2 → FromShade (shK fmt) (blockElement fmt e sc got j m) (shade j) (hair j) (old j m) ∧
          (maskBit p.xv o.g1 i = true → (sum j m, added j m) = fAdd f32 (o.g2.toNat % 4) (o.g2.getLsbD 2) (old j m) (c.vr o.b.toNat i).toNat) ∧
          (maskBit p.xv o.g1 i = false → sum j m = old j m ∧ added j m = 0)) ∧ (fn = 0 → added j m = 0)) →
      (∀ j ∈ blocks, q j = quantiseSH ((List.range 32).map (sum j)) (shK fmt) (shDelta fmt (field (p.pfx.getD 0) 10 4))) →
      let bytes := fun (j : Nat) => leBytes (shBytes fmt) ((List.range 32).map fun m => (q j).2.2.1.getD m 0 * 2 ^ ((shK fmt + 2) * m)).sum ++
        [BitVec.ofNat 8 (q j).1, BitVec.ofNat 8 (q j).2.1]
      ∀ (flags : Flags), (∀ k < 5, flags.getLsbD k = true ↔ ∃ j ∈ blocks, (q j).2.2.2.getLsbD k = true ∨ ∃ m < 32, (added j m).getLsbD k = true) →
      ∀ t', (noteVec key true false reads).run t = .ok () t' →
      (vecWrite key p (t'.sourceOf key) o.str.toNat true (blocks.flatMap fun j => byteplan (blockPieces fmt e sc j) (bytes j))).run t' = .ok () u →
      RetiresWith key s p flags (fun c' => c'.v = c.v ∧ c'.vp = c.vp) u)

/-- What the vector memory instructions leave when they retire (R162 to R167, R182 to R185): the slices, the bytes that loads find and
stores leave, the loads, the stores, the quantiser and the quantising instructions. -/
def Obligations.VectorMemoryResults : Prop :=
  sliceAccesses ∧ fetchReads ∧ writesLand ∧ vectorLoads ∧ vectorStores ∧ quantiserRule ∧ quantising

/-! ### Copies, tiles, levels and the gateway -/

/-- R237, R238, R245: a copy whose shape, completion word, barrier object and follow-on command are as those rules ask enters the
engine with the fields its registers give, and its tag is the next of the core (0 is skipped), returned in xt; nothing has moved
yet. A copy of several rows reads its pitches from the registers after the shape. In a deterministic launch one whose destination
overlaps that of a copy of another queue in its cluster, byte by byte where they lie, raises CopyOverlap instead and writes
nothing (R244). That overlap is judged by the places at issue, that issue waits for the context's own posted stores, and how the
tag wraps rest on log entry 37. -/
def copyEnters : Prop :=
  ∀ p ∈ [(0, Instr.cpy), (1, Instr.cpyt), (2, Instr.cpytCow)],
  ∀ (o : ExC) (s : State) (bar : Option Nat) (fol : Option Follow), s.mayIssue s.cur = true →
    let mode := p.1
    let c := s.ctx s.cur
    let core := coreOfKey s.cur
    let w := s.x o.c
    let dims := field w 62 2
    let fmt := if c.pp then field c.pfx 0 4 else 0
    let sh := copyShape w (c.xr (o.c.toNat + 1)) (c.xr (o.c.toNat + 2))
    let tag := (s.core core).tag
    dims < 3 → field w 56 6 = 0 → (dims < 2 → field w 40 16 = 0) → (dims ≠ 0 → field w 24 16 ≠ 0) →
    o.c.toNat + dims ≤ 63 → (mode ≠ 0 → dims = 0) →
    (c.pp = true → mode = 0 ∧ o.ast = 1 ∧ (fmt = 4 ∨ fmt = 5)) → c.fetched = none →
    (∀ r, o.c.toNat ≤ r → r ≤ o.c.toNat + dims → Readable s r) → Readable s o.a.toNat → Readable s o.b.toNat →
    (o.cw = 1 → Readable s o.e.toNat ∧ Readable s o.val.toNat ∧ (s.x o.e).toNat % 8 = 0) →
    (mode ≠ 0 → Readable s o.pool.toNat ∧ (s.x o.pool).toNat % 128 = 0) → (mode = 2 → Readable s o.ring.toNat) →
    (fmt = 5 → Readable s (field c.pfx 4 6)) →
    (o.be = 0 → bar = none) →
    (o.be = 1 → Readable s o.bar.toNat ∧ ∃ place t, bar = some place ∧ let va := (s.x o.bar).toNat % 2 ^ 57
      va % 8 = 0 ∧ (va / 2 ^ 55 % 4 = 1 ∧ va / 2 ^ 52 % 8 = 1 ∨ va / 2 ^ 55 % 4 = 2 ∧ va / 2 ^ 41 % 8 = 1) ∧
      Lands s va 8 accWrite (.bank place) t) →
    (o.fe = 0 → fol = none) → (o.fe = 1 → fol ≠ none ∧ s.followOf s.cur o.fol.toNat = fol) →
    let a := if o.ast = 1 then (s.x o.a).toNat else (s.x o.a).toNat % 2 ^ 57
    let b := (s.x o.b).toNat % 2 ^ 57
    let y : Copy :=
      { id := 0, launch := c.launch, key := some s.cur, core := core, slot := slotOfKey s.cur, cl := clusterOfCore core
        tag := if tag = 0xFFFF then 1 else tag + 1, env := { s.envOf s.cur with mig := c.mig }
        x := sh.x, rows := sh.rows, planes := sh.planes, sr := sh.sr, dr := sh.dr, sp := sh.sp, dp := sh.dp
        src := if mode = 0 then b else if mode = 1 then 0 else a, dst := if mode = 2 then 0 else a, table := b
        astage := o.ast == 1, fmt := fmt, scale := if fmt = 5 then (c.xr (field c.pfx 4 6)).toNat % 2 ^ 57 else 0
        stream := o.str.toNat, mode := mode, pool := if mode = 0 then 0 else (s.x o.pool).toNat
        ring := if mode = 2 then (s.x o.ring).toNat % 2 ^ 57 else 0, bsz := o.bsz.toNat, follow := fol
        done := if o.cw = 1 then some ((s.x o.e).toNat % 2 ^ 57, s.x o.val) else none, bar := bar, next := 0, total := 0
        landed := 0, cow := [], wrote := [], req := none, stopped := false, faulted := false, queueEntry := none, node := none }
    (fmt = 5 → kv4Rows y = true) → (o.ast = 1 → stageFits y = true) →
    OrderFree s true → s.postsOut s.cur = false → s.copiesOf core < 1024 →
    let u := uncover s.cur { clearNotes s with fresh := s.fresh + 1 }
    let spans := if (s.launch c.launch).det then u.destSpans y else []
    (u.overlap y spans = none → ∃ t id, exec (p.2 o) s = .next t ∧
      t.copies = s.copies ++ [{ y with id := id, total := y.lines, spans := spans.map fun q => (q.1, q.2.1) }] ∧
      (t.core core).tag = y.tag ∧ (o.d ≠ 0 → (t.ctx s.cur).xr o.d.toNat = y.tag.setWidth 64) ∧
      (∀ r, r ≠ o.d.toNat → (t.ctx s.cur).xr r = c.xr r) ∧ (t.ctx s.cur).pc = s.pc + 16 ∧ t.mem = s.mem) ∧
    (∀ va, u.overlap y spans = some va → ∃ t, exec (p.2 o) s = .next t ∧ t.mem = s.mem ∧ (t.ctx s.cur).pc = s.pc + 16 ∧
      (t.ctx s.cur).due = c.due ++ [{ kind := .imprecise, code := 13, sub := 0, val := BitVec.ofNat 64 va, seq := y.tag,
                                      tag := true, at' := BitVec.ofNat 57 (va % 2 ^ 64) }])

/-- R237, R238, R245: a shape word with DIMS 3, a reserved bit set, no rows or a pair beyond x63 raises CoprocessorFault 0x10 with
the shape; a completion word that is not aligned raises 0x11 with its address; a 1,025th copy of a core waits. -/
def copyRefusals : Prop :=
  ∀ i ∈ [Instr.cpy, .cpyt, .cpytCow], ∀ (o : ExC) (s : State), Issues s → Readable s o.c.toNat →
    let w := s.x o.c
    let dims := field w 62 2
    (dims = 3 ∨ field w 56 6 ≠ 0 ∨ (dims ≠ 2 ∧ field w 40 16 ≠ 0) ∨ (dims ≠ 0 ∧ field w 24 16 = 0) ∨ 63 < o.c.toNat + dims →
      exec (i o) s = .next (s.traps 22 0x10 w)) ∧
    (w = 0 → Readable s o.a.toNat → Readable s o.b.toNat → o.cw = 1 → Readable s o.e.toNat → Readable s o.val.toNat →
      (s.x o.e).toNat % 8 ≠ 0 → exec (i o) s = .next (s.traps 22 0x11 (s.x o.e))) ∧
    (w = 0 → o.ast = 0 → o.cw = 0 → o.be = 0 → o.fe = 0 → Readable s o.a.toNat → Readable s o.b.toNat →
      Readable s o.pool.toNat → (s.x o.pool).toNat % 128 = 0 → Readable s o.ring.toNat → OrderFree s true →
      s.copiesOf (coreOfKey s.cur) ≥ 1024 → exec (i o) s = .next (park s.cur .again false s))

/-- R236 to R238, R243 to R246: copies at issue; and `cpyq` reads the state of the copy that a tag names, 0 where its core has
issued none under it or has issued 32,768 copies since. A context of a vacated core finds the tags and commands that it took
along first (R379; that order is the model's choice, log entry 45). -/
def Obligations.CopyIssue : Prop :=
  copyEnters ∧ copyRefusals ∧
  (∀ (key n : Nat) (s : State), (s.ctx key).origins = [] →
    s.followOf key n = Tbl.get none (s.core (coreOfKey key)).follow n) ∧
  ∀ (o : ExT) (s : State), Issues s → Readable s o.a.toNat →
    let t := (s.x o.a).toNat % 65536
    let k := s.core (coreOfKey s.cur)
    let old := ((s.ctx s.cur).origins.map fun c => Tbl.get {} (s.launch (s.ctx s.cur).launch).tables c).filter fun u =>
      Tbl.get 0 u.copies t ≠ 0
    let issued : Nat := match old with | u :: _ => u.issued | [] => k.issued
    let v : Nat := match old with | u :: _ => Tbl.get 0 u.copies t | [] => Tbl.get 0 k.copies t
    exec (.cpyq o) s = .next (s.endsExt o.toLow (·.setX o.d.toNat
      (if v = 0 ∨ issued - v / 4 ≥ 32768 then 0 else BitVec.ofNat 64 (v % 4))))

/-- Both sides of a tile that is not empty, within the package (R186 to R188): its local bytes from `place` and where each piece
of its far rows lies once every page has been translated, in the state `t`; no watchpoint matches it. -/
def TileAt (split store : Bool) (o : LgM) (s t : State) (place : Nat) (locs : List (Nat × Nat × Loc)) : Prop :=
  let a := (s.x o.a).toNat % 2 ^ 57
  let b := (s.x o.b).toNat % 2 ^ 57
  let sh := tileShape (s.x o.c)
  let far := if store then a else b
  let near := if store then b else a
  let n := sh.rows * sh.rb
  Issues s ∧ Readable s o.a.toNat ∧ Readable s o.b.toNat ∧ Readable s o.c.toNat ∧ OrderFree s true ∧ n ≠ 0 ∧
    inWindow far = false ∧ s.Keeps t ∧ NoWaiter t ∧
    (∃ s1, (tileLocal near n).run (clearNotes s) = .ok place s1 ∧ (tileFar split store (sh.pieces far)).run s1 = .ok locs t) ∧
    (∀ q ∈ sh.pieces far, watchHits t s.cur (!store) store q.1 q.2 = []) ∧ watchHits t s.cur store (!store) near n = []

/-- The place of a piece within the package, 0 for none. -/
def placeOf (l : Nat × Nat × Loc) : Nat := l.2.2.place?.getD 0

/-- What a list of writes, the later over the earlier, leaves at a place. -/
def lastWrite (ws : List (Nat × List Byte)) (q : Nat) : Option Byte :=
  ws.foldl (fun a w => if w.1 ≤ q ∧ q < w.1 + w.2.length then w.2[q - w.1]? else a) none

/-- The lines of a tile's far side, ascending: host uncached memory has none. -/
def tileLines (locs : List (Nat × Nat × Loc)) : List Nat :=
  ascending (locs.filterMap fun l => match l.2.2 with
    | .mem p mt => if mt = 3 then none else some (p / 128 * 128)
    | .bank p => some (p / 128 * 128)
    | _ => none)

/-- A `tld` gets the lines of its far side: all at once, with no tile of its context waiting, or, split, one after the other
(R190, R349); `v` is the state then. -/
def TileReads (split : Bool) (t : State) (locs : List (Nat × Nat × Loc)) (v : State) : Prop :=
  let lines := tileLines locs
  if split then (readLines (.mx (coreOfKey t.cur)) 0 lines).run t = .ok () v
  else (∀ u ∈ t.tiles, u.key ≠ t.cur) ∧ (∀ l ∈ lines, t.lineOpen t.cur false l = true) ∧
    (takeLines t.cur false lines).run t = .ok () v

/-- A `tst` gets the lines of its far side and writes its bytes there, no line making it wait: all lines at once before the
first byte moves, or, split, line by line (R190, R349). -/
def TileWrites (split : Bool) (t : State) (ws : List (Nat × List Byte)) : Prop :=
  let lines := ascending (ws.map fun w => w.1 / 128 * 128)
  let writes := fun (via : Via) => writeLines t.cur (t.ctx t.cur).priv { t.sourceOf t.cur with via := via }
    (groupCells 128 (layCells ws))
  if split then ∃ v, (writes (.mx (coreOfKey t.cur))).run t = .ok () v
  else (∀ u ∈ t.tiles, u.key ≠ t.cur) ∧ (∀ l ∈ lines, t.lineOpen t.cur true l = true) ∧
    ∃ v v', (takeLines t.cur true lines).run t = .ok () v ∧ (writes .held).run v = .ok () v'

/-- R186 to R188: an empty tile does nothing. Where no line of a tile within the package is held, `tld` fills the packed local
bytes with the far rows in order, marks and all, and `tst` writes the local bytes to the far rows, of which later ones remain;
every other byte, and every register, is as it was. `.split` does so too, and waits only for each line as it comes to it. A tile
whose far side spans two devices, or one of more than 32 lines without `.split`, raises TileSize. -/
def tiles : Prop :=
  (∀ i ∈ [Instr.tld, .tst, .tldSplit, .tstSplit], ∀ (o : LgM) (s : State), Issues s → Readable s o.a.toNat →
    Readable s o.b.toNat → Readable s o.c.toNat → OrderFree s true → (tileShape (s.x o.c)).rows * (tileShape (s.x o.c)).rb = 0 →
    exec (i o) s = .next (s.endsLong o.toLow id)) ∧
  (∀ p ∈ [(false, Instr.tld), (true, Instr.tldSplit)], ∀ (o : LgM) (s t v : State) (place : Nat) (locs : List (Nat × Nat × Loc)),
    TileAt p.1 false o s t place locs → (∀ l ∈ locs, l.2.2.place?.isSome) →
    (∀ l ∈ locs, ∀ q, l.2.2.place? = some q → t.gatewayPost s.cur q l.2.1 = false) → TileReads p.1 t locs v →
    let bs := locs.flatMap fun l => (farBytes v l).1
    let ms := locs.flatMap fun l => (farBytes v l).2
    t.OnlyCaches v ∧ ∃ u, exec (p.2 o) s = .next u ∧ (u.ctx s.cur).pc = s.pc + 12 ∧ (s.ctx s.cur).OnlyX (u.ctx s.cur) [] ∧
      (∀ i < bs.length, some (u.byte (place + i)) = bs[i]? ∧ some (u.byteMark (place + i)) = ms[i]?) ∧
      (∀ q, q < place ∨ place + bs.length ≤ q → u.byte q = t.byte q)) ∧
  (∀ p ∈ [(false, Instr.tst), (true, Instr.tstSplit)], ∀ (o : LgM) (s t : State) (place : Nat) (locs : List (Nat × Nat × Loc)),
    TileAt p.1 true o s t place locs → (∀ l ∈ locs, l.2.2.place?.isSome ∧ ∀ q, l.2.2 ≠ .mem q 3) →
    let sh := tileShape (s.x o.c)
    let rows := packedRows t place locs
    let ws := (locs.zip rows).map fun x => (placeOf x.1, x.2.2.2)
    t.firstMark place (sh.rows * sh.rb) = 0 →
    (∀ w ∈ ws, t.ownPost s.cur w.1 w.2.length = false ∧ t.gatewayPost s.cur w.1 w.2.length = false) → TileWrites p.1 t ws →
    ∃ u, exec (p.2 o) s = .next u ∧ (u.ctx s.cur).pc = s.pc + 12 ∧ (s.ctx s.cur).OnlyX (u.ctx s.cur) [] ∧
      ∀ q, u.byte q = (lastWrite ws q).getD (t.byte q)) ∧
  (∀ p ∈ [(false, false, Instr.tld), (false, true, Instr.tst), (true, false, Instr.tldSplit), (true, true, Instr.tstSplit)],
    ∀ (o : LgM) (s s1 : State) (place : Nat), Issues s → Readable s o.a.toNat → Readable s o.b.toNat → Readable s o.c.toNat →
    OrderFree s true →
    let a := (s.x o.a).toNat % 2 ^ 57
    let b := (s.x o.b).toNat % 2 ^ 57
    let sh := tileShape (s.x o.c)
    let ps := sh.pieces (if p.2.1 then a else b)
    let lines := ascending (ps.map fun q => q.1 / 128)
    sh.rows * sh.rb ≠ 0 → (tileLocal (if p.2.1 then b else a) (sh.rows * sh.rb)).run (clearNotes s) = .ok place s1 →
    let homes := (ps.map fun q => if inWindow q.1 then windowDev q.1 else 4096).eraseDups
    (homes.length > 1 → exec (p.2.2 o) s = .next (s1.traps 8 0 (BitVec.allOnes 64))) ∧
    (homes.length ≤ 1 → p.1 = false → lines.length > 32 →
      exec (p.2.2 o) s = .next (s1.traps 8 0 (BitVec.ofNat 64 lines.length))))

/-- R202: `ldsum` of no devices writes 0; of more than 256, or beyond device 2,047, it raises Aperture; where every device is
unreachable it completes with ones; else it asks every device for its word, in device order, and waits. -/
def sums : Prop :=
  ∀ (o : LgM) (s : State), Issues s → Readable s o.a.toNat → Readable s o.b.toNat → Readable s o.c.toNat → OrderFree s false →
    let va := effective s o.a o.off
    let lo := (s.x o.b).toNat
    let n := (s.x o.c).toNat
    let size := if o.ty = 1 then 4 else 8
    let word := fun (d : Nat) => va.toNat / 2 ^ 55 * 2 ^ 55 + d * 2 ^ 44 + va.toNat % 2 ^ 44
    let devs := (List.range n).map (lo + ·)
    (n = 0 → exec (.ldsum o) s = .next (s.endsLong o.toLow (·.setX o.d.toNat 0))) ∧
    (n ≠ 0 → 256 < n ∨ 2048 < lo + n → exec (.ldsum o) s = .next (s.traps 10
      (if va.toNat / 2 ^ 55 % 4 = 2 then 9 else if va.toNat / 2 ^ 55 % 4 = 1 then va.toNat / 2 ^ 52 % 8 else 10)
      (va.setWidth 64))) ∧
    (0 < n → n ≤ 256 → lo + n ≤ 2048 → inWindow va.toNat = true → va.toNat / 2 ^ 42 % 4 = 0 → va.toNat % size = 0 →
      (∀ d ∈ devs, s.lineAwaited s.cur (word d) = false ∧ s.ownWindow s.cur (word d) size = []) →
      ((∀ d ∈ devs, s.unreachable d = true ∧ watchHits s s.cur true false (word d) size = []) → peerLost s.cur lo s = none →
        exec (.ldsum o) s = .next (s.endsLong o.toLow (·.setX o.d.toNat (BitVec.allOnes 64)))) ∧
      ((∃ d ∈ devs, s.unreachable d = false) → ∃ t r, exec (.ldsum o) s = .next t ∧ t.wreqs = s.wreqs ++ [r] ∧ r.key = s.cur ∧
        r.kind = .ldsum o.ty.toNat o.g2 o.d lo n (longNext o.toLow) ∧
          r.parts = devs.map (fun d => (d, BitVec.ofNat 57 (word d), size)) ∧
        t.ctx s.cur = (park s.cur .unit false s).ctx s.cur ∧ t.mem = s.mem))

/-- R186 to R188, R202: tiles and the gather-sum. -/
def Obligations.TilesAndSums : Prop := tiles ∧ sums

/-- R248 to R251: outside an update the level instructions raise IllegalOpcode. Within one they wait while a page of the level
table is migrated or a line of it is held (R305, R307, R367), and fault where its memory is lost (R401); else, with the walks made, `lvrd` reads the block's descriptor and `lvnb`
the level of a neighbour, as an acquire at `.sy`, where the block has that neighbour. `lvnext` waits for the context's accesses;
it writes the new level and step, exchanges the pointers, clears INF, sets DONE where asked and ends the update, and a notice
leaves for each neighbour of another device (R329), unless a neighbour's level would lie 2³⁰ or more away or the operand is not
one of R251's, which leave everything as it was. -/
def levels : Prop :=
  ∀ (o : ExT) (s : State), Issues s →
    let c := s.ctx s.cur
    let l := c.launch
    let bad := (s.x o.a).toNat / 2 ^ 34 ≠ 0 ∨
      ((s.x o.a).getLsbD 32 = true ∧ ((s.x o.a).toNat % 2 ^ 32 = 0 ∨ 2 ^ 29 < (s.x o.a).toNat % 2 ^ 32))
    ((c.blk = none ∨ c.inUpdate = false) → ∀ i ∈ [Instr.lvrd o, .lvnb o, .lvnext o],
      exec i s = .next (s.traps 1 0 (s.iw.setWidth 64))) ∧
    (∀ b, c.blk = some b → c.inUpdate = true →
      (o.tail.toNat % 256 > 6 → exec (.lvrd o) s = .next (s.traps 2 0 (s.iw.setWidth 64))) ∧
      (Readable s o.a.toNat → bad → exec (.lvnext o) s = .next (s.traps 2 0 (s.iw.setWidth 64))) ∧
      (Readable s o.a.toNat → ¬ bad → ¬ Released s 5 → exec (.lvnext o) s = .next (park s.cur .again false s)) ∧
      (∀ w z u, (useTable l).run (clearNotes s) = .error (.hold w z) u → Readable s o.a.toNat →
        (o.tail.toNat % 256 ≤ 6 → exec (.lvrd o) s = .next (park s.cur w z u)) ∧ exec (.lvnb o) s = .next (park s.cur w z u) ∧
        (¬ bad → Released s 5 → exec (.lvnext o) s = .next (park s.cur w z u))) ∧
      (∀ f u, (useTable l).run (clearNotes s) = .error (.trap f) u → Readable s o.a.toNat →
        let faults := Host.Outcome.next (takeTrap s.cur s.pc s.pc f (clearNotes u))
        (o.tail.toNat % 256 ≤ 6 → exec (.lvrd o) s = faults) ∧ exec (.lvnb o) s = faults ∧
        (¬ bad → Released s 5 → exec (.lvnext o) s = faults)) ∧
      (∀ u, (useTable l).run (clearNotes s) = .ok () u → s.Keeps u →
        let done := fun (g : State → State) (v : State) =>
          Host.Outcome.next (complete (s.pc + 16) (o.yld == 1) o.dly.toNat (g v))
        (∀ sel v, o.tail.toNat % 256 = sel → [u.desc l b 0x20 8, u.desc l b 0x28 8, u.desc l b 9 1 % 32, u.desc l b 0x30 8,
            u.desc l b 0x10 4, u.desc l b 8 1 % 8, u.desc l b 0xE 1 * 65536 + u.desc l b 0xC 2][sel]? = some v →
          exec (.lvrd o) s = done (fun u => u.modCtx s.cur (·.setX o.d.toNat (BitVec.ofNat 64 v))) u) ∧
        (Readable s o.a.toNat →
          let x := s.x o.a
          let nbs := u.neighbours l b
          (nbs.length ≤ x.toNat → exec (.lvnb o) s = .next (u.traps 22 0x20 x)) ∧
          (∀ n, nbs[x.toNat]? = some n → exec (.lvnb o) s = done (fun t =>
            (acquireCtx s.cur 5 t).modCtx s.cur (·.setX o.d.toNat ((u.neighbour l n).1.signExtend 64))) u) ∧
          let level := BitVec.ofNat 32 (u.desc l b 0 4 + u.desc l b 4 4)
          let wide := fun n => 2 ^ 30 ≤ (level - (u.neighbour l n).1).toInt.natAbs
          (¬ bad → Released s 5 → (∃ n ∈ nbs, wide n) →
            exec (.lvnext o) s = .next (u.traps 15 (u.desc l b 8 1 % 8) (BitVec.ofNat 64 b))) ∧
          (∀ v, (useDesc l b).run u = .ok () v → s.Keeps v → ¬ bad → Released s 5 → (∀ n ∈ nbs, ¬ wide n) →
            exec (.lvnext o) s = done (fun t =>
              let t := setDesc l b 0 (leBytes 4 level.toNat ++
                leBytes 4 (if x.getLsbD 32 then x.toNat % 2 ^ 32 else u.desc l b 4 4 % 2 ^ 32)) t
              let t := setDesc l b 0x20 (leBytes 8 (u.desc l b 0x28 8) ++ leBytes 8 (u.desc l b 0x20 8)) t
              let t := setBlockBits l b false (t.blockDone l b || x.getLsbD 33) t
              let away := (t.neighbours l b).filter fun n => n.1 && !t.unreachable n.2.1
              let notes := away.map fun n => Outward.notice n.2.1 b (t.level l b) (t.step' l b) (t.blockDone l b)
              let t := { t with outbox := t.outbox ++ notes }
              raiseFloor l (t.modCtx s.cur fun c => { c with inUpdate := false })) v))))

/-- R255, R337: off a gateway core `gwq` raises IllegalOpcode. A take returns the oldest ready block with its source device, or
in a deterministic launch the block whose index is next, and removes it; with none to return it waits x[a] clocks with its hints
(R87), or returns all ones at once where that is 0; that such a wait is Held is the model's choice (log entry 59). A count returns how many blocks are ready. -/
def gateways : Prop :=
  ∀ (o : ExT) (s : State), Issues s →
    let core := coreOfKey s.cur
    let k := s.core core
    (gatewayCore core = false → ∀ i ∈ [Instr.gwqTake o, .gwqCount o],
      exec i s = .next (s.traps 1 0 (s.iw.setWidth 64))) ∧
    (gatewayCore core = true →
      exec (.gwqCount o) s = .next (s.endsExt o.toLow (·.setX o.d.toNat (BitVec.ofNat 64 k.gready.length))) ∧
      (Readable s o.a.toNat →
        let next := if (s.ctx s.cur).det then (if Tbl.get 0 k.gready k.gnext = 0 then none else some k.gnext) else k.gqueue.head?
        (∀ b, next = some b → ∃ u, exec (.gwqTake o) s = .next u ∧ (u.ctx s.cur).pc = s.pc + 16 ∧
          (o.d ≠ 0 → (u.ctx s.cur).xr o.d.toNat = BitVec.ofNat 64 (b + (Tbl.get 0 k.gready b - 1) * 2 ^ 32)) ∧
          Tbl.get 0 (u.core core).gready b = 0 ∧ b ∉ (u.core core).gqueue ∧
          ((s.ctx s.cur).det = true → (u.core core).gnext = if k.gnext + 1 < field k.gwrx 32 16 then k.gnext + 1 else 0) ∧
          u.mem = s.mem) ∧
        (next = none → s.x o.a = 0 → exec (.gwqTake o) s = .next (s.endsExt o.toLow (·.setX o.d.toNat (BitVec.allOnes 64)))) ∧
        (next = none → s.x o.a ≠ 0 → (∀ r n y d, (s.ctx s.cur).wait ≠ .gateway r n y d) →
          exec (.gwqTake o) s = .next
            (park s.cur (.gateway o.d (s.clock + (s.x o.a).toNat) (o.yld == 1) o.dly.toNat) false s))))

/-! ### What keeps an event waiting -/

/-- Nothing keeps a write of the device from its line: no tile, request, waiting access or host holds one, every link can be
used, and no such write waits (R269, R273, R307). -/
def Unhindered (s : State) : Prop :=
  s.late = [] ∧ s.tiles = [] ∧ s.reqs = [] ∧ s.misses = [] ∧ (∀ e ∈ s.dir, e.2.hosted = false) ∧ ∀ d n, s.linkStuck d n = false

/-- No line-watch unit is armed, so that no write of the device wakes a context (R285). -/
def Unwatched (s : State) : Prop := ∀ line, s.lineWatched line = false

/-- What an event whose accesses must wait comes to: its requests wait at the queues from there on, and it does nothing else
(R307, R347; log entry 1). -/
def WaitsOn (r : Outcome) (s s' : State) : Prop :=
  if keepMisses s s' = s then r = .refused .notEnabled else r = .next (keepMisses s s')

/-! ### Device registers -/

/-- What the host's write of a plain register leaves it reading, by offset (R353, R354, R370, R380, R384, R402 to R408, R282,
R285). -/
def registerAfter (off : Nat) (old v : Word) : Option Word :=
  let n := v.toNat
  if off = 0x008 ∨ off = 0x040 then some (BitVec.ofNat 64 (n % 2 ^ 32))
  else if off = 0x010 then some (BitVec.ofNat 64 (n / 2 ^ 12 % 2 ^ 45 * 2 ^ 12))
  else if off = 0x050 then some (if 1 ≤ n % 256 ∧ n % 256 ≤ 254 then BitVec.ofNat 64 (n % 256) else old)
  else if off = 0x058 ∨ off = 0x700008 then some (if n % 2 ^ 32 = 0 then old else BitVec.ofNat 64 (n % 2 ^ 32))
  else if off = 0x068 then some (BitVec.ofNat 64 (n % 1024))
  else if off = 0x0C8 then some (BitVec.ofNat 64 (n % 2 ^ 52))
  else if off = 0x700010 then some (BitVec.ofNat 64 (n / 32 % 2 ^ 47 * 32))
  else if off = 0x700018 then some (BitVec.ofNat 64 (n % 2 ^ 12))
  else if off = 0x700020 then some (BitVec.ofNat 64 (n % 2 ^ 52))
  else if off ∈ [0x000, 0x060, 0x070] then some old
  else if 0x500000 = off ∨ off = 0x600000 then some (BitVec.ofNat 64 (n / 8 % 2 ^ 49 * 8))
  else if 0x500008 = off ∨ off = 0x600008 then some (BitVec.ofNat 64 (n / 2 ^ 12 % 2 ^ 40 * 2 ^ 12))
  else match regAt off with
    | .watch _ _ 0x00 => some (BitVec.ofNat 64 (n / 128 % 2 ^ 45 * 128))
    | .watch _ _ 0x10 => some old
    | .rblog _ => some old
    | .ctvec _ => some (BitVec.ofNat 64 (n / 64 % 2 ^ 51 * 64))
    | .waddr _ _ => some (BitVec.ofNat 64 (n % 2 ^ 57))
    | .wctl _ _ => some (if n / 256 % 16 > 12 then old else v &&& 0x7FF0F07#64)
    | .mgov _ => some (let w := n / 2 ^ 16 % 2 ^ 10
                       let b := n % 2 ^ 10
                       if w < 16 ∨ b = 0 ∨ b > w then old else BitVec.ofNat 64 (w * 2 ^ 16 + b))
    | _ => none

/-- R352 with the register tables: the host's write of a register leaves it reading as its table says, whatever it held before,
and changes no byte of memory and no context; one that is not aligned to 8 has no effect. The host reaches the device through
M0: nothing of it arrives once M0 is lost (R401). -/
def hostWrites : Prop :=
  ∀ (off : Nat) (v : Word) (s : State),
    ((s.die 4).dead = true → exec (.registerWrite off v) s = .refused .notEnabled) ∧
    ((s.die 4).dead = false →
    (off % 8 ≠ 0 → exec (.registerWrite off v) s = .next s) ∧
    (∀ w, off % 8 = 0 → off < 0x800000 → registerAfter off (regRead s off) v = some w →
      ∃ t, exec (.registerWrite off v) s = .next t ∧ regRead t off = w ∧ t.mem = s.mem ∧ t.ctxs = s.ctxs))

/-- R356, R355: QTAIL of an Idle or Running queue takes the new tail, and one that lies more than 2^SZ entries ahead of the head
leads to Error; in a switching state the shadow takes it. QCTL with EN = 1 enables a Disabled queue; EN = 0 disables an Idle,
Error, Running or Switched out one, whose launch it aborts: that queue is Disabled once every memory write of the entry has been
performed (R308). That the progress word still counts the entry at an abort rests on log entry 49. -/
def queueWrites : Prop :=
  ∀ (q : Nat) (v : Word) (s : State), q < 64 → (s.die 4).dead = false →
    let u := s.queue q
    let tail : BitVec 32 := v.setWidth 32
    let far := decide (2 ^ u.sz < (tail - u.head).toNat)
    (∃ t, exec (.qtailWrite q v) s = .next t ∧ (∀ p, p ≠ q → t.queue p = s.queue p) ∧ t.mem = s.mem ∧
      (u.st = .idle → t.queue q = { u with tail := tail, st := if far then .error else .idle }) ∧
      (u.st = .running → t.queue q = { u with tail := tail, errorNext := u.errorNext || far }) ∧
      (u.st = .switchingOut ∨ u.st = .switchedOut ∨ u.st = .switchingIn → t.queue q = { u with shadow := tail, shadowed := true }) ∧
      (u.st = .disabled ∨ u.st = .error → t.queue q = { u with tail := tail })) ∧
    (∃ t, exec (.qctlWrite q v) s = .next t ∧
      (u.st = .disabled → (t.queue q).ctlq = v.getLsbD 7 ∧
        (t.queue q).sz = (let n := v.toNat / 2 ^ 16 % 32; if 4 ≤ n ∧ n ≤ 20 then n else u.sz) ∧
        (t.queue q).st = (if v.getLsbD 0 then .idle else .disabled) ∧ t.mem = s.mem) ∧
      (v.getLsbD 0 = false → u.st ∈ [QState.idle, .error] →
        (t.queue q).st = .disabled ∧ (t.queue q).en = false ∧ t.mem = s.mem) ∧
      (v.getLsbD 0 = false → (u.st = .running ∧ u.closing = false) ∨ u.st = .switchedOut →
        (t.queue q).en = false ∧ t.queueLaunches q = [] ∧
        ((t.queue q).st = .disabled ∧ (t.queue q).progress = u.progress + 1 ∨
          (t.queue q).st = u.st ∧ (t.queue q).closing = true ∧ t.settled q = false)) ∧
      (v.getLsbD 0 = false → u.st = .running → u.closing = true →
        (t.queue q).en = false ∧ (t.queue q).st = .running ∧ (t.queue q).closing = true ∧ t.mem = s.mem) ∧
      (v.getLsbD 0 = true → u.st ≠ .disabled →
        t.queue q = { u with prio := v.toNat / 2 % 4, eprio := min u.eprio (v.toNat / 2 % 4) } ∧ t.mem = s.mem))

/-- Whether a translation-cache entry survives an invalidation of a kind (R369). -/
def r369 (kind asid va : Nat) (t : TlbEnt) : Bool :=
  let hit := va / 2 ^ t.size * 2 ^ t.size == t.va
  let mine := t.asid == asid
  let glob := t.leaf.getLsbD 59
  match kind with
  | 0 => false
  | 1 => !mine || glob
  | 2 => !(hit && (mine || glob))
  | _ => !hit

/-- R369: GO with a kind removes from every translation cache and walk cache what the table says; BUSY is set until the accesses
that used those entries have been performed, and a GO meanwhile removes nothing. Which posted stores those are is the model's
reading (log entry 66). -/
def invalidations : Prop :=
  (∀ p ∈ [(0, Instr.tlbiAll), (1, .tlbiAsid), (2, .tlbiPageAsid), (3, .tlbiPageAll)], ∀ (v : Word) (s : State),
    let asid := v.toNat / 2 ^ 16 % 2 ^ 16
    let va := (s.reg 0x10).toNat / 2 ^ 12 % 2 ^ 45 * 2 ^ 12
    (¬ (v.getLsbD 0 = true ∧ v.toNat / 2 % 4 = p.1) → exec (p.2 v) s = .refused .notEnabled) ∧
    (v.getLsbD 0 = true → v.toNat / 2 % 4 = p.1 → (s.die 4).dead = false → ∃ t, exec (p.2 v) s = .next t ∧ t.tlbiBusy = true ∧
      t.mem = s.mem ∧ t.ctxs = s.ctxs ∧
      (s.tlbiBusy = true → t.cores = s.cores ∧ t.clusters = s.clusters) ∧
      (s.tlbiBusy = false → t.tlbiPosts = (s.posts.filter (s.postUsed p.1 asid va)).map (·.id) ∧
        (∀ k, (t.core k).dtlb = (s.core k).dtlb.filter (r369 p.1 asid va)) ∧
        (∀ k, (t.cluster k).tlb = (s.cluster k).tlb.filter (r369 p.1 asid va) ∧
          (t.cluster k).walk = (s.cluster k).walk.filter fun w =>
            (p.1 == 1 || p.1 == 2) && w.asid != asid)))) ∧
  (∀ s : State,
    (s.tlbiBusy = true → (∀ p ∈ s.posts, p.id ∈ s.tlbiPosts → p.st ≠ .waiting ∧ p.st ≠ .sent) →
      (∀ u ∈ s.tiles, u.key ∉ s.tlbiTiles) →
      exec .tlbiDone s = .next { s with tlbiBusy := false, tlbiPosts := [], tlbiTiles := [] }) ∧
    (s.tlbiBusy = false ∨ (∃ p ∈ s.posts, p.id ∈ s.tlbiPosts ∧ p.st = .sent) → exec .tlbiDone s = .refused .notEnabled))

/-- R370, R371: GO, through M0 (R401), is refused with RES 2 for a bad frame or type and RES 1 for an entry that is no leaf of it, as a
lost one is (log entry 66); else the leaf's MIG is set and the engine is BUSY. The read of the leaf and the write of MIG are one
access at its home (R305), which waits, and nothing of it happens, while the line cannot be written there. When the migration is
done the bytes of the old frame stand in the new, the leaf names the new frame and its type with MIG clear, in one write, and BUSY
is 0. -/
def migrations : Prop :=
  ∀ (m : Nat) (v : Word) (s : State), m < 2 →
    let e := Tbl.get {} s.engines m
    let ctl := v &&& 0x1E#64
    let leaf := BitVec.ofNat 64 (leNat (s.bytes e.pte.toNat 8))
    (v.getLsbD 0 = false → exec (.migrate m v) s = .refused .notEnabled) ∧
    ((s.die 4).dead = true → exec (.migrate m v) s = .refused .notEnabled) ∧
    (v.getLsbD 0 = true → e.busy = false → (s.die 4).dead = false → ∃ t, exec (.migrate m v) s = .next t ∧
      (migrateOK ctl e.dst = false → (Tbl.get {} t.engines m).res = 2 ∧ (Tbl.get {} t.engines m).busy = false ∧ t.mem = s.mem) ∧
      (migrateOK ctl e.dst = true →
        let waits := homed e.pte.toNat = true ∧
          (s.lineWaits .home e.pte.toNat = true ∨ ∃ w ∈ s.late, lineOf w.place = lineOf e.pte.toNat)
        let bad := leaf.getLsbD 0 = false ∨ leaf.getLsbD 1 = true ∨ leaf.getLsbD 60 = true ∨ 1 < leaf.toNat / 2 ^ 9 % 8
        (s.lostPhys e.pte.toNat = true ∨ (¬ waits ∧ bad) → (Tbl.get {} t.engines m).res = 1 ∧
          (Tbl.get {} t.engines m).busy = false ∧ t.mem = s.mem) ∧
        (s.lostPhys e.pte.toNat = false → waits → (Tbl.get {} t.engines m).busy = true ∧
          (Tbl.get {} t.engines m).asks = true ∧ t.mem = s.mem) ∧
        (s.lostPhys e.pte.toNat = false → ¬ waits → ¬ bad →
          (Tbl.get {} t.engines m).busy = true ∧ (Tbl.get {} t.engines m).asks = false ∧
          leNat (t.bytes e.pte.toNat 8) = leaf.toNat + 2 ^ 60 ∧
          ∀ p, p < e.pte.toNat ∨ e.pte.toNat + 8 ≤ p → t.byte p = s.byte p))) ∧
    (let k := if e.ctl.getLsbD 1 then 0x200000 else 0x1000
     let src := leaf.toNat / 2 ^ 12 % 2 ^ 40 * 4096 / k * k
     let d := e.dst.toNat
     (e.busy = false ∨ e.asks = true → exec (.migrationDone m) s = .refused .notEnabled) ∧
     (e.busy = true → e.asks = false → Memory.wf s.mem = true → s.framesFree src d k = true → s.writeWaits .home e.pte.toNat = false →
       (∀ w ∈ s.late, lineOf w.place ≠ lineOf e.pte.toNat) →
       (∀ p ∈ s.posts, p.st = .lost ∨ p.marker.isSome = true ∨ p.dest < 2048 ∨ p.place < src ∨ src + k ≤ p.place) →
       (e.pte.toNat + 8 ≤ d ∨ d + k ≤ e.pte.toNat) → ∃ t, exec (.migrationDone m) s = .next t ∧
       (Tbl.get {} t.engines m).busy = false ∧ (Tbl.get {} t.engines m).res = 0 ∧ (∀ i < k, t.byte (d + i) = s.byte (src + i)) ∧
       (let w := BitVec.ofNat 64 (leNat (t.bytes e.pte.toNat 8))
        w.toNat / 2 ^ 12 % 2 ^ 40 = d / 4096 % 2 ^ 40 ∧ w.toNat / 2 ^ 9 % 8 = e.ctl.toNat / 4 % 8 ∧ w.getLsbD 60 = false ∧
        w.toNat % 2 ^ 9 = leaf.toNat % 2 ^ 9) ∧
       ∀ p, (p < d ∨ d + k ≤ p) → (p < e.pte.toNat ∨ e.pte.toNat + 8 ≤ p) → t.byte p = s.byte p))

/-- R284, R285, R348, R234, R335, R384, R397, R398, R381, R405: the register writes with a behaviour of their own. LWCTL with EN
recalls the copies of its line, where no tile holds that line and no request to it is in progress, and the host is asked for the
half that it owns (log entry 64). A cleared SLQHW restarts from the occupancy, which the end of the clock counts: the entries
held, and those of requests that were over within it (log entry 1). The ignored writes of GWRX rest on log entry 55, and a write
of LWADDR while EN is 1 on log entry 64. -/
def unitWrites : Prop :=
  (∀ (cl : Nat) (v : Word) (s : State), cl < 256 → (s.die 4).dead = false → ∃ t, exec (.mgovWrite cl v) s = .next t ∧
    t.mem = s.mem ∧
    let w := v.toNat / 2 ^ 16 % 2 ^ 10
    let b := v.toNat % 2 ^ 10
    (t.cluster cl).mgov = if w < 16 ∨ b = 0 ∨ b > w then (s.cluster cl).mgov else BitVec.ofNat 64 (w * 2 ^ 16 + b)) ∧
  (∀ (die u : Nat) (v : Word) (s : State), die < 4 → u < 8 → (s.die 4).dead = false →
    let line := (Tbl.get 0 (s.die die).lwaddr u).toNat / 128 % 2 ^ 45 * 128
    let ok := homeDie line = some die ∧ (physKind line = some 0 ∨ physKind line = some 1)
    (∃ t, exec (.lwctlWrite die u v) s = .next t ∧ t.mem = s.mem ∧
      Tbl.get 0 (t.die die).lwctl u = v &&& (if ok then 0x13FFF#64 else 0x13FFE#64) ∧
      (v.getLsbD 0 = true → ok → s.tileHolds line = false → s.lineBusy line = false →
        (∀ d < 4, t.dieLine d line ≤ 1) ∧ ((∃ d < 4, 2 ≤ s.dieLine d line) → (t.dirOf line).owner = none) ∧
        ∀ pa ∈ [line, line + 64], (s.dirOf line).hostAt pa = .owned → pa ∈ t.snoops)) ∧
    (∃ t, exec (.lwcntClear die u v) s = .next t ∧ t.mem = s.mem ∧
      Tbl.get 0 (t.die die).lwcnt u = if v = 0 then 0 else Tbl.get 0 (s.die die).lwcnt u)) ∧
  (∀ (die sl reg : Nat) (v : Word) (s : State), die < 4 → sl < 16 → reg < 3 → (s.die 4).dead = false →
    ∃ t, exec (.sliceCounterClear die sl reg v) s = .next t ∧ t.mem = s.mem ∧
      let e := Tbl.get {} (s.die die).slices sl
      Tbl.get {} (t.die die).slices sl = if v ≠ 0 then e else
        { req := if reg = 0 then 0 else e.req, high := if reg = 1 then 0 else e.high
          full := if reg = 2 then 0 else e.full, now := e.now }) ∧
  (∀ (die sl : Nat) (s : State),
    let u := settle s
    let e := Tbl.get {} (u.die die).slices sl
    let n := min 16 (u.slotsUsed die sl + e.now)
    Tbl.get {} ((tick s).die die).slices sl = { e with
      now := 0, high := max e.high n, full := if n = 16 ∧ e.full ≠ BitVec.allOnes 64 then e.full + 1 else e.full }) ∧
  (∀ (core : Nat) (v : Word) (s : State), core < 2048 → (s.die 4).dead = false →
    (∃ t, exec (.ctvecWrite core v) s = .next t ∧ t.mem = s.mem ∧
      (t.core core).tvec = BitVec.ofNat 64 (v.toNat / 64 % 2 ^ 51 * 64)) ∧
    (gatewayCore core = true → ∃ t, exec (.gwrxWrite core v) s = .next t ∧ t.mem = s.mem ∧
      let o := v.toNat % 2 ^ 26
      let bs := 2 ^ (v.toNat / 2 ^ 48 % 16 + 7)
      let len := v.toNat / 2 ^ 32 % 2 ^ 16 * bs
      (2 ^ 26 < o + len ∨ o % bs ≠ 0 ∨ 13 < v.toNat / 2 ^ 48 % 16 → t = s) ∧
      (v.toNat / 2 ^ 48 % 16 ≤ 13 → o + len ≤ 2 ^ 26 → o % bs = 0 → (∀ p ∈ s.cores, p.1 = core ∨ p.1 / 512 ≠ core / 512) →
        (t.core core).gwrx = v &&& 0x000FFFFF03FFFFFF#64 ∧ (t.core core).gready = [] ∧ (t.core core).gqueue = [] ∧
        (t.core core).gcount = [] ∧ (t.core core).gdone = [] ∧ (t.core core).gnext = 0))) ∧
  (∀ (n : Nat) (v : Word) (s : State), n < 32 → (s.die 4).dead = false → (∀ r ∈ s.wreqs, ∀ p ∈ r.parts, p.1 / 64 ≠ n) →
    (∀ p ∈ s.posts, p.dest / 64 ≠ n) → (∀ p ∈ s.peerPosts, p.dev / 64 ≠ n) →
    let named := fun (dev : Nat) => dev / 64 = n ∧ v.getLsbD (dev % 64) = true
    (∃ t, exec (.plsetWrite n v) s = .next t ∧ ∀ dev, (t.isLost dev = true ↔ s.isLost dev = true ∨ named dev)) ∧
    (∃ t, exec (.plostClear n v) s = .next t ∧ t.mem = s.mem ∧
      ∀ dev, (t.isLost dev = true ↔ s.isLost dev = true ∧ ¬ named dev))) ∧
  (∀ (p : Nat) (v : Word) (s : State), p < 24 → (s.die 4).dead = false → ∃ t, exec (.portWrite p v) s = .next t ∧ t.mem = s.mem ∧
    let old := s.reg (0x700100 + 8 * p)
    let w := t.reg (0x700100 + 8 * p)
    w.toNat / 2 ^ 12 % 16 = v.toNat / 2 ^ 12 % 16 ∧ w.toNat / 2 ^ 16 = old.toNat / 2 ^ 16 ∧
      w.toNat / 2 ^ 10 % 4 = old.toNat / 2 ^ 10 % 4 ∧
    w.toNat % 2 ^ 10 = (if (∃ i < 5, v.toNat / 4 ^ i % 4 = 3) ∨ (v.getLsbD 15 = true ∧ ∃ i < 5, v.toNat / 4 ^ i % 4 < 2)
      then old.toNat % 2 ^ 10 else v.toNat % 2 ^ 10)) ∧
  (∀ (v : Word) (s : State), (s.die 4).dead = false → let u : BitVec 32 := v.setWidth 32
    ∃ t, exec (.rmaddWrite v) s = .next t ∧
      (unitRetirable u = false ∨ (∃ r ∈ s.repair, r.unit = u) → t = s) ∧
      (unitRetirable u = true → (∀ r ∈ s.repair, r.unit ≠ u) → s.repair.length < 1024 →
        t.repair = s.repair ++ [{ unit := u, cause := 3, act := false }]))

/-- R352 to R356, R369 to R371 and the registers of the units: what a register write does, by the host's plain write and by the
writes that have a behaviour of their own. -/
def Obligations.RegisterWrites : Prop := hostWrites ∧ queueWrites ∧ invalidations ∧ migrations ∧ unitWrites

/-! ### Events of contexts -/

/-- R27, R43: the trap that a context takes at a boundary is that of an instruction that completed where one is due, else an
imprecise one, else the oldest, and this holds for those that R28 has kept too (log entry 69); its waiting instruction is
abandoned, and it is due no more. R394: a rollback that is due and whose members can be stopped gives every member back its
checkpoint, writes the logged bytes back, and enters the trap in the member that trapped; until that one's `eret` a further fault
of its handler is fatal. It waits for a vacate or a switch of its launch, and for a member on a vacated core (R396). -/
def trapEvents : Prop :=
  (∀ (key : Nat) (s : State) (f : Trap),
    let d := (s.ctx key).due
    (s.trapDue key = false → exec (.trapEntry key) s = .refused .notEnabled) ∧
    (s.trapDue key = true →
      (d.find? (·.kind == .after) = some f ∨
        (∀ t ∈ d, t.kind ≠ .after) ∧ (d.find? (·.kind == .imprecise) = some f ∨
          (∀ t ∈ d, t.kind ≠ .imprecise) ∧ d.head? = some f)) →
      exec (.trapEntry key) s = .next (takeTrap key (s.ctx key).pc (s.ctx key).pc f
        ((abandonWait key s).modCtx key fun c => { c with due := c.due.erase f })))) ∧
  (∀ (key : Nat) (s : State) (g : Group) (f : Trap) (rest : List Trap),
    let l := (s.ctx key).launch
    let ms := s.teamMembers l g
    let mine := fun (u : Undo) => u.launch = l ∧ u.team = g.g
    s.teamOf key = some g → (s.ctx key).due = f :: rest → (s.ctx key).rolling = true → (s.ctx key).rollDue = true →
    s.preempted l = false → (∀ k ∈ ms, (s.ctx k).st ≠ .absent) →
    (∀ k ∈ ms, k ≠ key → ((s.ctx k).priv = 0 ∨ (s.ctx k).rolling = true) ∧ s.accessWaits k = false) →
    g.g ∉ (s.launch l).uncovered → (∀ k ∈ ms, (s.die (dieOfCore (coreOfKey k))).dead = false) →
    (∀ p ∈ s.clusters, (l, g.g) ∉ p.2.ovf) → (s.ctx key).grant = 0 → (∀ k ∈ ms, ∃ c, (s.ctx k).check = some c) →
    (∀ a b u v, u ∈ (s.cluster a).undo → v ∈ (s.cluster b).undo → mine u → mine v → u.place % 8 = 0 ∧ u.bytes.length = 8 ∧
      (u.place = v.place → u.bytes = v.bytes)) →
    ∃ t, exec (.rollback key) s = .next t ∧
      (∀ k ∈ ms, ∀ c, (s.ctx k).check = some c → (t.ctx k).x = c.x ∧ (t.ctx k).pfx = c.pfx ∧ (t.ctx k).pend = [] ∧
        (t.ctx k).v = [] ∧ (t.ctx k).sl = [] ∧ (t.ctx k).ring = [] ∧ (t.ctx k).grant = (s.ctx k).grant ∧
        (k ≠ key → (t.ctx k).pc = c.pc ∧ (t.ctx k).sr = c.sr ∧ (t.ctx k).rolling = true) ∧
        (k = key → (t.ctx k).epc = c.pc &&& ~~~3#57 ∧ (t.ctx k).etval = f.val ∧ field (t.ctx k).ecause 0 8 = f.code.toNat ∧
          (t.ctx k).priv = 1 ∧ (t.ctx k).rolled = true)) ∧
      (∀ cl, ∀ u ∈ (s.cluster cl).undo, mine u → ∀ i < 8, some (t.byte (u.place + i)) = u.bytes[i]?) ∧
      ∀ p, (∀ cl, ∀ u ∈ (s.cluster cl).undo, mine u → p < u.place ∨ u.place + 8 ≤ p) → t.byte p = s.byte p) ∧
  (∀ (key : Nat) (s : State) (g : Group), s.teamOf key = some g →
    (s.preempted (s.ctx key).launch = true ∨ ∃ k ∈ s.teamMembers (s.ctx key).launch g, (s.ctx k).st = .absent) →
    exec (.rollback key) s = .refused .notEnabled) ∧
  (∀ (key : Nat) (s : State) (g : Group) (epc pc : Va) (f : Trap), s.teamOf key = some g → s.rollAhead key = false →
    (∃ k ∈ s.teamMembers (s.ctx key).launch g, (s.ctx k).rolled = true) → (s.ctx key).priv ≠ 0 → f.kind = .precise →
    takeTrap key epc pc f s = fatal key (f.pc.getD pc) f s)

/-- R87: a yield hint ends, and the delay that goes with it goes on alone; a delay hint ends, and a yield that goes with it goes
on alone. R255: a take that has waited its clocks returns all ones, and goes on under its hints, where no block is there for it
or has been completed (log entries 1 and 59). R98: a word that no map lists
raises IllegalOpcode. -/
def hintEvents : Prop :=
  (∀ (key n : Nat) (s : State),
    ((s.ctx key).wait = .hint true 0 → exec (.yieldExpiry key) s = .next (s.modCtx key Ctx.wake)) ∧
    ((s.ctx key).wait = .hint true (n + 1) →
      exec (.yieldExpiry key) s = .next (s.modCtx key fun c => { c with wait := .hint false (n + 1) }) ∧
      exec (.delayExpiry key) s = .next (s.modCtx key fun c => { c with wait := .hint true 0 })) ∧
    ((s.ctx key).wait = .hint false (n + 1) → exec (.delayExpiry key) s = .next (s.modCtx key Ctx.wake)) ∧
    ((∀ y m, (s.ctx key).wait ≠ .hint y m) → exec (.yieldExpiry key) s = .refused .notEnabled ∧
      exec (.delayExpiry key) s = .refused .notEnabled)) ∧
  (∀ (key u dly : Nat) (rd : BitVec 6) (yld : Bool) (s : State), (s.ctx key).wait = .gateway rd u yld dly →
    (s.ctx key).live = true → (s.ctx key).st ≠ .migrating → (s.ctx key).fetched = none →
    let k := s.core (coreOfKey key)
    let block := if (s.ctx key).det then Tbl.get 0 k.gready k.gnext ≠ 0 else k.gqueue ≠ []
    (s.clock < u ∨ block ∨ k.gdone ≠ [] → exec (.gwqTakeTimeout key) s = .refused .notEnabled) ∧
    (u ≤ s.clock → ¬ block → k.gdone = [] → ∃ t, exec (.gwqTakeTimeout key) s = .next t ∧ (t.ctx key).pc = (s.ctx key).pc + 16 ∧
      (t.ctx key).xr rd.toNat = (if rd = 0 then 0 else BitVec.allOnes 64) ∧ t.mem = s.mem ∧
      ((s.ctx key).st = .held → if yld = false ∧ dly = 0 then (t.ctx key).st = .ready ∧ (t.ctx key).wait = .none
        else (t.ctx key).st = .held ∧ (t.ctx key).wait = .hint yld dly))) ∧
  (∀ s : State, s.mayIssue s.cur = true → exec .illegalOpcode s = .next (s.traps 1 0 (s.iw.setWidth 64)))

/-- R317, R318: a core with two ready contexts more than the lightest core of its cluster sends its least recently issued movable
helper to the lowest free slot there; another check does nothing. Retired cores count among those of the cluster (log entry 71). A
helper whose posted stores are acknowledged arrives with its registers, prefix, lanes and pc, and its old slot is Free; on a
gated core it is Gated (R311). Its mailbox takes up the messages of its new slot (log entry 68). -/
def moveEvents : Prop :=
  (∀ (core : Nat) (s : State), core < 2048 →
    let j := s.lightest (clusterOfCore core)
    (∀ n k, s.freeSlot j 0 = some n → s.leastRecent (s.movable core) = some k → s.readyCount core ≥ s.readyCount j + 2 →
      exec (.migrationCheck core) s = .next (s.modCtx k fun c => { c with st := .migrating, moving := some (keyOf j n) })) ∧
    (s.freeSlot j 0 = none ∨ s.leastRecent (s.movable core) = none ∨ s.readyCount core < s.readyCount j + 2 →
      exec (.migrationCheck core) s = .next s)) ∧
  (∀ (key k : Nat) (s : State), (s.ctx key).moving = some k → (s.ctx key).st = .migrating → k ≠ key →
    (∀ p ∈ s.posts, p.key = key → p.st = .lost) →
    ∃ t, exec (.helperArrival key) s = .next t ∧ t.ctx key = {} ∧ t.mem = s.mem ∧
      let c := s.ctx key
      let d := t.ctx k
      d.st = (if (s.core (coreOfKey k)).gate = none then CtxState.ready else .gated) ∧ d.saved = (if (s.core (coreOfKey k)).gate = none
        then c.saved else .ready) ∧
      ((∀ e ∈ s.dies, ∀ p ∈ e.2.parked, p.key ≠ key ∧ p.key ≠ k) → d.mail = c.mail ++ (s.ctx k).mail) ∧ d.pc = c.pc ∧ d.x = c.x ∧ d.v = c.v ∧ d.pfx = c.pfx ∧ d.grant = c.grant ∧ d.number = c.number ∧
        field d.sr 16 8 = slotOfKey k % 256 ∧ ∀ i < 64, ¬ (16 ≤ i ∧ i < 24) → d.sr.getLsbD i = c.sr.getLsbD i)

/-- R203, R341: a sleeping `wait` tests its word again where it lies in this package, after a write to its line, or at the poll of
a peer aperture, and goes on, as an acquire, where the test holds; it reads the word as a load does, and one on the window asks its
device for it. R208: a gating load that has been served
returns its value, and the contexts of its core have the state again that they had. R240: an arrival of `bard` is made once its
copies are over. R190, R275: a tile takes its next line, unless an older one wants it; each younger holder of that line, or of one
that pins a way of its full set, yields that has not all its lines. -/
def waitEvents : Prop :=
  (∀ (key p scope : Nat) (va : Va) (v : Word) (ne : Bool) (loc : Loc) (s t : State),
    (s.ctx key).wait = .word va v ne scope → (s.ctx key).st = .sleeping →
    (resolve (s.envOf key) va.toNat 8 accRead).run { s with cur := key } = .ok loc t → loc.place? = some p →
    loadWaits false loc p t = false → t.gatewayPost key p 8 = false → watchHits t key true false va.toNat 8 = [] →
    (t.ctx key).fetched = none →
    ∀ i, (i = Instr.waitRetest key ∧ va.toNat / 2 ^ 55 % 4 < 2 ∧ s.lineRewritten key va.toNat = true ∨ i = Instr.waitPoll key ∧ va.toNat / 2 ^ 55 % 4 = 2) →
    let w := BitVec.ofNat 64 (leNat (finds loc p 8 t))
    let u := { loadAsks false 0 loc p t with cur := s.cur }
    ((w = v ↔ ne = true) → exec i s = .next (u.modCtx key fun c => { c with tested := u.wlog.length })) ∧
    ((w = v ↔ ne = false) → exec i s = .next (acquireCtx key scope (completeCtx key shortNext id u)))) ∧
  (∀ (key scope p : Nat) (va : Va) (v : Word) (ne : Bool) (mt : Nat) (s t : State), (s.ctx key).wait = .word va v ne scope →
    (resolve (s.envOf key) va.toNat 8 accRead).run { s with cur := key } = .ok (.mem p mt) t →
    (∀ w ∈ s.wlog, (s.ctx key).tested < w.n → ∀ i < w.old.length, lineOf (w.place + i) ≠ lineOf p) →
    exec (.waitRetest key) s = .refused .notEnabled) ∧
  (∀ (key scope : Nat) (va : Va) (v : Word) (ne : Bool) (s : State), (s.ctx key).wait = .word va v ne scope →
    (s.ctx key).st = .sleeping → va.toNat / 2 ^ 55 % 4 = 3 → s.unreachable (windowDev va.toNat) = false →
    s.lineAwaited key va.toNat = false →
    ∃ t r, exec (.waitPoll key) s = .next t ∧ t.wreqs = s.wreqs ++ [r] ∧ r.key = key ∧ r.kind = .poll v ne scope ∧
      r.parts = [(windowDev va.toNat, va, 8)] ∧ t.ctxs = s.ctxs ∧ t.mem = s.mem) ∧
  (∀ (core cl : Nat) (w : Waiter) (v : Word) (s : State),
    (s.clusters.findSome? fun p => (p.2.waiters.find? fun w => w.gate && w.served.isSome && coreOfKey w.key == core).map
      fun w => (p.1, w)) = some (cl, w) → w.served = some v → (s.ctx w.key).st ≠ .free →
    ∃ t, exec (.gatedLoadComplete core) s = .next t ∧ (t.core core).gate = none ∧
      (t.ctx w.key).pc = (s.ctx w.key).pc + BitVec.ofNat 57 w.next.len ∧
      (t.ctx w.key).xr w.rd.toNat = (if w.rd = 0 then 0 else v) ∧ t.mem = s.mem ∧
      (∀ i < 11, keyOf core i ≠ w.key → (s.ctx (keyOf core i)).st = .gated →
        t.ctx (keyOf core i) = { s.ctx (keyOf core i) with st := (s.ctx (keyOf core i)).saved }) ∧
      ∀ u ∈ (t.cluster cl).waiters, u.key ≠ w.key) ∧
  (∀ (id : Nat) (b : Bard) (s : State), s.bards.find? (·.id == id) = some b →
    ((∃ c ∈ s.copies, c.id ∈ b.copies ∧ c.faulted = false) → exec (.bardArrival id) s = .refused .notEnabled) ∧
    ((∀ c ∈ s.copies, c.id ∈ b.copies → c.faulted = true) → (∀ p ∈ s.posts, p.key ≠ b.key) → (s.ctx b.key).pend = [] →
      ∃ t, exec (.bardArrival id) s = .next t ∧ t.bards = s.bards.filter (·.id != id) ∧ t.mem = s.mem ∧
        ∀ g r, t.arrivals b.launch g r = s.arrivals b.launch g r)) ∧
  (∀ (key line : Nat) (u : Tile) (s : State), s.tiles.find? (·.key == key) = some u → u.lines[u.got]? = some line →
    let blocked := line :: s.pinnedSet line
    let older := ∃ w ∈ s.tiles, w.older u = true ∧ ∃ x, w.lines[w.got]? = some x ∧
      (x = line ∨ (homed x = true ∧ s.filterFull x = true ∧ s.filterSet x = s.filterSet line))
    let gives := fun (h : Tile) => h.key ≠ u.key ∧ u.older h = true ∧ h.got < h.lines.length ∧ ∃ x ∈ h.lines.take h.got, x ∈ blocked
    let v := { s with tiles := s.tiles.map fun h => if gives h then { h with got := 0 } else h }
    let free := v.tileStuck key u.store line = false ∧ ∀ h ∈ v.tiles, h.key ≠ key → line ∉ h.lines.take h.got
    (older → exec (.tileLineGrant key) s = .refused .notEnabled) ∧
    (¬ older → free → exec (.tileLineGrant key) s = .next { takeLine key u.store line v with
      tiles := v.tiles.map fun h => if h.key = key then { h with got := h.got + 1 } else h }) ∧
    (¬ older → ¬ free → exec (.tileLineGrant key) s = if ∃ h ∈ s.tiles, gives h then .next v else .refused .notEnabled))

/-- The events of contexts: R27, R43, R87, R98, R190, R203, R208, R240, R255, R317, R318, R341, R394. -/
def Obligations.ContextEvents : Prop := trapEvents ∧ hintEvents ∧ moveEvents ∧ waitEvents

/-! ### Events of streams and windows -/

/-- R196, R201: a posted line that waits for its number takes the counter's next one when fewer than 64 of the stream are
unacknowledged and none stands before it; a marker does so once no earlier copy of its context has a line to send to that
destination. -/
def sends : Prop :=
  ∀ (id stream m : Nat) (p : Post) (s : State), p.st = .waiting → p.dest < 4096 →
    let k := s.stream p.core p.stream p.dest
    (p.marker.isSome → ∀ c ∈ s.copies, c.key = some p.key → c.stream = p.stream → p.id ≤ c.id ∨ s.copySends c p.dest = false) →
    let behind := ∃ q ∈ s.posts, q.core = p.core ∧ q.stream = p.stream ∧ q.dest = p.dest ∧ q.st = .waiting ∧ q.order < p.order
    let sent := fun (i : Instr) => ∃ t, exec i s = .next t ∧ t.mem = s.mem ∧ t.ctxs = s.ctxs ∧
      t.posts = s.posts.map (fun q => if q.id == p.id then { p with seq := k.next, st := .sent } else q) ∧
      t.stream p.core p.stream p.dest = { next := k.next + 1, unacked := k.unacked + 1 }
    (s.posts.find? (·.id == id) = some p → p.id = id →
      (k.unacked < 64 → ¬ behind → sent (.streamSend id)) ∧
      (64 ≤ k.unacked ∨ behind → exec (.streamSend id) s = .refused .notEnabled)) ∧
    ((s.posts.find? fun q => q.marker == some m && q.stream == stream && q.st == .waiting) = some p →
      s.posts.find? (·.id == p.id) = some p → k.unacked < 64 → ¬ behind → sent (.markStamp m stream))

/-- R197: a line for a die of this package is performed when its window expects its number and no marker holds it: its bytes
change with their marks (R239), and no others, and the window expects the next number. It waits for its line. One for another
device is handed over once every earlier number of its stream has been and no marker before it is held (R201); a window store is
so only while the domain is enabled, be it this device's own (R383). R199: a store of a peer is
performed in the same way where the export table lets it; where it does not, nothing is written and its number is consumed.
Its source hears which. R398: one from a lost peer is discarded. -/
def commits : Prop :=
  (∀ (id : Nat) (p : Post) (s : State), s.posts.find? (·.id == id) = some p → p.st = .sent → p.marker = none → p.tile = none →
    (p.dest < 2048 → s.domEn = false → exec (.streamCommit (.own id)) s = .refused .notEnabled) ∧
    (2048 ≤ p.dest → p.dest < 4096 →
      let k := windowKey 2048 p.core p.stream (p.dest - 2048)
      let via := (p.source s).via
      p.seq = s.expected k → s.marksLet 2048 p.core p.stream (p.dest - 2048) = true →
      (s.lineWaits via p.place = true →
        WaitsOn (exec (.streamCommit (.own id)) s) s (noteMiss via true p.place s)) ∧
      (s.lineWaits via p.place = false →
      ∃ t, exec (.streamCommit (.own id)) s = .next t ∧ t.expected k = p.seq + 1 ∧
        (∀ i < p.bytes.length, i ∉ p.skip → some (t.byte (p.place + i)) = p.bytes[i]? ∧
          t.byteMark (p.place + i) = p.marks[i]?.getD 0) ∧
        (∀ q, (q < p.place ∨ p.place + p.bytes.length ≤ q ∨ q - p.place ∈ p.skip) →
          t.byte q = s.byte q ∧ t.byteMark q = s.byteMark q) ∧
        ∀ q ∈ t.posts, q.id = p.id → q.st = .committed)) ∧
    (p.dest < 2048 → p.dest ≠ s.devId → s.domEn = true →
      let before := fun (q : Post) => q.core = p.core ∧ q.dest = p.dest ∧
        (q.stream = p.stream ∧ q.st = .sent ∧ q.id ≠ p.id ∧ (p.seq - q.seq).toNat < 2048 ∨
          (q.st = .waiting ∨ q.st = .sent) ∧ ∃ m, q.marker = some m ∧ m < p.copy.getD p.id)
      ((∃ q ∈ s.posts, before q) → exec (.streamCommit (.own id)) s = .refused .notEnabled) ∧
      ((∀ q ∈ s.posts, ¬ before q) → exec (.streamCommit (.own id)) s = .next { s with
        posts := s.posts.map fun q => if q.id = p.id then { q with st := .committed } else q }))) ∧
  (∀ (r : RemoteStore) (s : State), s.domEn = true →
    (s.isLost r.dev = true → exec (.streamCommit (.peer r)) s = .next s) ∧
    (s.isLost r.dev = false → s.peerPosts = [] → r.stream < 16 → r.core < 2048 → r.marker = false → r.tile ≤ 1 → r.skip = [] →
      r.bytes ≠ [] →
      let k := windowKey r.dev r.core r.stream 0
      r.seq = s.expected k → s.marksLet r.dev r.core r.stream 0 = true →
      let u := { s with peerPosts := [r] }
      (∀ loc t p, (targetLoc r.dev r.va.toNat r.bytes.length 4).run u = .ok loc t → loc.place? = some p → loc ≠ .mem p 3 →
        t.writeWaits .home p = false →
        ∃ v, exec (.streamCommit (.peer r)) s = .next v ∧ v.expected k = r.seq + 1 ∧ v.peerPosts = [] ∧
          v.outbox = t.outbox ++ [.verdict r.dev r.core r.stream r.seq true] ∧
          (∀ i < r.bytes.length, some (v.byte (p + i)) = r.bytes[i]?) ∧
          ∀ q, q < p ∨ p + r.bytes.length ≤ q → v.byte q = t.byte q) ∧
      (∀ f t, (targetLoc r.dev r.va.toNat r.bytes.length 4).run u = .error (.trap f) t →
        ∃ v, exec (.streamCommit (.peer r)) s = .next v ∧ v.expected k = r.seq + 1 ∧ v.peerPosts = [] ∧ v.mem = s.mem ∧
          v.outbox = s.outbox ++ [.verdict r.dev r.core r.stream r.seq false])))

/-- R196: an acknowledgement takes a committed posted store off its stream's count; that of a window store arrives only while the
domain is enabled (R383). R306: a store to host uncached memory is performed when the host returns GO, which comes through M0. -/
def acknowledgements : Prop :=
  (∀ (id : Nat) (p : Post) (s : State), s.posts.find? (·.id == id) = some p → p.st = .committed → p.copy = none →
    (p.dest < 2048 → s.domEn = false → exec (.streamAck id) s = .refused .notEnabled) ∧
    ((p.dest < 2048 → s.domEn = true) →
    ∃ t, exec (.streamAck id) s = .next t ∧ t.posts = s.posts.filter (·.id != id) ∧ t.mem = s.mem ∧ t.ctxs = s.ctxs ∧
      (t.stream p.core p.stream p.dest).unacked = (s.stream p.core p.stream p.dest).unacked - 1 ∧
      (t.stream p.core p.stream p.dest).next = (s.stream p.core p.stream p.dest).next)) ∧
  (∀ (id : Nat) (p : Post) (s : State), s.posts.find? (·.id == id) = some p → p.dest = 4096 → p.st = .sent → p.copy = none →
    ((s.die 4).dead = true → exec (.cxlGo id) s = .refused .notEnabled) ∧
    ((s.die 4).dead = false →
    ∃ t, exec (.cxlGo id) s = .next t ∧ t.posts = s.posts.filter (·.id != id) ∧
      (∀ i < p.bytes.length, i ∉ p.skip → some (t.byte (p.place + i)) = p.bytes[i]? ∧
        t.byteMark (p.place + i) = p.marks[i]?.getD 0) ∧
      ∀ q, (q < p.place ∨ p.place + p.bytes.length ≤ q ∨ q - p.place ∈ p.skip) →
        t.byte q = s.byte q ∧ t.byteMark q = s.byteMark q))

/-- R266, R277: a read that this device addressed to itself or that a peer sends is performed by the home slice of its line and
returns the bytes at its place with their poison marks (R402), while the domain is enabled (R383); a `ramo` also writes the new
word, as one access. One that the export table does not let through is refused (R382), and one whose line is not free waits. A tile
of another device makes a younger one that has not all its lines give up a line that they share (R190; which of equal ages is the
older is log entry 34). -/
def targets : Prop :=
  (∀ (id n : Nat) (va : Va) (r : WReq) (loc : Loc) (s t : State) (p : Nat), s.wreqs.find? (·.id == id) = some r → r.id = id →
    let dev := s.devId
    r.parts = [(dev, va, n)] → r.answers = [] → r.lost = [] → r.refused = [] → r.returned = [] → loc.place? = some p →
    (s.domEn = false → exec (.windowAccessAtTarget (.own id)) s = .refused .notEnabled) ∧ (s.domEn = true →
    let answered := fun (k : Nat) => t.wreqs.map fun q => if q.id = id then
      { q with answers := Tbl.set [] q.answers 0 (t.bytes p k), amarks := Tbl.set [] q.amarks 0 (t.placeMarks [(p, k)]) } else q
    (r.kind.op n = .read n → (targetLoc dev va.toNat n 3).run s = .ok loc t → t.readWaits .home (lineOf p) = false →
      ∃ u, exec (.windowAccessAtTarget (.own id)) s = .next u ∧ u.wreqs = answered n ∧ u.mem = t.mem) ∧
    (∀ fn v rd sc, r.kind = .ramo fn v rd sc → fn < 9 → (targetLoc dev va.toNat 8 5).run s = .ok loc t →
      t.writeWaits .home p = false → va.toNat % 8 = 0 → t.wreqs = s.wreqs →
      ∃ u, exec (.windowAccessAtTarget (.own id)) s = .next u ∧ u.wreqs = answered 8 ∧
        leNat (u.bytes p 8) = (r191 64 fn (BitVec.ofNat 64 (leNat (t.bytes p 8))) v).toNat ∧
        ∀ q, q < p ∨ p + 8 ≤ q → u.byte q = t.byte q))) ∧
  (∀ (r : RemoteReq) (n : Nat) (s t : State), s.domEn = true → r.op = .read n →
    (s.isLost r.dev = true → exec (.windowAccessAtTarget (.peer r)) s = .next s) ∧
    (∀ (loc : Loc) (p : Nat), s.isLost r.dev = false → (targetLoc r.dev r.va.toNat n 3).run s = .ok loc t → loc.place? = some p →
      t.readWaits .home (lineOf p) = true →
      ∃ u, exec (.windowAccessAtTarget (.peer r)) s = .next u ∧ r ∈ u.peerReqs ∧ u.mem = s.mem ∧
        ∀ m ∈ u.outbox, m ∈ s.outbox ∨ ∃ a, m = .bisnp a) ∧
    (∀ (loc : Loc) (p : Nat), s.isLost r.dev = false → (targetLoc r.dev r.va.toNat n 3).run s = .ok loc t → loc.place? = some p →
      t.readWaits .home (lineOf p) = false →
      exec (.windowAccessAtTarget (.peer r)) s = .next { lineRead .home 0 (lineOf p) t with
        peerReqs := t.peerReqs.filter (· != r)
        outbox := t.outbox ++ [.answer r.dev r.id (some (t.bytes p n, t.placeMarks [(p, n)]))] }) ∧
    (∀ f, s.isLost r.dev = false → (targetLoc r.dev r.va.toNat n 3).run s = .error (.trap f) t →
      exec (.windowAccessAtTarget (.peer r)) s = .next { s with
        peerReqs := s.peerReqs.filter (· != r), outbox := s.outbox ++ [.answer r.dev r.id none] })) ∧
  (∀ (r : RemoteReq) (age n p : Nat) (loc : Loc) (s t : State), s.domEn = true → s.isLost r.dev = false →
    r.op = .tile age [(r.va, n)] → loc.place? = some p →
    let gives := fun (u : Tile) => (age < u.age ∨ age = u.age ∧ r.dev < s.devId) ∧ u.got < u.lines.length ∧
      lineOf p ∈ u.lines.take u.got
    let v := { s with tiles := s.tiles.map fun u => if gives u then { u with got := 0 } else u }
    (∃ w, (targetLoc r.dev r.va.toNat n 3).run s = .ok loc w) → (targetLoc r.dev r.va.toNat n 3).run v = .ok loc t →
    t.readWaits .home (lineOf p) = false →
    exec (.windowAccessAtTarget (.peer r)) s = .next { lineRead .home 0 (lineOf p) t with
      peerReqs := t.peerReqs.filter (· != r)
      outbox := t.outbox ++ [.answer r.dev r.id (some (t.bytes p n, t.placeMarks [(p, n)]))] })

/-- R194, R202, R402: the response of another device to a scalar load delivers its value with its poison mark, as an acquire at
the load's scope, and the load goes on; a refusal is a precise PagePermission of it. The last response to an integer `ldsum`
delivers the sum of all words in the order of devices. A response arrives only while the domain is enabled (R383). -/
def responses : Prop :=
  ∀ (id dev : Nat) (bs : List Byte) (marks : List Nat) (data : Carried) (r : WReq) (s : State),
    s.wreqs.find? (·.id == id) = some r → r.id = id → (s.ctx r.key).st = .held → (s.ctx r.key).fetched = none → r.lost = [] →
    r.refused = [] →
    let rest := { s with wreqs := s.wreqs.filter (·.id != id) }
    (s.domEn = false → exec (.windowResponse id dev true ⟨bs, marks⟩) s = .refused .notEnabled) ∧
    (s.domEn = true → dev ≠ s.devId → (marks = [] ∨ marks.length = bs.length) →
    (∀ va fn rd next scope, r.parts = [(dev, va, bs.length)] → r.answers = [] → r.amarks = [] → r.returned = [] →
      r.kind = .load fn rd next false scope → r.va = va →
      (bs ≠ [] → watchHits s r.key true false va.toNat bs.length = [] →
        exec (.windowResponse id dev true ⟨bs, marks⟩) s = .next (completeCtx r.key next
          (·.setXMarked rd.toNat (loaded fn bs) (markIn marks)) (acquireCtx r.key scope rest))) ∧
      exec (.windowResponse id dev false data) s = .next (takeTrap r.key (s.ctx r.key).pc (s.ctx r.key).pc
        { asyncTrap 6 1 (va.setWidth 64) with kind := .precise } (rest.modCtx r.key Ctx.wake))) ∧
    (∀ g2 rd lo n next (va : Nat → Va), r.kind = .ldsum 0 g2 rd lo n next → 0 < n →
      r.parts = (List.range n).map (fun i => (lo + i, va i, 8)) → lo ≤ dev → dev < lo + n → bs.length = 8 →
      Tbl.get [] r.answers (dev - lo) = [] → (∀ i < n, lo + i ≠ dev → lo + i ∈ r.returned) → dev ∉ r.returned →
      (∀ i < n, watchHits s r.key true false (va i).toNat 8 = []) →
      ∃ t, exec (.windowResponse id dev true ⟨bs, marks⟩) s = .next t ∧ t.wreqs = rest.wreqs ∧ t.mem = s.mem ∧
        (t.ctx r.key).pc = (s.ctx r.key).pc + BitVec.ofNat 57 next.len ∧ (t.ctx r.key).sr = (s.ctx r.key).sr ∧
        (rd ≠ 0 → (t.ctx r.key).xr rd.toNat = BitVec.ofNat 64
            ((List.range n).map fun i => leNat (if lo + i = dev then bs else Tbl.get [] r.answers i)).sum ∧
          (t.ctx r.key).mark rd.toNat =
            markIn ((List.range n).map fun i => markIn (if lo + i = dev then marks else Tbl.get [] r.amarks i)))))

/-- R397, R398, R194: a fence timeout and a route that has lost its port set the device's lost bit; its posted stores are written
off, and a scalar load that waits for it completes with ones. -/
def losses : Prop :=
  (∀ (dev : Nat) (s : State), dev < 2048 → s.isLost dev = false → (∀ r ∈ s.wreqs, ∀ p ∈ r.parts, p.1 ≠ dev) →
    (∀ i, (i = Instr.fenceTimeout dev ∧ ∃ p ∈ s.posts, p.dest = dev ∧ p.st ≠ .lost) ∨
        (i = Instr.routeLossTimeout dev ∧ Tbl.get 0 s.routes dev < 24 ∧ s.domEn = true ∧
          s.portUp (Tbl.get 0 s.routes dev) = false) →
      ∃ t, exec i s = .next t ∧ t.isLost dev = true ∧ (∀ d, d ≠ dev → t.isLost d = s.isLost d) ∧
        ∀ p ∈ t.posts, p.dest = dev → p.st = .lost)) ∧
  (∀ (dev n : Nat) (va : Va) (r : WReq) (fn scope : Nat) (next : Advance) (rc : Bool) (rd : BitVec 6) (s : State), dev < 2048 →
    s.isLost dev = false →
    s.wreqs = [r] → s.posts = [] → r.parts = [(dev, va, n)] → r.lost = [] → r.refused = [] → r.returned = [] →
    r.kind = .load fn rd next rc scope → (s.ctx r.key).st = .held → (s.ctx r.key).fetched = none →
    watchHits s r.key true false r.va.toNat n = [] → (s.launch (s.ctx r.key).launch).plt = false → rd ≠ 0 →
    ∃ t, exec (.fenceTimeout dev) s = .next t ∧ (t.ctx r.key).xr rd.toNat = BitVec.allOnes 64 ∧
      (t.ctx r.key).pc = (s.ctx r.key).pc + BitVec.ofNat 57 next.len ∧ t.wreqs = [])

/-- R336, R337: the bytes that a window write lands in a block of a gateway area that is not ready are counted; the write that
completes the block puts it behind those that were completed before, with its device. The first of them becomes ready, and
enters the queue where it has room. -/
def gatewayBlocks : Prop :=
  ∀ (core blk dev : Nat) (s : State), gatewayCore core = true →
    let k := s.core core
    (k.gdone.head? ≠ some (blk, dev) → exec (.gatewayBlockReady core blk dev) s = .refused .notEnabled) ∧
    (k.gdone.head? = some (blk, dev) →
      ∃ t, exec (.gatewayBlockReady core blk dev) s = .next t ∧ Tbl.get 0 (t.core core).gready blk = dev + 1 ∧
        (t.core core).gdone = k.gdone.drop 1 ∧
        (t.core core).gqueue = (if k.gqueue.length < 256 then k.gqueue ++ [blk] else k.gqueue) ∧ t.mem = s.mem ∧ t.ctxs = s.ctxs) ∧
    (∀ (o n : Nat), (s.cores.filter (·.1 == core)).length = 1 → dev < 2048 →
      let size := 2 ^ (field k.gwrx 48 4 + 7)
      o / size = blk → o + n ≤ field k.gwrx 32 16 * size → 0 < field k.gwrx 32 16 → Tbl.get 0 k.gready blk = 0 →
      (∀ d ∈ k.gdone, d.1 ≠ blk) →
      let u := (countGateway dev (placeDie (dieOfCore core) (field k.gwrx 0 26) + o) n s).core core
      let c := Tbl.get 0 k.gcount blk / 2048 + n
      Tbl.get 0 u.gcount blk = c * 2048 + dev ∧ u.gdone = (if size ≤ c then k.gdone ++ [(blk, dev)] else k.gdone) ∧
        u.gready = k.gready)

/-- The events of posted stores, windows, responses and lost devices: R194, R196 to R202, R266, R277, R306, R336, R397, R398. -/
def Obligations.StreamEvents : Prop :=
  sends ∧ commits ∧ acknowledgements ∧ targets ∧ responses ∧ losses ∧ gatewayBlocks

/-! ### Coherence, links and the host -/

/-- A message of the protocol in flight, neither dirty nor anything else (R272): kinds 0 FwdS, 1 FwdX, 2 Inv, 3 InvAck, 4 Data,
5 BInv, 6 BInvAck. -/
def msg (kind line die : Nat) : Msg := { kind := kind, die := die, line := line, dirty := false }

/-- Data with the bytes of its line, from the home or from a die (R272). -/
def dataMsg (s : State) (line die : Nat) : Msg := { msg 4 line die with data := s.bytes line 128 }

/-- R272: a request that its home can take, with an entry free in its queue (R269), sends the messages of the table: of a line
that nobody holds the requester gets its data at once, and of one with an owner a read is forwarded to it; for ownership every
other holder is sent Inv, the owner FwdX unless the requester only upgrades. Its line has an entry from then on (R271). R274, R307:
where the line's set of the snoop filter is full, BInv goes to the holders of the victim, and BISnp to the host for each half that
it holds. -/
def requests : Prop :=
  ∀ (die line home : Nat) (s : State), die < 4 → line % 128 = 0 → homeDie line = some home → (s.die die).dead = false →
    s.lostPhys line = false → s.lineBusy line = false → Tbl.get 0 (s.die die).wbuf line = 0 → s.linkUp die home = true →
    s.slotsUsed home (s.slice line) < 16 → s.slotsUsed die (s.sliceAt die line) < 16 →
    let e := s.dirOf line
    let st := s.dieLine die line
    let holders := e.holders
    let sends := fun (i : Instr) (ms : List Msg) => ∃ t, exec i s = .next t ∧ t.msgs = s.msgs ++ ms ∧ t.mem = s.mem ∧
      t.ctxs = s.ctxs ∧ t.lineBusy line = true ∧ (t.dirOf line).live = true
    (s.filterFull line = false → st = 0 → die ∉ holders → e.hostOwned = false →
      (e.owner = none → sends (.rds die line) [dataMsg s line die]) ∧
      (∀ o, e.owner = some o → sends (.rds die line) [msg 0 line o])) ∧
    (s.filterFull line = false → st = 0 → die ∉ holders → e.hosted = false → s.lineWatched line = false →
      (holders = [] → sends (.rdx die line) [dataMsg s line die]) ∧
      (e.owner = none → holders ≠ [] → sends (.rdx die line) (holders.map (msg 2 line))) ∧
      (∀ o, e.owner = some o → sends (.rdx die line) ((holders.filter (· != o)).map (msg 2 line) ++ [msg 1 line o]))) ∧
    (s.filterFull line = false → st = 1 ∨ st = 3 → die ∈ holders → e.hosted = false → s.lineWatched line = false →
      let others := holders.filter (· != die)
      sends (.upg die line) (if others = [] then [msg 4 line die] else others.map (msg 2 line))) ∧
    (∀ v, s.filterFull line = true → s.filterVictim line = some v → (s.dirOf v).holders ≠ [] ∨ (s.dirOf v).hosted = true →
      s.lineBusy v = false → (∀ r ∈ s.reqs, r.kind ≠ 3) → st = 0 → die ∉ holders → e.hostOwned = false →
      ∃ t, exec (.rds die line) s = .next t ∧ t.msgs = s.msgs ++ (s.dirOf v).holders.map (msg 5 v) ∧ t.mem = s.mem ∧
        t.lineBusy v = true ∧ (v % 128 = 0 → ∀ pa ∈ [v, v + 64], (s.dirOf v).hostAt pa ≠ .none → pa ∈ t.snoops))

/-- R272, R273: what a die does on a message: an owner forwards its data and answers, keeping O of M and S of E where it is read
(the answer says whether it kept a dirty copy) and nothing where ownership moves; Inv and BInv take the line; Data leaves the
requester in E, S or M, or in S where the line is watched (R285). A line that the die has evicted is served from its write-back
buffer. -/
def messages : Prop :=
  ∀ (die line : Nat) (m : Msg) (s : State),
    let st := s.dieLine die line
    let req := ((s.reqs.find? (·.line == line)).map (·.die)).getD die
    let arrives := fun (kind : Nat) => (s.msgs.find? fun q => q.kind == kind && q.die == die && q.line == line) = some m
    let open' := s.linkUp ((homeDie line).getD die) die = true ∧ s.tileHolds line = false ∧ (s.die die).dead = false
    let leads := fun (i : Instr) (after : Nat) (ms : List Msg) => ∃ t, exec i s = .next t ∧ t.dieLine die line = after ∧
      t.msgs = s.msgs.erase m ++ ms ∧ t.mem = s.mem ∧ t.dir = s.dir
    (open' → Tbl.get 0 (s.die die).wbuf line = 0 →
      (arrives 0 → leads (.fwds die line) (if st = 4 then 3 else if st = 2 then 1 else st)
        [dataMsg s line req, { msg 3 line die with dirty := decide (3 ≤ st) }]) ∧
      (arrives 1 → leads (.fwdx die line) 0 [dataMsg s line req, msg 3 line die]) ∧
      (arrives 2 → leads (.inv die line) 0 [msg 3 line die]) ∧
      (arrives 5 → leads (.binv die line) 0
        [{ msg 6 line die with dirty := decide (3 ≤ st), data := if 3 ≤ st then s.bytes line 128 else [] }])) ∧
    (open' → Tbl.get 0 (s.die die).wbuf line ≠ 0 → arrives 0 →
      leads (.fwds die line) st [dataMsg s line req, msg 3 line die]) ∧
    (arrives 4 → ∀ r, s.reqs.find? (·.line == line) = some r → r.kind < 3 → (∀ q ∈ s.reqs, q.line = line → q = r) →
      ∃ t, exec (.data die line) s = .next t ∧ t.mem = s.mem ∧ t.msgs = s.msgs.erase m ∧
        t.dieLine die line = if s.lineWatched line = true then 1 else if r.kind = 0 then (if (s.dirOf line).owner = some die then 2 else 1) else 4)

/-- R272, R274: the last answer to a request for ownership sends its data, and the request is over, with the requester as the
only holder, once that has come; the last answer to a back-invalidation frees the entry, and its data goes to the home's memory.
R273: the write-back of a line whose home performs another die's request waits in the buffer; any other leaves the directory at
once. -/
def answers : Prop :=
  (∀ (die line : Nat) (m : Msg) (r : Req) (s : State),
    (s.msgs.find? fun q => q.kind == 3 && q.die == die && q.line == line) = some m → s.reqs = [r] → r.line = line → r.acks = [die] →
    (r.kind = 1 → r.data = true → (∀ q ∈ s.msgs, q.kind = 4 → q.line ≠ line) →
      ∃ t, exec (.invack die line) s = .next t ∧ t.mem = s.mem ∧ t.msgs = s.msgs.erase m ++ [dataMsg s line r.die]) ∧
    (r.kind = 1 → r.data = false → s.lineWatched line = false →
      ∃ t, exec (.invack die line) s = .next t ∧ t.mem = s.mem ∧ t.reqs = [] ∧ (t.dirOf line).owner = some r.die ∧
        (t.dirOf line).sharers = []) ∧
    (r.kind = 0 → r.data = false → r.kept = none → (s.dirOf line).owner = some die → r.die ≠ die →
      (s.dirOf line).sharers = [] → m.die = die →
      ∃ t, exec (.invack die line) s = .next t ∧ t.mem = s.mem ∧ t.reqs = [] ∧
        (t.dirOf line).owner = (if m.dirty then some die else none) ∧
        (t.dirOf line).sharers = (if m.dirty then [r.die] else [die, r.die]))) ∧
  (∀ (die line : Nat) (m : Msg) (r : Req) (s : State),
    (s.msgs.find? fun q => q.kind == 6 && q.die == die && q.line == line) = some m → s.reqs = [r] → r.line = line →
    r.acks = [die] → r.kind = 3 → r.data = false → r.waits = none →
    ∃ t, exec (.binvack die line) s = .next t ∧ t.mem = s.mem ∧ t.reqs = [] ∧ t.dirOf line = {} ∧
      t.homeBytes line = if m.data = [] then s.homeBytes line else s.bytes line 128) ∧
  (∀ (die line : Nat) (s : State), die < 4 → line % 128 = 0 → (s.die die).dead = false → s.tileHolds line = false →
    s.dieLine die line ≠ 0 →
    (let home := (homeDie line).getD die
     s.lineBusy line = false → s.linkUp die home = true → s.slotsUsed home (s.slice line) < 16 →
      ∃ t, exec (.wb die line) s = .next t ∧ t.mem = s.mem ∧ t.dieLine die line = 0 ∧ die ∉ (t.dirOf line).holders ∧
        (die ∈ (s.dirOf line).holders → 3 ≤ s.dieLine die line → t.homeBytes line = s.bytes line 128)) ∧
    (∀ r, s.reqs.find? (·.line == line) = some r → r.die ≠ die → Tbl.get 0 (s.die die).wbuf line = 0 →
      ∃ t, exec (.wb die line) s = .next t ∧ t.mem = s.mem ∧ t.dieLine die line = 0 ∧
        Tbl.get 0 (t.die die).wbuf line = s.dieLine die line ∧ t.dir = s.dir))

/-- R399 to R401: a snoop without an answer starts a retrain; a retrain that succeeds makes the link Active with no failures
counted, and one that fails is counted; the third failure declares the peer lost, and its lines go. An Active link without
traffic sleeps where its IDLE is not 0, and one that is asleep or waking becomes Active. -/
def links : Prop :=
  ∀ (die peer : Nat) (s : State), die < 4 → peer < 4 → die ≠ peer →
    let k := s.link die peer
    let moves := fun (i : Instr) (st : Nat) => ∃ t, exec i s = .next t ∧ (t.link die peer).st = st ∧ t.mem = s.mem ∧
      t.ctxs = s.ctxs ∧ (t.link die peer).idle = k.idle
    ((s.die die).dead = false → (s.die peer).dead = false → k.st ≤ 2 →
      (∃ m ∈ s.msgs, m.die = peer ∧ (m.kind ≤ 2 ∨ m.kind = 5) ∧ homeDie m.line = some die) → moves (.snoopTimeout die peer) 3) ∧
    (k.st = 3 → ∃ t, exec (.linkRetrainDone die peer true) s = .next t ∧ (t.link die peer).st = 0 ∧ (t.link die peer).retry = 0 ∧
      (t.link peer die).st = 0) ∧
    (k.st = 3 → k.retry + 1 < 3 → ∃ t, exec (.linkRetrainDone die peer false) s = .next t ∧ (t.link die peer).st = 3 ∧
      (t.link die peer).retry = k.retry + 1 ∧ t.mem = s.mem) ∧
    (k.st = 3 → k.retry = 2 → (∀ l, (s.launch l).active = false ∨ ∀ c ∈ (s.launch l).cores, dieOfCore c ≠ peer) →
      ∃ t, exec (.linkRetrainDone die peer false) s = .next t ∧ (t.die peer).dead = true ∧ (t.die peer).lines = [] ∧
        ∀ d < 4, d ≠ peer → (t.link d peer).st = 4) ∧
    (k.st = 0 → k.idle ≠ 0 → (∀ m ∈ s.msgs, m.die ≠ peer ∧ m.die ≠ die) → moves (.linkIdleSleep die peer) 1) ∧
    (k.st = 1 ∨ k.st = 2 → moves (.linkWake die peer) 0)

/-- R306, R307: nothing of the host arrives once M0 is lost (R401). A read of HBM by the host drops the copies that the dies hold
dirty, one held in E too where it takes the line shared and all of them where it takes it owned, which it cannot of a watched line
(R285); it records what it takes, and answers with the bytes and their poison marks. A write drops every copy and writes its 64
bytes. The host gives a line up by MemInv, or by BIRsp to a BISnp, with its bytes where it owned it (which BISnp is outstanding is
kept as log entry 23 says). A snoop of the host takes back a line of its window. R380, R406: a port trains and goes down. That
lines of the host are kept as halves of 64 bytes rests on log entry 23, and the list of what leaves for it on log entry 56. -/
def hostMessages : Prop :=
  (∀ (pa : Nat) (take : HostTake) (bs : List Byte) (s : State), (s.die 4).dead = false →
    let line := pa / 128 * 128
    let e := s.dirOf line
    let p := pa / 64 * 64
    (s.hostMay pa (take != .none) = true → e.hostAt pa ≠ .owned →
      let took := if take = .owned ∧ s.lineWatched line = true then HostTake.shared else take
      ∃ t, exec (.memrd pa take) s = .next t ∧ t.mem = s.mem ∧
      (t.dirOf line).hostAt pa = (if take = .none then e.hostAt pa else took) ∧
      t.outbox = s.outbox ++ [.drs p (s.bytes p 64) (s.placeMarks [(p, 64)])] ∧
      ∀ d < 4, let st := s.dieLine d line
        t.dieLine d line = if took = .owned ∨ 3 ≤ st ∨ (took = .shared ∧ st = 2) then 0 else st) ∧
    (s.hostMay pa false = true → bs.length = 64 → ∃ t, exec (.memwr pa bs) s = .next t ∧ (∀ d < 4, t.dieLine d line = 0) ∧
      t.outbox = s.outbox ++ [.ndr p] ∧ t.bytes p 64 = bs ∧ ∀ q, q < p ∨ p + 64 ≤ q → t.byte q = s.byte q) ∧
    (e.hostAt pa = .none → exec (.meminv pa bs) s = .refused .notEnabled) ∧
    (p ∉ s.snoops → exec (.birsp pa bs) s = .refused .notEnabled) ∧
    (∀ i, (i = Instr.meminv pa ∧ s.lineBusy pa = false ∧ s.queuesOpen none line = true ∧ e.hostAt pa ≠ .none ∨
        i = Instr.birsp pa ∧ p ∈ s.snoops) → physKind pa = some 0 → s.late = [] →
      (∃ t, exec (i []) s = .next t ∧ (i [] = .birsp pa [] → t.snoops = s.snoops.filter (· != p) ∧ t.outbox = s.outbox) ∧
        (i [] = .meminv pa [] → t.snoops = s.snoops ∧ t.outbox = s.outbox ++ [.ndr p])) ∧
      (e.hostAt pa ≠ .none → ∃ t, exec (i []) s = .next t ∧ (t.dirOf line).hostAt pa = .none ∧ t.mem = s.mem) ∧
      (e.hostAt pa = .owned → bs.length = 64 → ∃ t, exec (i bs) s = .next t ∧ (t.dirOf line).hostAt pa = .none ∧
        t.bytes p 64 = bs))) ∧
  (∀ (pa : Nat) (take : HostTake) (s : State), physKind pa = some 2 → s.tileHolds pa = false → s.lineBusy pa = false →
    (s.die 4).dead = false →
    let line := pa / 128 * 128
    ∃ t, exec (.hostSnoop pa take) s = .next t ∧ t.mem = s.mem ∧
      ∀ d < 4, t.dieLine d line = match take with
        | .none => s.dieLine d line
        | .shared => if 2 ≤ s.dieLine d line then 0 else s.dieLine d line
        | .owned => 0) ∧
  (∀ (p : Nat) (s : State), p < 24 →
    (s.portUp p = false → (∀ r ∈ s.repair, laneOfPort p r.unit = false) →
      ∃ t, exec (.portTrained p) s = .next t ∧ t.portUp p = true ∧ t.mem = s.mem) ∧
    (s.portUp p = true → exec (.portTrained p) s = .refused .notEnabled ∧
      ∃ t, exec (.portLinkDown p) s = .next t ∧ t.portUp p = false ∧ t.mem = s.mem))

/-- The events between dies, of links, of the host and of ports: R271 to R276, R306, R307, R380, R399 to R401. -/
def Obligations.CoherenceEvents : Prop := requests ∧ messages ∧ answers ∧ links ∧ hostMessages

/-! ### Queues, launches, graphs and pre-emption -/

/-- Nothing keeps a write of the device for a queue's work from its line, and no posted store of that work is unacknowledged
(R308). -/
def Quiet (q : Nat) (s : State) : Prop := Unhindered s ∧ ∀ p ∈ s.posts, p.launch % 64 ≠ q

/-- An entry of a queue is over, or will be once every memory write of it has been performed (R308, R355, R356). -/
def Ends (q : Nat) (s t : State) : Prop :=
  (t.queue q).progress = (s.queue q).progress + 1 ∨
    (t.queue q).progress = (s.queue q).progress ∧ (t.queue q).closing = true ∧ t.settled q = false

/-- R358: the queue that starts an entry is, among those with an entry to start, of the smallest effective priority and there the
first that can start after the one that started last. R355 to R357: its head advances and it is Running with the entry, whose
kernel launch is Loading; an entry that is not one of the format's ends at once with a BadEntry report. A queue that has waited
long enough rises by one priority. -/
def queueStarts : Prop :=
  (∀ (q : Nat) (s : State), q < 64 →
    let u := s.queue q
    let last := Tbl.get 63 s.lastQueue u.eprio
    let turn := fun (p : Nat) => (p + 63 - last) % 64
    let entry := s.bytes (u.base.toNat + 128 * (u.head.toNat % 2 ^ u.sz)) 128
    u.en = true → u.st = .idle → u.head ≠ u.tail → s.canStart q = true → u.eprio ≤ 3 → last < 64 →
    (∀ p < 64, p ≠ q → s.waiting p = true → u.eprio < (s.queue p).eprio ∨
      (s.queue p).eprio = u.eprio ∧ (turn q < turn p ∨ s.canStart p = false)) →
    (entryOK u.ctlq entry = true → ∃ t, exec .queueEntryStart s = .next t ∧ t.mem = s.mem ∧ t.ctxs = s.ctxs ∧
      t.queue q = { u with st := .running, entry := entry, head := u.head + 1, started := false, errorNext := false
                           eprio := u.prio } ∧
      (∀ p, p ≠ q → t.queue p = s.queue p) ∧
      (entryNat entry 0 1 = 1 → t.launch q = { st := .loading, q := q, record := entry, cores := (t.launch q).cores })) ∧
    (entryOK u.ctlq entry = false → Quiet q s → Unwatched s → ∃ t, exec .queueEntryStart s = .next t ∧ t.ctxs = s.ctxs ∧ (t.queue q).st = .idle ∧
      (t.queue q).head = u.head + 1 ∧ (t.queue q).progress = u.progress + 1 ∧ (t.queue q).rcnt = u.rcnt + 1 ∧
      (u.paddr = 0 → t.byte (u.rbase.toNat + 32 * (u.rcnt.toNat % 2 ^ u.sz) + 5) = 3))) ∧
  (∀ (q : Nat) (s : State), q < 64 → let u := s.queue q
    (u.en = true → u.st = .idle → u.head ≠ u.tail → (s.reg 8).toNat % 2 ^ 32 ≠ 0 → 0 < u.eprio →
      exec (.queuePromotion q) s = .next (s.modQueue q fun u => { u with eprio := u.eprio - 1 })) ∧
    (u.head = u.tail ∨ u.eprio = 0 → exec (.queuePromotion q) s = .refused .notEnabled))

/-- R364, R4: a COPY entry puts its copy into the engine of the cluster it names once there is room; an EVENT entry that signals
writes its value and ends, with the GO of the write where the word lies in host memory that is not cached (R306, R308); one that
waits ends once its comparison holds (equal, not equal, at least). -/
def queueEntries : Prop :=
  ∀ (q : Nat) (s : State), q < 64 →
    let u := s.queue q
    let b := u.entry
    let word := fun (off : Nat) => BitVec.ofNat 64 (entryNat b off 8)
    let flags := entryNat b 1 1
    let va := entryNat b 0x10 8
    let env := entryEnv 0 b (copyLaunch q)
    u.st = .running → u.started = false → u.closing = false → u.en = true →
    (entryNat b 0 1 = 3 → shapeOK (word 0x20) 0 false = true → entryNat b 0x38 8 % 8 = 0 →
      let cl := entryNat b 0x48 2 / 64 % 4 * 64 + entryNat b 0x48 2 % 64
      (s.die (dieOfCluster cl)).dead = false →
      (s.engineFull cl = true → exec (.copy q) s = .refused .notEnabled) ∧ (s.engineFull cl = false →
      ∃ t c, exec (.copy q) s = .next t ∧ t.copies = s.copies ++ [c] ∧ c.queueEntry = some q ∧ c.mode = 0 ∧
        c.src = entryNat b 0x18 8 % 2 ^ 57 ∧ c.dst = entryNat b 0x10 8 % 2 ^ 57 ∧ c.landed = 0 ∧ c.next = 0 ∧
        c.cl = cl ∧ c.total = c.lines ∧ (t.queue q).started = true ∧
        t.mem = s.mem)) ∧
    (entryNat b 0 1 = 4 → va % 8 = 0 → va / 2 ^ 55 % 4 ≠ 1 → va / 2 ^ 55 % 4 ≠ 3 →
      (∀ p t, flags % 2 = 1 → (resolve env va 8 accWrite).run s = .ok (.mem p 3) t →
        ∃ v, exec (.eventSignal q) s = .next v ∧ (v.queue q).closing = true ∧ (v.queue q).progress = u.progress ∧
          ∃ w ∈ v.posts, w.dest = hostDest ∧ w.place = p ∧ w.st = .sent ∧ w.bytes = leBytes 8 (entryNat b 0x18 8 % 2 ^ 64)) ∧
      (∀ p mt t, flags % 2 = 1 → (resolve env va 8 accWrite).run s = .ok (.mem p mt) t → mt ≠ 3 →
        t.writeWaits .home p = false → Quiet q t →
        let r := u.rbase.toNat + 32 * (u.rcnt.toNat % 2 ^ u.sz)
        (r + 32 ≤ p ∨ p + 8 ≤ r) → (u.paddr = 0 ∨ u.paddr.toNat + 8 ≤ p ∨ p + 8 ≤ u.paddr.toNat) →
        ∃ v, exec (.eventSignal q) s = .next v ∧ leNat (v.bytes p 8) = entryNat b 0x18 8 % 2 ^ 64 ∧
          (v.queue q).progress = u.progress + 1 ∧ (v.queue q).st = if u.errorNext then .error else .idle) ∧
      (∀ p mt t, flags % 2 = 0 → (resolve env va 8 accRead).run s = .ok (.mem p mt) t → t.readWaits .home p = false →
        let w := leNat (t.bytes p 8)
        let v := entryNat b 0x18 8 % 2 ^ 64
        let holds := if flags / 2 = 0 then w = v else if flags / 2 = 1 then w ≠ v else v ≤ w
        (holds → exec (.eventWait q) s = .next (endWith q { status := 0 } (lineRead .home 0 p t))) ∧
        (¬ holds → exec (.eventWait q) s = .refused .notEnabled)))

/-- R313, R319 to R321, R361, R362: a launch in Loading whose tables are refused ends with the reason; it waits while a line of its
records cannot be read; else, its cores being in service with slot 0 Free, it is Running, each of
its cores starts its control context at the entry address with its place in the grid in x1 and the private region's end in x31,
and every role is bound to slot 0 of its member; one that names a core of a lost die ends instead (R401). R322: a launch with nothing left to run ends once its copies and posted stores
are acknowledged, and is Ending before. -/
def launches : Prop :=
  (∀ (l : Nat) (s : State), (s.launch l).st = .loading → let u := s.launch l
    (s.queue u.q).st ≠ .switchingOut →
    (∀ r s0, (loadTables l).run s = .error r s0 → r ≠ recHeld → exec (.launch l) s = .next (endLaunch u.q
      { status := 2, a := BitVec.ofNat 64 r, b := Config.freeWord s0.fresh } { s0 with fresh := s0.fresh + 1 })) ∧
    (∀ s0, (loadTables l).run s = .error recHeld s0 → WaitsOn (exec (.launch l) s) s s0) ∧
    (∀ gs rules params s0 d, (loadTables l).run s = .ok (gs, rules, params) s0 → deadDie s0 gs = some d →
      exec (.launch l) s = .next (endLaunch u.q { status := 1, code := 24, b := BitVec.ofNat 64 d } s0)) ∧
    (∀ gs rules params s0 s1, (loadTables l).run s = .ok (gs, rules, params) s0 →
      (∀ k ∈ namedCores gs, (s0.die (dieOfCore k)).dead = false) →
      (∀ k ∈ namedCores gs, s0.coreFree k = true) → (useRecords l).run s0 = .ok () s1 →
      (∀ k ∈ namedCores gs, (s1.core k).gate = none) →
      ∃ t, exec (.launch l) s = .next t ∧ (t.launch l).st = .running ∧ (t.launch l).cores = namedCores gs ∧
        (t.launch l).groups = gs ∧ (t.launch l).rules = rules ∧ (t.launch l).params = params ∧
        (∀ k ∈ namedCores gs, let c := t.ctx (keyOf k 0)
          c.st = .ready ∧ c.pc = BitVec.ofNat 57 (u.f 0x10 8 % 2 ^ 57) ∧ c.standing = .control ∧ c.launch = l ∧ c.grant = 0 ∧
          c.xr 31 = 0x00B0000000000000#64 + BitVec.ofNat 64 u.psize ∧
          (∀ r, r ≠ 1 → r ≠ 31 → c.xr r = 0) ∧
          c.xr 1 = match gs.find? (·.g == u.f 0x38 1) with
            | some g => if k ∈ g.members then BitVec.ofNat 64 (g.members.idxOf k) else BitVec.allOnes 64
            | none => BitVec.allOnes 64) ∧
        (t.launch l).bind = firstBinding gs)) ∧
  (∀ (l : Nat) (s : State), let u := s.launch l
    u.st = .running → u.isGraph = false → s.launchDone l = true →
    (s.launchQuiet l = true → u.node = none → exec (.launchEnd l) s = .next (endLaunch u.q { status := 0 } s)) ∧
    (s.launchQuiet l = false → exec (.launchEnd l) s = .next (s.modLaunch l fun u => { u with st := .ending })))

/-- R333, R334: a graph whose nodes are read and accepted starts with node 0 ready and every other node waiting. A wait node that sees its
word is done on every edge; a conditional node delivers done to its first successor alone where its word is not 0, and else done
to its second and skip to its first; a switch node delivers done to the successor that its word numbers and skip to the
others. -/
def graphs : Prop :=
  (∀ (q : Nat) (s : State), q < 64 → (s.queue q).st = .running → (s.queue q).started = false →
    (s.queue q).closing = false → entryNat (s.queue q).entry 0 1 = 2 →
    let s1 := s.modQueue q fun u => { u with started := true }
    let s2 := s1.modLaunch q fun _ => { st := .running, q := q, record := (s.queue q).entry }
    let n := (s2.launch q).nodeCount
    (∀ s3 s4, (checkNodes q n n).run s2 = .ok () s3 → (useGraph q).run s3 = .ok () s4 →
      ∃ t, exec (.graph q) s = .next t ∧ t.nodeSt q 0 = 1 ∧ (∀ i < n, i ≠ 0 → t.nodeSt q i = 0) ∧ (t.launch q).st = .running) ∧
    (∀ s3, (checkNodes q n n).run s2 = .error 7 s3 → exec (.graph q) s = .next (endLaunch q
      { status := 2, a := 7, b := Config.freeWord s3.fresh } { s3 with fresh := s3.fresh + 1 })) ∧
    (∀ s3, (checkNodes q n n).run s2 = .error recHeld s3 → WaitsOn (exec (.graph q) s) s s3)) ∧
  (∀ (q n : Nat) (w : Word) (s s1 t : State), q < 64 → (s.launch q).st = .running → (s.launch q).isGraph = true →
    n < (s.launch q).nodeCount → s.nodeSt q n = 1 → (useGraph q).run s = .ok () s1 → (nodeWord q n).run s1 = .ok w t →
    let next := s1.succs q n
    (s1.nodeKind q n = 4 → w.toNat = s1.node q n 0x10 8 % 2 ^ 64 →
      exec (.graphNode q n) s = .next (nodeDone q n ((t.succs q n).map fun m => (m, true)) t)) ∧
    (s1.nodeKind q n = 5 → w ≠ 0 → exec (.graphNode q n) s = .next (nodeDone q n ((next.take 1).map fun m => (m, true)) t)) ∧
    (s1.nodeKind q n = 5 → w = 0 →
      exec (.graphNode q n) s = .next (nodeDone q n ((next.take 2).zipIdx.map fun p => (p.1, p.2 == 1)) t)) ∧
    (s1.nodeKind q n = 7 → w.toNat < next.length →
      exec (.graphNode q n) s = .next (nodeDone q n (next.zipIdx.map fun p => (p.1, p.2 == w.toNat)) t)) ∧
    (s1.nodeKind q n = 7 → next.length ≤ w.toNat →
      ∃ k : Nat, exec (.graphNode q n) s = .next (endLaunch q { status := 6, a := BitVec.ofNat 64 k } t)))

/-- R372, R376 to R378: a switch-out of a Running queue puts it into Switching out and stops its contexts; drained and saved it
is Switched out, its launches with it; a target that has ended meanwhile is refused with reason 8. A switch-in of a queue that
is Switched out brings its launches back and makes it Running, with the shadow of its tail; where all it has is a graph whose
nodes have no launch loaded, nothing need be read back. A vacate reads its list once; one that the checks refuse reports and moves nothing; else it stops
the contexts of the listed cores and, once they are drained and there is room for them (log entry 76), is done. -/
def preemption : Prop :=
  ∀ (q : Nat) (s : State), q < 64 →
    let u := s.queue q
    let b := u.entry
    let t := entryNat b 0x10 8
    let ls := s.targets t
    let keys := ls.flatMap s.launchCtxs
    let gone : State := endLaunch q { status := 2, a := 8, b := Config.freeWord s.fresh } { s with fresh := s.fresh + 1 }
    u.st = .running → u.closing = false → t ≠ q →
    (entryNat b 0 1 = 6 → entryNat b 1 1 = 0 →
      (u.started = false → (s.queue t).st ≠ .running → exec (.switchOut q) s = .next gone) ∧
      (u.started = true → (s.queue t).st ≠ .switchingOut → exec (.switchOut q) s = .next gone) ∧
      (u.started = false → (s.queue t).st = .running → s.queueLaunches t ≠ [] → (∀ l ∈ ls, s.rollingIn l = false) →
        (∀ k ∈ keys, (s.core (coreOfKey k)).gate = none) → Unwatched s →
        ∃ v, exec (.switchOut q) s = .next v ∧ (v.queue t).st = .switchingOut ∧ (v.queue q).started = true ∧
          ∀ k ∈ keys, s.atBoundary k = true → (v.ctx k).st = .absent) ∧
      (u.started = true → (s.queue t).st = .switchingOut → (s.queue t).closing = false → (∀ k ∈ keys, s.atBoundary k = false) →
        s.drained keys ((ls.filter fun l => (s.launch l).st != .loading).flatMap fun l => (s.launch l).cores) = true →
        (∀ k ∈ keys, (s.ctx k).due.length ≤ 8) → ∀ s1, (ls.forM saveArea).run s = .ok () s1 →
        ∃ v, exec (.switchOut q) s = .next v ∧ (v.queue t).st = .switchedOut ∧ (∀ l ∈ ls, (v.launch l).st = .switched) ∧
          Ends q s1 v)) ∧
    (entryNat b 0 1 = 6 → entryNat b 1 1 = 1 → u.started = false →
      ((s.queue t).st ≠ .switchedOut → exec (.switchIn q) s = .next gone) ∧
      ((s.queue t).st = .switchedOut → s.switchReady t = true → (∀ l ∈ s.switchedOf t, (s.launch l).isGraph = true) →
        ∃ v, exec (.switchIn q) s = .next v ∧ (v.queue t).st = .running ∧ (∀ l ∈ s.switchedOf t, (v.launch l).st = .running) ∧
          (v.queue t).tail = (if (s.queue t).shadowed then (s.queue t).shadow else (s.queue t).tail) ∧ Ends q s v) ∧
      ((s.queue t).st = .switchedOut → s.switchReady t = true → (∀ l ∈ s.switchedOf t, (s.launch l).isGraph = false) →
        ∀ s1, ((s.switchedOf t).forM restoreLaunch).run (s.modQueue t fun u => { u with st := .switchingIn }) = .ok () s1 →
        ∃ v, exec (.switchIn q) s = .next v ∧ (v.queue t).st = .running ∧
          (v.queue t).tail = (if (s1.queue t).shadowed then (s1.queue t).shadow else (s1.queue t).tail) ∧ Ends q s1 v)) ∧
    (entryNat b 0 1 = 5 → u.started = false → ∀ list s0, (vacateList q).run s = .ok list s0 →
      let mine := keys.filter fun k => list.contains (coreOfKey k)
      (∀ r, vacateRefusal s0 t list = some r →
        exec (.vacate q) s = .next (endWith q r { s0 with fresh := s0.fresh + 1 })) ∧
      (vacateRefusal s0 t list = none → (∀ l ∈ ls, s.rollingIn l = false) →
        (∀ k ∈ mine, (s0.core (coreOfKey k)).gate = none) →
        ∃ v, exec (.vacate q) s = .next v ∧ (v.queue q).started = true ∧ (v.queue q).listed = list ∧
          ∀ k ∈ mine, s0.atBoundary k = true → (v.ctx k).st = .absent)) ∧
    (entryNat b 0 1 = 5 → u.started = false → ∀ s0, (vacateList q).run s = .error recHeld s0 →
      WaitsOn (exec (.vacate q) s) s s0) ∧
    (entryNat b 0 1 = 5 → u.started = true →
      let list := u.listed
      let mine := keys.filter fun k => list.contains (coreOfKey k)
      ((s.queue t).st ≠ .running ∨ ls = [] → exec (.vacate q) s = .next gone) ∧
      ((s.queue t).st = .running → ls ≠ [] → (∀ k ∈ mine, s.atBoundary k = false) →
        s.drained mine list = true → s.arriving list = false → s.vacateFits ls list = true → (∀ l ∈ ls, (s.launch l).st ≠ .loading) →
        ∀ s1, (list.forM (imageCore ls)).run (dropRequests mine s) = .ok () s1 →
        ∃ v, exec (.vacate q) s = .next v ∧ (v.queue q).rcnt = (s1.queue q).rcnt + 1 ∧ Ends q s1 v ∧
          ∀ l ∈ ls, ∀ k ∈ list, k ∉ (v.launch l).cores))

/-- R326 to R331: the scheduler of a die whose one block left is runnable starts it in the lowest free slot of the block's
home core, with the block, its level and its step in x1 to x3 (that x2 and x3 extend the sign is the model's choice, log
entry 65). The newest notice of a neighbour is kept. A table
that is stalled on a die is frozen with a report of the snapshot of that die's blocks until the host resumes it, through M0 (R3)
(that the local blocks are the die's is the model's reading, log entry 27). -/
def levelEvents : Prop :=
  (∀ (l die b core c : Nat) (s s0 u : State), (s.launch l).dispatches = true → (useTable l).run s = .ok () s0 →
    (s0.launch l).dispatches = true → s0.candidates l die = [b] →
    s0.runnable l b = (true, none) → s0.blockCore l b = some core → s0.freeSlot core 0 = some c →
    s0.levelCtxs l core < (s0.launch l).f 0x3A 1 / 16 % 16 → (useDesc l b).run s0 = .ok () u → (u.core core).gate = none → Unwatched u →
    ∃ t, exec (.blockDispatch l die) s = .next t ∧
      let d := t.ctx (keyOf core c)
      d.st = .ready ∧ d.blk = some b ∧ d.inUpdate = true ∧ d.standing = .level ∧ d.xr 1 = BitVec.ofNat 64 b ∧
        d.xr 2 = (BitVec.ofNat 32 (u.desc l b 0 4)).signExtend 64 ∧ d.xr 3 = (BitVec.ofNat 32 (u.desc l b 4 4)).signExtend 64 ∧
        d.lvl = BitVec.ofNat 32 (u.desc l b 0 4) ∧ d.stp = BitVec.ofNat 32 (u.desc l b 4 4) ∧
        d.pc = BitVec.ofNat 57 ((u.launch l).f 0x10 8 % 2 ^ 57 + u.desc l b 0x10 4) ∧
        ∀ k, k ≠ keyOf core c → t.ctx k = u.ctx k) ∧
  (∀ (dev index l : Nat) (level step : BitVec 32) (done : Bool) (s : State), s.domEn = true → dev < 2048 → index < 65536 →
    (s.isLost dev = true → exec (.levelNotice dev index level step done) s = .next s) ∧
    (s.isLost dev = false → s.launches = [(l, s.launch l)] → (s.launch l).lvlT = true → (s.launch l).active = true →
      ∃ t, exec (.levelNotice dev index level step done) s = .next t ∧ t.mem = s.mem ∧ t.ctxs = s.ctxs ∧
        let newest := (t.launch l).notices.find? fun p => p.1 == dev * 65536 + index
        ((s.launch l).notices.find? (fun p => p.1 == dev * 65536 + index) = none →
          newest = some (dev * 65536 + index, level, step, done)) ∧
        ∀ old, (s.launch l).notices.find? (fun p => p.1 == dev * 65536 + index) = some old →
          newest = if 0 < (level - old.2.1).toInt then some (dev * 65536 + index, level, step, done) else some old)) ∧
  (∀ (l die : Nat) (s s0 s1 : State), (s.launch l).dispatches = true → (useSnapshot l die).run s = .ok () s0 →
    s0.dieStalled l die = true →
    (snapshot l (s0.dieBlocks l die) s0 = (s1, none) → (s1.launch l).st = .running →
      ∃ t, exec (.levelStall l die) s = .next t ∧ (t.launch l).stalled = true ∧ (t.launch l).st = .frozen ∧
        (t.queue (s1.launch l).q).rcnt = (s1.queue (s1.launch l).q).rcnt + 1) ∧
    (∀ va, snapshot l (s0.dieBlocks l die) s0 = (s1, some va) → exec (.levelStall l die) s = .next
      (endLaunch (s1.launch l).q { status := 9, a := BitVec.ofNat 64 va } s1))) ∧
  (∀ (l : Nat) (s : State),
    ((s.launch l).stalled = false ∨ (s.die 4).dead = true → exec (.hostResume l) s = .refused .notEnabled) ∧
    ((s.launch l).stalled = true → (s.die 4).dead = false → ∃ t, exec (.hostResume l) s = .next t ∧ (t.launch l).stalled = false ∧ t.mem = s.mem ∧
      ((s.launch l).st = .frozen → (s.launch l).freezes = [] → (t.launch l).st = .running)))

/-- The events of queues, launches, graphs and pre-emption: R313, R319 to R322, R333, R334, R354 to R364, R372, R376 to R378. -/
def Obligations.QueueEvents : Prop := queueStarts ∧ queueEntries ∧ launches ∧ graphs ∧ preemption

/-- R248 to R251, R255, R326 to R331: the level instructions, the gateway queue, and the events of level tables. -/
def Obligations.LevelAndGateway : Prop := levels ∧ gateways ∧ levelEvents

/-! ### The matrix engine, the copy engine and the controller -/

/-- R215, R216, R226: at its turn a `macz` clears its claimed tile and nothing else, and an operation of products whose steps have
all issued adds them to the rows and columns that it names, and leaves every other element. That an entry is performed at the head
of the queue, when it is the oldest in flight, rests on log entry 24. -/
def matrixEntries : Prop :=
  ∀ (cl : Nat) (m : MEnt) (rest : List MEnt) (s : State), (s.cluster cl).queue = m :: rest →
    (∀ p o, m.cmd = none → s.entryPend m = some p → p.op = .macz o →
      Tbl.get 0 (s.cluster cl).owner (o.tail.toNat % 4) = m.core + 1 →
      ∃ t, exec (.matrixQueueEntry cl) s = .next t ∧ t.mem = s.mem ∧ (t.cluster cl).queue = rest ∧
        (t.ctx m.key).pend = (s.ctx m.key).pend.filter (fun q => q.seq != p.seq) ∧
        (∀ i < 128, ∀ j < 128, accAt (t.cluster cl) (o.tail.toNat % 4) i j = 0) ∧
        ∀ u, u ≠ o.tail.toNat % 4 → ∀ i < 128, ∀ j < 128, accAt (t.cluster cl) u i j = accAt (s.cluster cl) u i j) ∧
    (∀ f, s.headMma m = some f →
      let o := f.o
      let g := o.kg.toNat + 1
      let w := Tbl.get {} (s.cluster cl).slots o.slot.toNat
      let a := aValue s cl f.off.toNat o.fmta.toNat (o.mm1.toNat + 1) (32 * g)
      (((s.cluster cl).progress m).step < g → exec (.matrixQueueEntry cl) s = .refused .notEnabled) ∧
      (g ≤ ((s.cluster cl).progress m).step → Tbl.get 0 (s.cluster cl).owner o.acc.toNat = m.core + 1 → w.full = true →
        32 * g ≤ w.k → o.nm1.toNat + 1 ≤ w.n → f.off.toNat % 128 = 0 →
        f.off.toNat + aSize o.fmta.toNat (o.mm1.toNat + 1) (32 * g) ≤ 0x40000 →
        ∃ t, exec (.matrixQueueEntry cl) s = .next t ∧ t.mem = s.mem ∧ (t.cluster cl).queue = rest ∧
          (∀ i < 128, ∀ j < 128, accAt (t.cluster cl) o.acc.toNat i j =
            if i ≤ o.mm1.toNat ∧ j ≤ o.nm1.toNat then
              accumulate (narrowClass o.fmta.toNat w) (accAt (s.cluster cl) o.acc.toNat i j) (productGroups a w i j 0 g) % 2 ^ 128
            else accAt (s.cluster cl) o.acc.toNat i j) ∧
          ∀ u, u ≠ o.acc.toNat → ∀ i < 128, ∀ j < 128, accAt (t.cluster cl) u i j = accAt (s.cluster cl) u i j))

/-- R234: a step of an operation issues where fewer than B of the last W clocks' issues are counted; otherwise it waits and
MGSTALL counts it once. R229: a step of the sequencer that has its operands moves it to the next step, and its last one ends it.
-/
def matrixSteps : Prop :=
  ∀ (cl : Nat) (m : MEnt) (rest : List MEnt) (s : State), (s.cluster cl).queue = m :: rest →
    let c := s.cluster cl
    let q := c.progress m
    let recent := c.steps.filter fun t => decide (s.clock < t + c.mgov.toNat / 2 ^ 16 % 2 ^ 10)
    (∀ f, s.headMma m = some f → q.step < f.o.kg.toNat + 1 →
      (recent.length < c.mgov.toNat % 2 ^ 10 → exec (.matrixStep cl) s = .next (s.modCluster cl fun c =>
        { c with steps := recent ++ [s.clock], seqr := some { q with step := q.step + 1, stalled := false } })) ∧
      (c.mgov.toNat % 2 ^ 10 ≤ recent.length → q.stalled = false → exec (.matrixStep cl) s = .next (s.modCluster cl fun c =>
        { c with mgstall := if c.mgstall = BitVec.allOnes 64 then c.mgstall else c.mgstall + 1
                 seqr := some { q with stalled := true } })) ∧
      (c.mgov.toNat % 2 ^ 10 ≤ recent.length → q.stalled = true → exec (.matrixStep cl) s = .refused .notEnabled)) ∧
    (∀ p o ps s1 s2 s3 next n, s.entryPend m = some p → p.op = .mseq o →
      (matrixPieces m.key cl p).run (clearNotes s) = .ok ps s1 → (∀ x ∈ ps, inWindow x.1 = false) →
      (govern cl m).run (clearNotes s) = .ok true s2 → (seqPerform m.key cl m.core o p).run s2 = .ok (next, n) s3 →
      ∃ t, exec (.mseqStep cl) s = .next t ∧ t.mem = s3.mem ∧ (t.cluster cl).acc = (s3.cluster cl).acc ∧
        (t.cluster cl).slots = (s3.cluster cl).slots ∧
        (next < n → (t.cluster cl).queue = (s3.cluster cl).queue ∧
          (t.cluster cl).seqr.map (·.step) = (s3.cluster cl).seqr.map fun _ => next + 1) ∧
        (n ≤ next → (t.cluster cl).queue = (s3.cluster cl).queue.drop 1 ∧ (t.cluster cl).seqr = none)) ∧
    (∀ p o ps s1 s2, s.entryPend m = some p → p.op = .mseq o →
      (matrixPieces m.key cl p).run (clearNotes s) = .ok ps s1 → (∀ x ∈ ps, inWindow x.1 = false) →
      (govern cl m).run (clearNotes s) = .ok false s2 → exec (.mseqStep cl) s = .next (clearNotes s2))

/-- What a matrix entry reads of a span within one line, where it lies in this package and no byte is marked: the bytes at its
place (R223, R224, R228). -/
def spanReads : Prop :=
  ∀ (key va n q : Nat) (p : Pend) (loc : Loc) (s s1 s2 : State), 0 < n → va % 128 + n ≤ 128 → va < 2 ^ 57 → s.pendReq p = none →
    inWindow va = false → (vecLoc (s.pendEnv key p) va n accRead).run s = .ok loc s1 → loc.place? = some q →
    (readLines (.mx (coreOfKey key)) 0 (pieceLines [(va, n, loc)])).run s1 = .ok () s2 → s2.gatewayPost key q n = false →
    (∀ i < n, s2.byteMark (q + i) = 0) →
    ∃ t, (readSpan key p va n).run s = .ok (match loc with
        | .mem _ _ => s2.ownBytes key q n
        | _ => s2.bytes q n) t ∧ t.mem = s2.mem

/-- R228, R229: a step of `mseq` reads its descriptor, the A piece and the B piece that the descriptor and the step name, and the
scales of a block format. The A piece stands in its half of the A-stage then, the B piece in its slot; the accumulator starts a
tile at zero where the result goes to memory, and has the 32 products of each element added. At the end of a tile the result's
rows are written, each element converted, and after them the next step into NEXT, in one write of the descriptor. The event that
performs such a step of the entry at the head completes. The stream and the source kind of the result rest on log entry 36. -/
def sequencerStep : Prop :=
  ∀ (key cl core : Nat) (o : ExM) (p : Pend) (s s1 s2 s3 s4 s5 s6 : State) (words ab bm blocks scales : List Byte),
    let at' := p.dra.toNat % 2 ^ 57
    let word := fun (i : Nat) => leNat ((words.drop (8 * i)).take 8)
    let m := o.mm1.toNat + 1
    let n := o.nm1.toNat + 1
    let tn := (n + 127) / 128
    let g := o.kg.toNat + 1
    let steps := (m + 127) / 128 * tn * g
    let st := match (s1.cluster cl).seqr with
      | some q => if q.step = 0 then word 5 / 2 ^ 32 else q.step - 1
      | none => word 5 / 2 ^ 32
    let ti := st / (tn * g)
    let tj := st / g % tn
    let k := st % g
    let pa := aSize o.fmta.toNat 128 32
    let bfmt := word 5 % 16
    let b := word 1 + (tj * g + k) * (128 + 64 * imageBlock bfmt)
    let bits := bitmapBits 128 32 bm
    let w := slotOf bfmt 128 32 bits blocks scales
    let stage := placeStage cl (p.drb.toNat + st % 2 * pa)
    let acc := o.acc.toNat
    let fresh := k = 0 ∧ o.ty ≠ 0
    p.dra.toNat % 64 = 0 → (readSpan key p at' 64).run s = .ok words s1 →
    word 5 / 16 % 2 ^ 28 = 0 → word 6 = 0 → word 7 = 0 → 1 ≤ bfmt → bfmt ≤ 9 → word 5 / 2 ^ 32 < steps →
    Tbl.get 0 (s1.cluster cl).owner acc = core + 1 → p.drb.toNat % 128 = 0 → p.drb.toNat + 2 * pa ≤ 0x40000 →
    (readSpan key p (word 0 + (ti * g + k) * pa) pa).run s1 = .ok ab s2 → (readSpan key p b 8).run s2 = .ok bm s3 →
    (readSpan key p (b + 128) ((bits.filter id).length * imageBlock bfmt)).run s3 = .ok blocks s4 →
    (readSpan key p (word 2 + 2 * (k * tn * 128 + 128 * tj)) (if blockFmt bfmt then 256 else 0)).run s4 = .ok scales s5 →
    let a := aValue (s5.setBytes stage ab) cl (p.drb.toNat + st % 2 * pa) o.fmta.toNat 128 32
    let old := fun (i j : Nat) => if fresh then 0 else accAt (s5.cluster cl) acc i j
    let new := fun (i j : Nat) => if i < min 128 (m - 128 * ti) ∧ j < min 128 (n - 128 * tj) then
      accumulate (narrowClass o.fmta.toNat w) (old i j) (productGroups a w i j 0 1) % 2 ^ 128 else old i j
    let size := tyBits o.ty / 8
    let rows := if k + 1 = g ∧ o.ty ≠ 0 then (List.range (min 128 (m - 128 * ti))).flatMap fun i =>
        let row := (List.range (min 128 (n - 128 * tj))).flatMap fun j => leBytes size (accOut o.ty o.g2 (new i j))
        byteplan (span ((word 3 + (128 * ti + i) * word 4 + 128 * tj * size) % 2 ^ 57) row.length) row
      else []
    (vecWrite key p (seqSource s5 core) 0 false (rows ++ [(at' + 0x2C, leBytes 4 (st + 1))])).run s5 = .ok () s6 →
    ∃ t, (seqPerform key cl core o p).run s = .ok (st + 1, steps) t ∧
      (∀ i < 128, ∀ j < 128, accAt (t.cluster cl) acc i j = new i j) ∧
      (∀ u, u ≠ acc → ∀ i < 128, ∀ j < 128, accAt (t.cluster cl) u i j = accAt (s5.cluster cl) u i j) ∧
      Tbl.get {} (t.cluster cl).slots (o.slot.toNat ^^^ st % 2) = w ∧
      (∀ i < ab.length, some (t.byte (stage + i)) = ab[i]?) ∧
      (∀ q, q < stage ∨ stage + ab.length ≤ q → t.byte q = s6.byte q) ∧
      ∀ (m : MEnt) (rest : List MEnt) (s0 s' : State) (ps : List (Nat × Nat)), (s0.cluster cl).queue = m :: rest → m.key = key →
        m.core = core → s0.entryPend m = some p → p.op = .mseq o → (matrixPieces key cl p).run (clearNotes s0) = .ok ps s' →
        (∀ x ∈ ps, inWindow x.1 = false) → (govern cl m).run (clearNotes s0) = .ok true s →
        ∃ v, exec (.mseqStep cl) s0 = .next v ∧ v.mem = t.mem ∧ (v.cluster cl).acc = (t.cluster cl).acc ∧
          (v.cluster cl).slots = (t.cluster cl).slots

/-- R239, R242: the engine moves the next line of a copy that is neither stopped nor behind an earlier one, or waits for bytes in
the window, or learns entries of a block table there; a fault stops it, and a line that cannot be read or written yet makes it wait. R73, R239: a copy whose lines have all landed completes:
its tag is free (among the tags of the core that it was issued on, should that have been vacated, R379), its follow-on command
enters the queue, and it leaves. -/
def copyMoves : Prop :=
  (∀ (id : Nat) (c : Copy) (s : State), s.copies.find? (fun x => x.id == id) = some c → c.stopped = false → c.next < c.total →
    s.copyBehind c = false →
    (∀ t, (moveLine c).run s = .ok () t → exec (.copyLine id) s = .next t ∧
      ∃ d, t.copies.find? (fun x => x.id == id) = some d ∧
        (d.next = c.next + 1 ∧ d.req = none ∨ d.next = c.next ∧ (d.req.isSome = true ∨ d.entries ≠ c.entries))) ∧
    (∀ f t, (moveLine c).run s = .error (.trap f) t → exec (.copyLine id) s = .next (copyFault c f t)) ∧
    (∀ w b t, (moveLine c).run s = .error (.hold w b) t → WaitsOn (exec (.copyLine id) s) s t)) ∧
  (∀ (id : Nat) (c : Copy) (s : State), s.copies.find? (fun x => x.id == id) = some c → c.stopped = false → c.total ≤ c.next →
    c.total ≤ c.landed → s.copyBehind c = false →
    (c.done = none → c.queueEntry = none → (∀ f, c.follow = some f → (s.cluster c.cl).queue.length < 32) →
      ∃ t, exec (.copyComplete id) s = .next t ∧ t.mem = s.mem ∧ t.copies = s.copies.filter (fun x => x.id != id) ∧
        (c.origin = none → Tbl.get 0 (t.core c.core).copies c.tag.toNat = 0) ∧
        (∀ k, c.origin = some k → Tbl.get 0 (Tbl.get {} (t.launch c.launch).tables k).copies c.tag.toNat = 0) ∧
        (t.cluster c.cl).queue = (s.cluster c.cl).queue ++ (match c.follow with
          | some f => [{ key := c.key.getD noKey, seq := c.tag, core := c.core, slot := c.slot, cmd := some f }]
          | none => [])) ∧
    (c.follow = none → ∀ va v q t, c.done = some (va, v) → c.queueEntry = some q → c.node = none →
      (completionWrite c va v).run s = .ok () t → ∃ u, exec (.copyComplete id) s = .next u ∧ Ends q t u))

/-- R239, R241: which bytes line k of a plain copy of one row reads and writes. It reads the source bytes of the destination line,
each piece of them at its place, and posts them with their poison marks, as one store on its stream, to the destination's die; or,
with AST, writes them, none of them marked, into the A-stage of its cluster. That the parts of one destination line are one posted
store rests on log entry 37. -/
def copyLines : Prop :=
  ∀ (id : Nat) (c : Copy) (s s1 s2 : State) (locs : List (Nat × Nat × Loc)),
    s.copies.find? (fun x => x.id == id) = some c → c.stopped = false → c.next < c.total → s.copyBehind c = false →
    c.mode = 0 → c.fmt = 0 → c.rows = 1 → c.planes = 1 → c.req = none →
    let lo := if c.astage then 128 * c.next else if c.next = 0 then 0 else 128 * c.next - c.dst % 128
    let hi := min c.x (if c.astage then 128 * c.next + 128 else 128 * (c.next + 1) - c.dst % 128)
    let n := hi - lo
    lo < hi → (vecLocs c.env accRead (linePieces 3 ((c.src + lo) % 2 ^ 57) n)).run s = .ok locs s1 →
    (∀ l ∈ locs, inWindow l.1 = false ∧ l.2.2.place?.isSome = true) →
    (readLines (.l2 (dieOfCore c.core)) 0 (pieceLines locs)).run s1 = .ok () s2 → (∀ p ∈ s2.posts, p.key ≠ engineKey) →
    let places := locs.flatMap fun l => (List.range l.2.1).map fun i => l.2.2.place?.getD 0 + i
    let u := { s2 with copies := s2.copies.map fun y =>
      if y.id = id then { y with next := y.next + 1, req := none, entries := [] } else y }
    (c.astage = true → c.bar = none → (∀ p ∈ places, s2.byteMark p = 0) →
      ∃ t, exec (.copyLine id) s = .next t ∧
        (∀ i < n, t.byte (placeStage c.cl (c.dst + lo + i)) = s2.byte (places.getD i 0)) ∧
        ∀ q, (∀ i < n, q ≠ placeStage c.cl (c.dst + lo + i)) → t.byte q = s2.byte q) ∧
    (∀ loc p v, c.astage = false → (v.launch c.launch).det = false →
      (vecLoc c.env ((c.dst + lo) % 2 ^ 57) n accWrite).run u = .ok loc v → loc.place? = some p →
      let dest := match loc with
        | .mem p mt => if mt = 3 then 4096 else 2048 + (homeDie p).getD 0
        | _ => 2048 + bankDie p
      v.copyRoom c dest = true → v.bankHeld .home p = false →
      ∃ t w, exec (.copyLine id) s = .next t ∧ w ∈ t.posts ∧ w.copy = some id ∧ w.core = c.core ∧ w.stream = c.stream ∧
        w.dest = dest ∧ w.place = p ∧ w.skip = [] ∧ w.bytes = places.map s2.byte ∧
        (∀ i < n, w.marks.getD i 0 = s2.byteMark (places.getD i 0)) ∧ t.mem = v.mem ∧ ∀ q ∈ v.posts, q ∈ t.posts)

/-- R408 to R410: a write of LMCMD starts a command, during which BUSY reads 1 and another write is ignored; the result of each
command, and what it writes or keeps. RES 3 for a refused buffer and the key slots rest on log entries 51 and 12. -/
def mailboxCommands : Prop :=
  (∀ (v : Word) (s : State), (s.die 4).dead = false →
    (s.lmCmd = none → exec (.registerWrite 0x0C0 v) s = .next { s with lmCmd := some v }) ∧
    (s.lmCmd.isSome = true → exec (.registerWrite 0x0C0 v) s = .next s) ∧
    (regRead s 0x0D0).getLsbD 0 = s.lmCmd.isSome) ∧
  ∀ (s : State) (v : Word), s.lmCmd = some v →
    let idle := { s with lmCmd := none }
    let cmd := v.toNat % 256
    (s.lmBufOK = false → ∀ p ∈ [(1, Instr.lmAttest), (2, .lmStageFirmware), (3, .lmInstallLinkKey), (4, .lmWriteCert)],
      (cmd = p.1 → exec p.2 s = .next { idle with lmRes := 3 }) ∧ (cmd ≠ p.1 → exec p.2 s = .refused .notEnabled)) ∧
    (s.lmBufOK = true →
      let b := s.lmBuf
      (cmd = 1 → Unhindered s → ∃ t, exec .lmAttest s = .next t ∧ t.lmRes = 0 ∧ t.lmCmd = none ∧
        t.bytes (b + 0x40) 368 = reportBody s ∧
        t.bytes (b + 0x1B0) 7856 = padTo 7856 (Config.sign (Config.sha256 (reportBody s))) ∧
        ∀ a, a < b + 0x40 ∨ b + 0x2060 ≤ a → t.byte a = s.byte a) ∧
      (cmd = 4 → Unhindered s → ∃ t, exec .lmWriteCert s = .next t ∧ t.lmRes = 0 ∧ t.lmCmd = none ∧
        t.bytes b Config.certificate.length = Config.certificate) ∧
      (∀ k, cmd = 3 → Config.unwrap (s.bytes b 64) = some k →
        ∃ t, exec .lmInstallLinkKey s = .next t ∧ t.lmRes = 0 ∧ t.lmCmd = none ∧ k % 8 ∈ t.linkKeys ∧ t.mem = s.mem) ∧
      (cmd = 3 → Config.unwrap (s.bytes b 64) = none → exec .lmInstallLinkKey s = .next { idle with lmRes := 3 }) ∧
      let die := leNat (s.bytes b 8)
      let version := BitVec.ofNat 64 (leNat (s.bytes (b + 8) 8))
      let len := leNat (s.bytes (b + 0x10) 8)
      let digest := s.bytes (b + 0x20) 32
      let signed := Config.verify (Config.sha256 (s.bytes b 64)) (s.bytes (b + 64) 7856)
      let whole := die ≤ 5 ∧ len < 2 ^ 52 ∧ Config.sha256 (s.bytes (b + 7920) len) = digest
      cmd = 2 →
      (signed = false → exec .lmStageFirmware s = .next { idle with lmRes := 1 }) ∧
      (signed = true → ¬ whole → exec .lmStageFirmware s = .next { idle with lmRes := 3 }) ∧
      (signed = true → whole → version.toNat < (Tbl.get {} s.firmware die).floor.toNat →
        exec .lmStageFirmware s = .next { idle with lmRes := 2 }) ∧
      (signed = true → whole → (Tbl.get {} s.firmware die).floor.toNat ≤ version.toNat →
        ∃ t, exec .lmStageFirmware s = .next t ∧ t.lmRes = 0 ∧ t.lmCmd = none ∧ t.mem = s.mem ∧
          (Tbl.get {} t.firmware die).staged = some (version, digest))) ∧
    (cmd = 0 ∨ 4 < cmd → exec (.lmUnknownCommand v) s = .next { idle with lmRes := 4 })

/-- The event of a package reset, R402 to R406 and R409: soft errors are counted in their window, retire a unit above the
threshold, and leave a record; an uncorrectable one marks bytes of memory, a register of a context, or a lane's register; a
retirement takes effect where nothing uses the unit; a reset keeps memory, counters and the repair map, and boots what is
staged; a loss of power loses the counters alone. -/
def repairEvents : Prop :=
  (∀ (u : BitVec 32) (pa tm : Nat) (s : State), unitListed u = true →
    let e := s.eccOf u
    let anew := e.count = 0 ∨ (s.reg 0x58).toNat ≤ tm - e.start
    let count := if e.count = 0 then 1 else if (s.reg 0x58).toNat ≤ tm - e.start then 1 else min (e.count + 1) 255
    let beyond := (s.reg 0x50).toNat < count ∧ unitRetirable u = true ∧ s.repair.length < 1024 ∧ ∀ r ∈ s.repair, r.unit ≠ u
    let log := (Tbl.get 8 s.regs 0x80).toNat / 2 ^ 12 % 2 ^ 40 * 4096
    let n := (Tbl.get 0 s.regs 0x88).toNat
    ∃ t, exec (.eccCorrected u pa tm) s = .next t ∧ (Unwatched s → t.ctxs = s.ctxs) ∧ (t.eccOf u).count = count ∧
      (t.eccOf u).total = (if e.total = BitVec.allOnes 32 then e.total else e.total + 1) ∧
      (anew → (t.eccOf u).start = tm) ∧ (¬ anew → (t.eccOf u).start = e.start) ∧
      (beyond → t.repair = s.repair ++ [{ unit := u, cause := 1, act := false }]) ∧ (¬ beyond → t.repair = s.repair) ∧
      ((s.reg 0x50).toNat ≥ count → log ≠ 0 → Unhindered s → Tbl.get 0 t.regs 0x88 = BitVec.ofNat 64 ((n + 1) % 2 ^ 32) ∧
        t.byte (log + 32 * (n % 2 ^ ((Tbl.get 8 s.regs 0x80).toNat % 2 ^ 5)) + 12) = 1)) ∧
  (∀ (u : BitVec 32) (place n tm : Nat) (s : State), unitListed u = true → Unwatched s →
    let log := (Tbl.get 8 s.regs 0x80).toNat / 2 ^ 12 % 2 ^ 40 * 4096
    let size := 32 * 2 ^ ((Tbl.get 8 s.regs 0x80).toNat % 2 ^ 5)
    ∃ t, exec (.eccUncorrectable u place n tm) s = .next t ∧
      (place + n ≤ 2 ^ 58 → t.ctxs = s.ctxs ∧
        ∀ i < n, place + i < log ∨ log + size ≤ place + i → t.byteMark (place + i) = markOf (place + i) false) ∧
      (∀ key r, key < 2 ^ 20 → place = 2 ^ 58 + key * 2 ^ 16 + r → n = 1 → 1 ≤ r → r < 64 → (s.ctx key).live = true →
        (t.ctx key).mark r = markOf place false ∧ (t.ctx key).xr r = (s.ctx key).xr r) ∧
      (∀ key lane r b, key < 2 ^ 20 → place = 2 ^ 59 + key * 2 ^ 20 + lane * 4096 + 4 * r + b → n = 1 → b < 4 → r < 32 →
        lane < (s.ctx key).vl → lane < 256 → (s.ctx key).live = true → (t.ctx key).vmark r lane = markOf place false) ∧
      (unitRetirable u = true → s.repair.length < 1024 → (∀ r ∈ s.repair, r.unit ≠ u) →
        t.repair = s.repair ++ [{ unit := u, cause := 2, act := false }])) ∧
  (∀ (u : BitVec 32) (pa tm : Nat) (s : State), unitListed u = false → exec (.eccCorrected u pa tm) s = .refused .notEnabled ∧
    exec (.eccUncorrectable u pa pa tm) s = .refused .notEnabled) ∧
  (∀ (u : BitVec 32) (tm : Nat) (s : State), (∃ r ∈ s.repair, r.unit = u ∧ r.act = false) →
    (s.retireReady u = false → exec (.retire u tm) s = .refused .notEnabled) ∧
    (s.retireReady u = true → ∃ t, exec (.retire u tm) s = .next t ∧ (Unwatched s → t.ctxs = s.ctxs) ∧ t.retired u = true ∧
      t.repair.length = s.repair.length ∧ (unitKind u = 1 → (t.core (unitDie u * 512 + unitIndex u)).retired = true))) ∧
  (∀ s : State, ∃ t, exec .packageReset s = .next t ∧ t.mem = s.mem ∧ t.marks = s.marks ∧ t.ecc = s.ecc ∧
    t.ctxs = State.reset.ctxs ∧ t.queues = State.reset.queues ∧ t.launches = State.reset.launches ∧ t.regs = State.reset.regs ∧
    t.linkKeys = [] ∧ t.repair.map (·.unit) = s.repair.map (·.unit) ∧
    (∀ k, (s.core k).retired = true → (t.core k).retired = true) ∧
    ∀ d < 6, Tbl.get {} t.firmware d = (Tbl.get {} s.firmware d).boot) ∧
  (∀ s : State, exec .powerLoss s = .next { s with ecc := [] })

/-- The events of the matrix engine and the copy engine: R215, R216, R226, R228, R229, R234, R239, R241,
R242. -/
def Obligations.EngineEvents : Prop :=
  matrixEntries ∧ matrixSteps ∧ spanReads ∧ sequencerStep ∧ copyMoves ∧ copyLines

/-- The events of the controller: R402, R403, R405, R406, R408 to R410. -/
def Obligations.ControllerEvents : Prop := mailboxCommands ∧ repairEvents

/-! ### Reset, and the invariant of memory -/

/-- The values that the spec gives for a package reset: the registers of R353, R354, R380, R399, R404 and R407, MGOV of R234, the
split of R257, the event units of R207, and the counters and windows of R198. Memory lists nothing, in its canonical form, and no
context stands in a slot; that its bytes read as 0 is the model's choice (log entry 3). -/
def Obligations.ResetValues : Prop :=
  let s := State.reset
  (∀ p ∈ [(0x000, 0x100), (0x008, 1000), (0x050, 16), (0x058, 86400), (0x080, 8), (0x700008, 2000)],
    regRead s p.1 = BitVec.ofNat 64 p.2) ∧
  (∀ o ∈ [0x010, 0x018, 0x020, 0x040, 0x048, 0x088, 0x0C0, 0x0C8, 0x0D0, 0x700000, 0x700010, 0x700018, 0x700020], regRead s o = 0) ∧
  (∀ q < 64, regRead s (0x1000 + 0x40 * q + 8) = 0x4001E ∧
    ∀ o ∈ [0x00, 0x10, 0x18, 0x20, 0x28, 0x30, 0x38], regRead s (0x1000 + 0x40 * q + o) = 0) ∧
  (∀ p < 24, regRead s (0x700100 + 8 * p) = 0) ∧
  (∀ die < 4, ∀ n < 6, regRead s (0x100000 * (die + 1) + 0x100 + 8 * n) =
    BitVec.ofNat 64 (10 * 2 ^ 32 + if n = die then 5 else if n = 5 ∧ die < 2 ∨ n = 4 ∧ 2 ≤ die then 6 else 0)) ∧
  (∀ die < 4, ∀ cl < 64, regRead s (0x100000 * (die + 1) + 0x10000 + 0x100 * cl) = BitVec.ofNat 64 (256 * 2 ^ 16 + 192)) ∧
  (∀ core < 2048, (s.core core).split = 4 ∧ ∀ stream < 16, ∀ dest < 4096, (s.stream core stream dest).next = 0) ∧
  (∀ cl < 256, ∀ n < 64, Tbl.get {} (s.cluster cl).lines n = { set := false, payload := 0 } ∧
    (Tbl.get {} (s.cluster cl).counters n).round = 0 ∧ (Tbl.get {} (s.cluster cl).counters n).arrived = 0 ∧
    (Tbl.get {} (s.cluster cl).counters n).expect = 0 ∧ Tbl.get 0 (s.cluster cl).mutexes n = 0) ∧
  (∀ k, s.expected k = 0) ∧ (∀ key, (s.ctx key).st = .free) ∧
  s.mem = [] ∧ Memory.wf s.mem = true ∧ ∀ p, s.byte p = 0

/-- Every step keeps memory in its canonical form: addresses strictly rise, and no entry equals what an unlisted address reads as.
Equal memories are therefore equal data (R175 gives memory its bytes; the form is the model's). -/
def Obligations.StepKeepsMemory : Prop :=
  ∀ s t : State, Memory.wf s.mem = true → step s = .next t → Memory.wf t.mem = true
end

