-- ==== Sys2Proof/Laws/Tbl.lean ====
section
/-!
SUPPORT. Laws of the sparse tables: a read after a write, and the canonical form, which every table operation keeps.
-/

namespace Sys2Proof

namespace Tbl

variable {α : Type}

theorem get_erase_self (d : α) (t : Tbl α) (n : Nat) : get d (erase t n) n = d := by
  induction t with
  | nil => rfl
  | cons p t ih =>
    by_cases h : p.1 = n
    · simp [erase, h, ih]
    · simp [erase, get, h, ih]

theorem get_erase_ne (d : α) (t : Tbl α) {n m : Nat} (hm : m ≠ n) : get d (erase t n) m = get d t m := by
  induction t with
  | nil => rfl
  | cons p t ih =>
    by_cases h : p.1 = n
    · simp [erase, get, h, ih, hm.symm]
    · simp [erase, get, h, ih]

theorem get_put_self (d : α) (t : Tbl α) (n : Nat) (x : α) (h : get d t n = d) (hx : ∀ p ∈ t, p.1 ≠ n) :
    get d (put t n x) n = x := by
  induction t with
  | nil => simp [put, get]
  | cons p t ih =>
    have hp : p.1 ≠ n := hx p (by simp)
    by_cases hn : n < p.1
    · simp [put, get, hn]
    · simp only [put, hn, if_false, get, hp]
      exact ih (by simpa [get, hp] using h) fun q hq => hx q (by simp [hq])

theorem get_put_ne (d : α) (t : Tbl α) {n m : Nat} (x : α) (hm : m ≠ n) : get d (put t n x) m = get d t m := by
  induction t with
  | nil => simp [put, get, hm.symm]
  | cons p t ih =>
    by_cases hn : n < p.1
    · simp [put, get, hn, hm.symm]
    · simp [put, get, hn, ih]

theorem mem_erase_ne (t : Tbl α) (n : Nat) : ∀ p ∈ erase t n, p.1 ≠ n := by
  induction t with
  | nil => simp [erase]
  | cons q t ih =>
    by_cases h : q.1 = n
    · simpa [erase, h] using ih
    · intro p hp
      simp only [erase, h, if_false, List.mem_cons] at hp
      rcases hp with rfl | hp
      · exact h
      · exact ih p hp

theorem erase_erase (t : Tbl α) (n : Nat) : erase (erase t n) n = erase t n := by
  induction t with
  | nil => rfl
  | cons p t ih =>
    by_cases h : p.1 = n
    · simp [erase, h, ih]
    · simp [erase, h, ih]

theorem erase_put (t : Tbl α) (n : Nat) (x : α) : erase (put t n x) n = erase t n := by
  induction t with
  | nil => simp [put, erase]
  | cons p t ih =>
    by_cases hn : n < p.1
    · simp [put, erase, hn]
    · by_cases h : p.1 = n
      · simp [put, erase, h, ih]
      · simp [put, erase, hn, h, ih]

variable [DecidableEq α]

/-- A read of what was written gives it. -/
@[simp] theorem get_set_self (d : α) (t : Tbl α) (n : Nat) (x : α) : get d (set d t n x) n = x := by
  unfold set
  by_cases h : x = d
  · simp [h, get_erase_self]
  · simp only [h, if_false]
    exact get_put_self d _ n x (get_erase_self d t n) (mem_erase_ne t n)

/-- A write leaves every other key alone. -/
theorem get_set_ne (d : α) (t : Tbl α) {n m : Nat} (x : α) (hm : m ≠ n) : get d (set d t n x) m = get d t m := by
  unfold set
  by_cases h : x = d
  · simp [h, get_erase_ne d t hm]
  · simp only [h, if_false]
    rw [get_put_ne d _ x hm, get_erase_ne d t hm]

/-- A read after a write. -/
theorem get_set (d : α) (t : Tbl α) (n m : Nat) (x : α) : get d (set d t n x) m = if m = n then x else get d t m := by
  by_cases h : m = n
  · subst h; simp
  · simp [h, get_set_ne d t x h]

/-- The last of two writes to a key counts. -/
@[simp] theorem set_set (d : α) (t : Tbl α) (n : Nat) (x y : α) : set d (set d t n x) n y = set d t n y := by
  have : erase (set d t n x) n = erase t n := by
    unfold set
    split
    · exact erase_erase t n
    · rw [erase_put, erase_erase]
  unfold set at this ⊢
  rw [this]

/-! ### The canonical form -/

/-- Every key lies above a bound. -/
def Above (lo : Option Nat) (n : Nat) : Prop := ∀ m, lo = some m → m < n

theorem wfFrom_cons (d : α) (lo : Option Nat) (p : Nat × α) (t : Tbl α) :
    wfFrom d lo (p :: t) = true ↔ Above lo p.1 ∧ p.2 ≠ d ∧ wfFrom d (some p.1) t = true := by
  cases lo <;> simp [wfFrom, Above, and_assoc]

theorem wfFrom_mono (d : α) {lo lo' : Option Nat} (t : Tbl α) (h : wfFrom d lo t = true)
    (hl : ∀ n, Above lo n → Above lo' n) : wfFrom d lo' t = true := by
  cases t with
  | nil => rfl
  | cons p t =>
    rw [wfFrom_cons] at h ⊢
    exact ⟨hl _ h.1, h.2⟩

theorem wfFrom_erase (d : α) (lo : Option Nat) (t : Tbl α) (n : Nat) (h : wfFrom d lo t = true) :
    wfFrom d lo (erase t n) = true := by
  induction t generalizing lo with
  | nil => rfl
  | cons p t ih =>
    rw [wfFrom_cons] at h
    by_cases hn : p.1 = n
    · simp only [erase, hn, if_true]
      refine ih lo (wfFrom_mono d t h.2.2 ?_)
      intro k hk m hm
      exact Nat.lt_trans (h.1 m hm) (hk _ rfl)
    · simp only [erase, hn, if_false]
      rw [wfFrom_cons]
      exact ⟨h.1, h.2.1, ih _ h.2.2⟩

theorem wfFrom_put (d : α) (lo : Option Nat) (t : Tbl α) (n : Nat) (x : α) (h : wfFrom d lo t = true) (hx : x ≠ d)
    (hlo : Above lo n) (hn : ∀ p ∈ t, p.1 ≠ n) : wfFrom d lo (put t n x) = true := by
  induction t generalizing lo with
  | nil => rw [put, wfFrom_cons]; exact ⟨hlo, hx, rfl⟩
  | cons p t ih =>
    rw [wfFrom_cons] at h
    by_cases hp : n < p.1
    · simp only [put, hp, if_true]
      rw [wfFrom_cons, wfFrom_cons]
      exact ⟨hlo, hx, fun m hm => by cases hm; exact hp, h.2⟩
    · simp only [put, hp, if_false]
      rw [wfFrom_cons]
      refine ⟨h.1, h.2.1, ih _ h.2.2 ?_ fun q hq => hn q (by simp [hq])⟩
      intro m hm
      cases hm
      exact Nat.lt_of_le_of_ne (Nat.le_of_not_lt hp) (hn p (by simp))

/-- A write keeps the canonical form. -/
theorem wf_set (d : α) (t : Tbl α) (n : Nat) (x : α) (h : wf d t = true) : wf d (set d t n x) = true := by
  unfold set
  have he : wfFrom d none (erase t n) = true := wfFrom_erase d none t n h
  by_cases hx : x = d
  · simp only [hx, if_true]
    exact he
  · simp only [hx, if_false]
    exact wfFrom_put d none _ n x he hx (fun m hm => by cases hm) (mem_erase_ne t n)

theorem wfFrom_filter (d : α) (lo : Option Nat) (t : Tbl α) (f : Nat × α → Bool) (h : wfFrom d lo t = true) :
    wfFrom d lo (t.filter f) = true := by
  induction t generalizing lo with
  | nil => rfl
  | cons p t ih =>
    rw [wfFrom_cons] at h
    by_cases hp : f p = true
    · rw [List.filter_cons_of_pos hp, wfFrom_cons]
      exact ⟨h.1, h.2.1, ih _ h.2.2⟩
    · rw [List.filter_cons_of_neg hp]
      refine ih lo (wfFrom_mono d t h.2.2 ?_)
      intro k hk m hm
      exact Nat.lt_trans (h.1 m hm) (hk _ rfl)

/-- A part of a table keeps the canonical form. -/
theorem wf_filter (d : α) (t : Tbl α) (f : Nat × α → Bool) (h : wf d t = true) : wf d (t.filter f) = true :=
  wfFrom_filter d none t f h

/-- Clearing a range keeps the canonical form. -/
theorem wf_clear (d : α) (t : Tbl α) (lo hi : Nat) (h : wf d t = true) : wf d (clear t lo hi) = true := wf_filter d t _ h

/-- A run of writes keeps the canonical form. -/
theorem wf_foldl_set {β : Type} (d : α) (l : List β) (k : β → Nat) (v : β → α) (t : Tbl α) (h : wf d t = true) :
    wf d (l.foldl (fun t b => set d t (k b) (v b)) t) = true := by
  induction l generalizing t with
  | nil => exact h
  | cons b l ih => exact ih _ (wf_set d t _ _ h)

/-- Tables of one canonical form that read alike are equal. -/
theorem ext_wfFrom (d : α) (lo : Option Nat) (t u : Tbl α) (ht : wfFrom d lo t = true) (hu : wfFrom d lo u = true)
    (h : ∀ n, get d t n = get d u n) : t = u := by
  have low : ∀ (lo : Nat) (t : Tbl α) (n : Nat), wfFrom d (some lo) t = true → n ≤ lo → get d t n = d := by
    intro lo t
    induction t generalizing lo with
    | nil => intros; rfl
    | cons p t ih =>
      intro n hw hn
      rw [wfFrom_cons] at hw
      have hp := hw.1 lo rfl
      have : p.1 ≠ n := by omega
      simp only [get, this, if_false]
      exact ih p.1 n hw.2.2 (by omega)
  induction t generalizing lo u with
  | nil =>
    cases u with
    | nil => rfl
    | cons q u =>
      rw [wfFrom_cons] at hu
      exact absurd (by simpa [get] using (h q.1).symm) hu.2.1
  | cons p t ih =>
    cases u with
    | nil =>
      rw [wfFrom_cons] at ht
      exact absurd (by simpa [get] using h p.1) ht.2.1
    | cons q u =>
      rw [wfFrom_cons] at ht hu
      have hk : p.1 = q.1 := by
        rcases Nat.lt_trichotomy p.1 q.1 with hl | he | hl
        · have e := h p.1
          have : q.1 ≠ p.1 := by omega
          simp only [get, if_true, this, if_false] at e
          rw [low q.1 u p.1 hu.2.2 (by omega)] at e
          exact absurd e ht.2.1
        · exact he
        · have e := h q.1
          have : p.1 ≠ q.1 := by omega
          simp only [get, if_true, this, if_false] at e
          rw [low p.1 t q.1 ht.2.2 (by omega)] at e
          exact absurd e.symm hu.2.1
      have hv : p.2 = q.2 := by
        have e := h p.1
        simpa [get, hk] using e
      have htu : t = u := by
        refine ih (some p.1) u ht.2.2 (hk ▸ hu.2.2) fun n => ?_
        by_cases hn : n ≤ p.1
        · rw [low p.1 t n ht.2.2 hn, low q.1 u n hu.2.2 (hk ▸ hn)]
        · have e := h n
          have h1 : p.1 ≠ n := by omega
          have h2 : q.1 ≠ n := by omega
          simpa [get, h1, h2] using e
      rw [htu, Prod.ext hk hv]

/-- Two tables in canonical form that read alike are equal. -/
theorem ext_wf (d : α) (t u : Tbl α) (ht : wf d t = true) (hu : wf d u = true) (h : ∀ n, get d t n = get d u n) : t = u :=
  ext_wfFrom d none t u ht hu h

end Tbl

end Sys2Proof
end

