-- ==== Sys2Proof/Laws/State.lean ====
section
/-!
SUPPORT. The state under each update: which field and which accessor it leaves as it was, and what it reads afterwards.
-/

namespace Sys2Proof.Machine

open Sys2Proof

/-! ### setCtx -/

@[simp] theorem setCtx_clock (s : State) (k : Nat) (c : Ctx) : (s.setCtx k c).clock = s.clock := rfl
@[simp] theorem setCtx_cur (s : State) (k : Nat) (c : Ctx) : (s.setCtx k c).cur = s.cur := rfl
@[simp] theorem setCtx_agenda (s : State) (k : Nat) (c : Ctx) : (s.setCtx k c).agenda = s.agenda := rfl
@[simp] theorem setCtx_fresh (s : State) (k : Nat) (c : Ctx) : (s.setCtx k c).fresh = s.fresh := rfl
@[simp] theorem setCtx_iw (s : State) (k : Nat) (c : Ctx) : (s.setCtx k c).iw = s.iw := rfl
@[simp] theorem setCtx_after (s : State) (k : Nat) (c : Ctx) : (s.setCtx k c).after = s.after := rfl
@[simp] theorem setCtx_watch (s : State) (k : Nat) (c : Ctx) : (s.setCtx k c).watch = s.watch := rfl
@[simp] theorem setCtx_cores (s : State) (k : Nat) (c : Ctx) : (s.setCtx k c).cores = s.cores := rfl
@[simp] theorem setCtx_clusters (s : State) (k : Nat) (c : Ctx) : (s.setCtx k c).clusters = s.clusters := rfl
@[simp] theorem setCtx_dies (s : State) (k : Nat) (c : Ctx) : (s.setCtx k c).dies = s.dies := rfl
@[simp] theorem setCtx_mem (s : State) (k : Nat) (c : Ctx) : (s.setCtx k c).mem = s.mem := rfl
@[simp] theorem setCtx_marks (s : State) (k : Nat) (c : Ctx) : (s.setCtx k c).marks = s.marks := rfl
@[simp] theorem setCtx_wlog (s : State) (k : Nat) (c : Ctx) : (s.setCtx k c).wlog = s.wlog := rfl
@[simp] theorem setCtx_dir (s : State) (k : Nat) (c : Ctx) : (s.setCtx k c).dir = s.dir := rfl
@[simp] theorem setCtx_home (s : State) (k : Nat) (c : Ctx) : (s.setCtx k c).home = s.home := rfl
@[simp] theorem setCtx_late (s : State) (k : Nat) (c : Ctx) : (s.setCtx k c).late = s.late := rfl
@[simp] theorem setCtx_reqs (s : State) (k : Nat) (c : Ctx) : (s.setCtx k c).reqs = s.reqs := rfl
@[simp] theorem setCtx_msgs (s : State) (k : Nat) (c : Ctx) : (s.setCtx k c).msgs = s.msgs := rfl
@[simp] theorem setCtx_misses (s : State) (k : Nat) (c : Ctx) : (s.setCtx k c).misses = s.misses := rfl
@[simp] theorem setCtx_snoops (s : State) (k : Nat) (c : Ctx) : (s.setCtx k c).snoops = s.snoops := rfl
@[simp] theorem setCtx_posts (s : State) (k : Nat) (c : Ctx) : (s.setCtx k c).posts = s.posts := rfl
@[simp] theorem setCtx_windows (s : State) (k : Nat) (c : Ctx) : (s.setCtx k c).windows = s.windows := rfl
@[simp] theorem setCtx_wmarks (s : State) (k : Nat) (c : Ctx) : (s.setCtx k c).wmarks = s.wmarks := rfl
@[simp] theorem setCtx_peerPosts (s : State) (k : Nat) (c : Ctx) : (s.setCtx k c).peerPosts = s.peerPosts := rfl
@[simp] theorem setCtx_wreqs (s : State) (k : Nat) (c : Ctx) : (s.setCtx k c).wreqs = s.wreqs := rfl
@[simp] theorem setCtx_peerReqs (s : State) (k : Nat) (c : Ctx) : (s.setCtx k c).peerReqs = s.peerReqs := rfl
@[simp] theorem setCtx_copies (s : State) (k : Nat) (c : Ctx) : (s.setCtx k c).copies = s.copies := rfl
@[simp] theorem setCtx_bards (s : State) (k : Nat) (c : Ctx) : (s.setCtx k c).bards = s.bards := rfl
@[simp] theorem setCtx_tiles (s : State) (k : Nat) (c : Ctx) : (s.setCtx k c).tiles = s.tiles := rfl
@[simp] theorem setCtx_queues (s : State) (k : Nat) (c : Ctx) : (s.setCtx k c).queues = s.queues := rfl
@[simp] theorem setCtx_lastQueue (s : State) (k : Nat) (c : Ctx) : (s.setCtx k c).lastQueue = s.lastQueue := rfl
@[simp] theorem setCtx_launches (s : State) (k : Nat) (c : Ctx) : (s.setCtx k c).launches = s.launches := rfl
@[simp] theorem setCtx_regs (s : State) (k : Nat) (c : Ctx) : (s.setCtx k c).regs = s.regs := rfl
@[simp] theorem setCtx_routes (s : State) (k : Nat) (c : Ctx) : (s.setCtx k c).routes = s.routes := rfl
@[simp] theorem setCtx_lost (s : State) (k : Nat) (c : Ctx) : (s.setCtx k c).lost = s.lost := rfl
@[simp] theorem setCtx_tlbiBusy (s : State) (k : Nat) (c : Ctx) : (s.setCtx k c).tlbiBusy = s.tlbiBusy := rfl
@[simp] theorem setCtx_tlbiPosts (s : State) (k : Nat) (c : Ctx) : (s.setCtx k c).tlbiPosts = s.tlbiPosts := rfl
@[simp] theorem setCtx_tlbiTiles (s : State) (k : Nat) (c : Ctx) : (s.setCtx k c).tlbiTiles = s.tlbiTiles := rfl
@[simp] theorem setCtx_engines (s : State) (k : Nat) (c : Ctx) : (s.setCtx k c).engines = s.engines := rfl
@[simp] theorem setCtx_ecc (s : State) (k : Nat) (c : Ctx) : (s.setCtx k c).ecc = s.ecc := rfl
@[simp] theorem setCtx_repair (s : State) (k : Nat) (c : Ctx) : (s.setCtx k c).repair = s.repair := rfl
@[simp] theorem setCtx_firmware (s : State) (k : Nat) (c : Ctx) : (s.setCtx k c).firmware = s.firmware := rfl
@[simp] theorem setCtx_linkKeys (s : State) (k : Nat) (c : Ctx) : (s.setCtx k c).linkKeys = s.linkKeys := rfl
@[simp] theorem setCtx_lmRes (s : State) (k : Nat) (c : Ctx) : (s.setCtx k c).lmRes = s.lmRes := rfl
@[simp] theorem setCtx_lmCmd (s : State) (k : Nat) (c : Ctx) : (s.setCtx k c).lmCmd = s.lmCmd := rfl
@[simp] theorem setCtx_outbox (s : State) (k : Nat) (c : Ctx) : (s.setCtx k c).outbox = s.outbox := rfl
@[simp] theorem setCtx_core (s : State) (k : Nat) (c : Ctx) (j : Nat) : (s.setCtx k c).core j = s.core j := rfl
@[simp] theorem setCtx_cluster (s : State) (k : Nat) (c : Ctx) (j : Nat) : (s.setCtx k c).cluster j = s.cluster j := rfl
@[simp] theorem setCtx_die (s : State) (k : Nat) (c : Ctx) (j : Nat) : (s.setCtx k c).die j = s.die j := rfl
@[simp] theorem setCtx_launch (s : State) (k : Nat) (c : Ctx) (j : Nat) : (s.setCtx k c).launch j = s.launch j := rfl
@[simp] theorem setCtx_queue (s : State) (k : Nat) (c : Ctx) (j : Nat) : (s.setCtx k c).queue j = s.queue j := rfl
@[simp] theorem setCtx_byte (s : State) (k : Nat) (c : Ctx) (j : Nat) : (s.setCtx k c).byte j = s.byte j := rfl
@[simp] theorem setCtx_byteMark (s : State) (k : Nat) (c : Ctx) (j : Nat) : (s.setCtx k c).byteMark j = s.byteMark j := rfl

/-! ### modCtx -/

@[simp] theorem modCtx_clock (s : State) (k : Nat) (f : Ctx → Ctx) : (s.modCtx k f).clock = s.clock := rfl
@[simp] theorem modCtx_cur (s : State) (k : Nat) (f : Ctx → Ctx) : (s.modCtx k f).cur = s.cur := rfl
@[simp] theorem modCtx_agenda (s : State) (k : Nat) (f : Ctx → Ctx) : (s.modCtx k f).agenda = s.agenda := rfl
@[simp] theorem modCtx_fresh (s : State) (k : Nat) (f : Ctx → Ctx) : (s.modCtx k f).fresh = s.fresh := rfl
@[simp] theorem modCtx_iw (s : State) (k : Nat) (f : Ctx → Ctx) : (s.modCtx k f).iw = s.iw := rfl
@[simp] theorem modCtx_after (s : State) (k : Nat) (f : Ctx → Ctx) : (s.modCtx k f).after = s.after := rfl
@[simp] theorem modCtx_watch (s : State) (k : Nat) (f : Ctx → Ctx) : (s.modCtx k f).watch = s.watch := rfl
@[simp] theorem modCtx_cores (s : State) (k : Nat) (f : Ctx → Ctx) : (s.modCtx k f).cores = s.cores := rfl
@[simp] theorem modCtx_clusters (s : State) (k : Nat) (f : Ctx → Ctx) : (s.modCtx k f).clusters = s.clusters := rfl
@[simp] theorem modCtx_dies (s : State) (k : Nat) (f : Ctx → Ctx) : (s.modCtx k f).dies = s.dies := rfl
@[simp] theorem modCtx_mem (s : State) (k : Nat) (f : Ctx → Ctx) : (s.modCtx k f).mem = s.mem := rfl
@[simp] theorem modCtx_marks (s : State) (k : Nat) (f : Ctx → Ctx) : (s.modCtx k f).marks = s.marks := rfl
@[simp] theorem modCtx_wlog (s : State) (k : Nat) (f : Ctx → Ctx) : (s.modCtx k f).wlog = s.wlog := rfl
@[simp] theorem modCtx_dir (s : State) (k : Nat) (f : Ctx → Ctx) : (s.modCtx k f).dir = s.dir := rfl
@[simp] theorem modCtx_home (s : State) (k : Nat) (f : Ctx → Ctx) : (s.modCtx k f).home = s.home := rfl
@[simp] theorem modCtx_late (s : State) (k : Nat) (f : Ctx → Ctx) : (s.modCtx k f).late = s.late := rfl
@[simp] theorem modCtx_reqs (s : State) (k : Nat) (f : Ctx → Ctx) : (s.modCtx k f).reqs = s.reqs := rfl
@[simp] theorem modCtx_msgs (s : State) (k : Nat) (f : Ctx → Ctx) : (s.modCtx k f).msgs = s.msgs := rfl
@[simp] theorem modCtx_misses (s : State) (k : Nat) (f : Ctx → Ctx) : (s.modCtx k f).misses = s.misses := rfl
@[simp] theorem modCtx_snoops (s : State) (k : Nat) (f : Ctx → Ctx) : (s.modCtx k f).snoops = s.snoops := rfl
@[simp] theorem modCtx_posts (s : State) (k : Nat) (f : Ctx → Ctx) : (s.modCtx k f).posts = s.posts := rfl
@[simp] theorem modCtx_windows (s : State) (k : Nat) (f : Ctx → Ctx) : (s.modCtx k f).windows = s.windows := rfl
@[simp] theorem modCtx_wmarks (s : State) (k : Nat) (f : Ctx → Ctx) : (s.modCtx k f).wmarks = s.wmarks := rfl
@[simp] theorem modCtx_peerPosts (s : State) (k : Nat) (f : Ctx → Ctx) : (s.modCtx k f).peerPosts = s.peerPosts := rfl
@[simp] theorem modCtx_wreqs (s : State) (k : Nat) (f : Ctx → Ctx) : (s.modCtx k f).wreqs = s.wreqs := rfl
@[simp] theorem modCtx_peerReqs (s : State) (k : Nat) (f : Ctx → Ctx) : (s.modCtx k f).peerReqs = s.peerReqs := rfl
@[simp] theorem modCtx_copies (s : State) (k : Nat) (f : Ctx → Ctx) : (s.modCtx k f).copies = s.copies := rfl
@[simp] theorem modCtx_bards (s : State) (k : Nat) (f : Ctx → Ctx) : (s.modCtx k f).bards = s.bards := rfl
@[simp] theorem modCtx_tiles (s : State) (k : Nat) (f : Ctx → Ctx) : (s.modCtx k f).tiles = s.tiles := rfl
@[simp] theorem modCtx_queues (s : State) (k : Nat) (f : Ctx → Ctx) : (s.modCtx k f).queues = s.queues := rfl
@[simp] theorem modCtx_lastQueue (s : State) (k : Nat) (f : Ctx → Ctx) : (s.modCtx k f).lastQueue = s.lastQueue := rfl
@[simp] theorem modCtx_launches (s : State) (k : Nat) (f : Ctx → Ctx) : (s.modCtx k f).launches = s.launches := rfl
@[simp] theorem modCtx_regs (s : State) (k : Nat) (f : Ctx → Ctx) : (s.modCtx k f).regs = s.regs := rfl
@[simp] theorem modCtx_routes (s : State) (k : Nat) (f : Ctx → Ctx) : (s.modCtx k f).routes = s.routes := rfl
@[simp] theorem modCtx_lost (s : State) (k : Nat) (f : Ctx → Ctx) : (s.modCtx k f).lost = s.lost := rfl
@[simp] theorem modCtx_tlbiBusy (s : State) (k : Nat) (f : Ctx → Ctx) : (s.modCtx k f).tlbiBusy = s.tlbiBusy := rfl
@[simp] theorem modCtx_tlbiPosts (s : State) (k : Nat) (f : Ctx → Ctx) : (s.modCtx k f).tlbiPosts = s.tlbiPosts := rfl
@[simp] theorem modCtx_tlbiTiles (s : State) (k : Nat) (f : Ctx → Ctx) : (s.modCtx k f).tlbiTiles = s.tlbiTiles := rfl
@[simp] theorem modCtx_engines (s : State) (k : Nat) (f : Ctx → Ctx) : (s.modCtx k f).engines = s.engines := rfl
@[simp] theorem modCtx_ecc (s : State) (k : Nat) (f : Ctx → Ctx) : (s.modCtx k f).ecc = s.ecc := rfl
@[simp] theorem modCtx_repair (s : State) (k : Nat) (f : Ctx → Ctx) : (s.modCtx k f).repair = s.repair := rfl
@[simp] theorem modCtx_firmware (s : State) (k : Nat) (f : Ctx → Ctx) : (s.modCtx k f).firmware = s.firmware := rfl
@[simp] theorem modCtx_linkKeys (s : State) (k : Nat) (f : Ctx → Ctx) : (s.modCtx k f).linkKeys = s.linkKeys := rfl
@[simp] theorem modCtx_lmRes (s : State) (k : Nat) (f : Ctx → Ctx) : (s.modCtx k f).lmRes = s.lmRes := rfl
@[simp] theorem modCtx_lmCmd (s : State) (k : Nat) (f : Ctx → Ctx) : (s.modCtx k f).lmCmd = s.lmCmd := rfl
@[simp] theorem modCtx_outbox (s : State) (k : Nat) (f : Ctx → Ctx) : (s.modCtx k f).outbox = s.outbox := rfl
@[simp] theorem modCtx_core (s : State) (k : Nat) (f : Ctx → Ctx) (j : Nat) : (s.modCtx k f).core j = s.core j := rfl
@[simp] theorem modCtx_cluster (s : State) (k : Nat) (f : Ctx → Ctx) (j : Nat) : (s.modCtx k f).cluster j = s.cluster j := rfl
@[simp] theorem modCtx_die (s : State) (k : Nat) (f : Ctx → Ctx) (j : Nat) : (s.modCtx k f).die j = s.die j := rfl
@[simp] theorem modCtx_launch (s : State) (k : Nat) (f : Ctx → Ctx) (j : Nat) : (s.modCtx k f).launch j = s.launch j := rfl
@[simp] theorem modCtx_queue (s : State) (k : Nat) (f : Ctx → Ctx) (j : Nat) : (s.modCtx k f).queue j = s.queue j := rfl
@[simp] theorem modCtx_byte (s : State) (k : Nat) (f : Ctx → Ctx) (j : Nat) : (s.modCtx k f).byte j = s.byte j := rfl
@[simp] theorem modCtx_byteMark (s : State) (k : Nat) (f : Ctx → Ctx) (j : Nat) : (s.modCtx k f).byteMark j = s.byteMark j := rfl

/-! ### modCore -/

@[simp] theorem modCore_clock (s : State) (n : Nat) (f : Core → Core) : (s.modCore n f).clock = s.clock := rfl
@[simp] theorem modCore_cur (s : State) (n : Nat) (f : Core → Core) : (s.modCore n f).cur = s.cur := rfl
@[simp] theorem modCore_agenda (s : State) (n : Nat) (f : Core → Core) : (s.modCore n f).agenda = s.agenda := rfl
@[simp] theorem modCore_fresh (s : State) (n : Nat) (f : Core → Core) : (s.modCore n f).fresh = s.fresh := rfl
@[simp] theorem modCore_iw (s : State) (n : Nat) (f : Core → Core) : (s.modCore n f).iw = s.iw := rfl
@[simp] theorem modCore_after (s : State) (n : Nat) (f : Core → Core) : (s.modCore n f).after = s.after := rfl
@[simp] theorem modCore_watch (s : State) (n : Nat) (f : Core → Core) : (s.modCore n f).watch = s.watch := rfl
@[simp] theorem modCore_ctxs (s : State) (n : Nat) (f : Core → Core) : (s.modCore n f).ctxs = s.ctxs := rfl
@[simp] theorem modCore_clusters (s : State) (n : Nat) (f : Core → Core) : (s.modCore n f).clusters = s.clusters := rfl
@[simp] theorem modCore_dies (s : State) (n : Nat) (f : Core → Core) : (s.modCore n f).dies = s.dies := rfl
@[simp] theorem modCore_mem (s : State) (n : Nat) (f : Core → Core) : (s.modCore n f).mem = s.mem := rfl
@[simp] theorem modCore_marks (s : State) (n : Nat) (f : Core → Core) : (s.modCore n f).marks = s.marks := rfl
@[simp] theorem modCore_wlog (s : State) (n : Nat) (f : Core → Core) : (s.modCore n f).wlog = s.wlog := rfl
@[simp] theorem modCore_dir (s : State) (n : Nat) (f : Core → Core) : (s.modCore n f).dir = s.dir := rfl
@[simp] theorem modCore_home (s : State) (n : Nat) (f : Core → Core) : (s.modCore n f).home = s.home := rfl
@[simp] theorem modCore_late (s : State) (n : Nat) (f : Core → Core) : (s.modCore n f).late = s.late := rfl
@[simp] theorem modCore_reqs (s : State) (n : Nat) (f : Core → Core) : (s.modCore n f).reqs = s.reqs := rfl
@[simp] theorem modCore_msgs (s : State) (n : Nat) (f : Core → Core) : (s.modCore n f).msgs = s.msgs := rfl
@[simp] theorem modCore_misses (s : State) (n : Nat) (f : Core → Core) : (s.modCore n f).misses = s.misses := rfl
@[simp] theorem modCore_snoops (s : State) (n : Nat) (f : Core → Core) : (s.modCore n f).snoops = s.snoops := rfl
@[simp] theorem modCore_posts (s : State) (n : Nat) (f : Core → Core) : (s.modCore n f).posts = s.posts := rfl
@[simp] theorem modCore_windows (s : State) (n : Nat) (f : Core → Core) : (s.modCore n f).windows = s.windows := rfl
@[simp] theorem modCore_wmarks (s : State) (n : Nat) (f : Core → Core) : (s.modCore n f).wmarks = s.wmarks := rfl
@[simp] theorem modCore_peerPosts (s : State) (n : Nat) (f : Core → Core) : (s.modCore n f).peerPosts = s.peerPosts := rfl
@[simp] theorem modCore_wreqs (s : State) (n : Nat) (f : Core → Core) : (s.modCore n f).wreqs = s.wreqs := rfl
@[simp] theorem modCore_peerReqs (s : State) (n : Nat) (f : Core → Core) : (s.modCore n f).peerReqs = s.peerReqs := rfl
@[simp] theorem modCore_copies (s : State) (n : Nat) (f : Core → Core) : (s.modCore n f).copies = s.copies := rfl
@[simp] theorem modCore_bards (s : State) (n : Nat) (f : Core → Core) : (s.modCore n f).bards = s.bards := rfl
@[simp] theorem modCore_tiles (s : State) (n : Nat) (f : Core → Core) : (s.modCore n f).tiles = s.tiles := rfl
@[simp] theorem modCore_queues (s : State) (n : Nat) (f : Core → Core) : (s.modCore n f).queues = s.queues := rfl
@[simp] theorem modCore_lastQueue (s : State) (n : Nat) (f : Core → Core) : (s.modCore n f).lastQueue = s.lastQueue := rfl
@[simp] theorem modCore_launches (s : State) (n : Nat) (f : Core → Core) : (s.modCore n f).launches = s.launches := rfl
@[simp] theorem modCore_regs (s : State) (n : Nat) (f : Core → Core) : (s.modCore n f).regs = s.regs := rfl
@[simp] theorem modCore_routes (s : State) (n : Nat) (f : Core → Core) : (s.modCore n f).routes = s.routes := rfl
@[simp] theorem modCore_lost (s : State) (n : Nat) (f : Core → Core) : (s.modCore n f).lost = s.lost := rfl
@[simp] theorem modCore_tlbiBusy (s : State) (n : Nat) (f : Core → Core) : (s.modCore n f).tlbiBusy = s.tlbiBusy := rfl
@[simp] theorem modCore_tlbiPosts (s : State) (n : Nat) (f : Core → Core) : (s.modCore n f).tlbiPosts = s.tlbiPosts := rfl
@[simp] theorem modCore_tlbiTiles (s : State) (n : Nat) (f : Core → Core) : (s.modCore n f).tlbiTiles = s.tlbiTiles := rfl
@[simp] theorem modCore_engines (s : State) (n : Nat) (f : Core → Core) : (s.modCore n f).engines = s.engines := rfl
@[simp] theorem modCore_ecc (s : State) (n : Nat) (f : Core → Core) : (s.modCore n f).ecc = s.ecc := rfl
@[simp] theorem modCore_repair (s : State) (n : Nat) (f : Core → Core) : (s.modCore n f).repair = s.repair := rfl
@[simp] theorem modCore_firmware (s : State) (n : Nat) (f : Core → Core) : (s.modCore n f).firmware = s.firmware := rfl
@[simp] theorem modCore_linkKeys (s : State) (n : Nat) (f : Core → Core) : (s.modCore n f).linkKeys = s.linkKeys := rfl
@[simp] theorem modCore_lmRes (s : State) (n : Nat) (f : Core → Core) : (s.modCore n f).lmRes = s.lmRes := rfl
@[simp] theorem modCore_lmCmd (s : State) (n : Nat) (f : Core → Core) : (s.modCore n f).lmCmd = s.lmCmd := rfl
@[simp] theorem modCore_outbox (s : State) (n : Nat) (f : Core → Core) : (s.modCore n f).outbox = s.outbox := rfl
@[simp] theorem modCore_ctx (s : State) (n : Nat) (f : Core → Core) (j : Nat) : (s.modCore n f).ctx j = s.ctx j := rfl
@[simp] theorem modCore_cluster (s : State) (n : Nat) (f : Core → Core) (j : Nat) : (s.modCore n f).cluster j = s.cluster j := rfl
@[simp] theorem modCore_die (s : State) (n : Nat) (f : Core → Core) (j : Nat) : (s.modCore n f).die j = s.die j := rfl
@[simp] theorem modCore_launch (s : State) (n : Nat) (f : Core → Core) (j : Nat) : (s.modCore n f).launch j = s.launch j := rfl
@[simp] theorem modCore_queue (s : State) (n : Nat) (f : Core → Core) (j : Nat) : (s.modCore n f).queue j = s.queue j := rfl
@[simp] theorem modCore_byte (s : State) (n : Nat) (f : Core → Core) (j : Nat) : (s.modCore n f).byte j = s.byte j := rfl
@[simp] theorem modCore_byteMark (s : State) (n : Nat) (f : Core → Core) (j : Nat) : (s.modCore n f).byteMark j = s.byteMark j := rfl

/-! ### modCluster -/

@[simp] theorem modCluster_clock (s : State) (n : Nat) (f : Cluster → Cluster) : (s.modCluster n f).clock = s.clock := rfl
@[simp] theorem modCluster_cur (s : State) (n : Nat) (f : Cluster → Cluster) : (s.modCluster n f).cur = s.cur := rfl
@[simp] theorem modCluster_agenda (s : State) (n : Nat) (f : Cluster → Cluster) : (s.modCluster n f).agenda = s.agenda := rfl
@[simp] theorem modCluster_fresh (s : State) (n : Nat) (f : Cluster → Cluster) : (s.modCluster n f).fresh = s.fresh := rfl
@[simp] theorem modCluster_iw (s : State) (n : Nat) (f : Cluster → Cluster) : (s.modCluster n f).iw = s.iw := rfl
@[simp] theorem modCluster_after (s : State) (n : Nat) (f : Cluster → Cluster) : (s.modCluster n f).after = s.after := rfl
@[simp] theorem modCluster_watch (s : State) (n : Nat) (f : Cluster → Cluster) : (s.modCluster n f).watch = s.watch := rfl
@[simp] theorem modCluster_ctxs (s : State) (n : Nat) (f : Cluster → Cluster) : (s.modCluster n f).ctxs = s.ctxs := rfl
@[simp] theorem modCluster_cores (s : State) (n : Nat) (f : Cluster → Cluster) : (s.modCluster n f).cores = s.cores := rfl
@[simp] theorem modCluster_dies (s : State) (n : Nat) (f : Cluster → Cluster) : (s.modCluster n f).dies = s.dies := rfl
@[simp] theorem modCluster_mem (s : State) (n : Nat) (f : Cluster → Cluster) : (s.modCluster n f).mem = s.mem := rfl
@[simp] theorem modCluster_marks (s : State) (n : Nat) (f : Cluster → Cluster) : (s.modCluster n f).marks = s.marks := rfl
@[simp] theorem modCluster_wlog (s : State) (n : Nat) (f : Cluster → Cluster) : (s.modCluster n f).wlog = s.wlog := rfl
@[simp] theorem modCluster_dir (s : State) (n : Nat) (f : Cluster → Cluster) : (s.modCluster n f).dir = s.dir := rfl
@[simp] theorem modCluster_home (s : State) (n : Nat) (f : Cluster → Cluster) : (s.modCluster n f).home = s.home := rfl
@[simp] theorem modCluster_late (s : State) (n : Nat) (f : Cluster → Cluster) : (s.modCluster n f).late = s.late := rfl
@[simp] theorem modCluster_reqs (s : State) (n : Nat) (f : Cluster → Cluster) : (s.modCluster n f).reqs = s.reqs := rfl
@[simp] theorem modCluster_msgs (s : State) (n : Nat) (f : Cluster → Cluster) : (s.modCluster n f).msgs = s.msgs := rfl
@[simp] theorem modCluster_misses (s : State) (n : Nat) (f : Cluster → Cluster) : (s.modCluster n f).misses = s.misses := rfl
@[simp] theorem modCluster_snoops (s : State) (n : Nat) (f : Cluster → Cluster) : (s.modCluster n f).snoops = s.snoops := rfl
@[simp] theorem modCluster_posts (s : State) (n : Nat) (f : Cluster → Cluster) : (s.modCluster n f).posts = s.posts := rfl
@[simp] theorem modCluster_windows (s : State) (n : Nat) (f : Cluster → Cluster) : (s.modCluster n f).windows = s.windows := rfl
@[simp] theorem modCluster_wmarks (s : State) (n : Nat) (f : Cluster → Cluster) : (s.modCluster n f).wmarks = s.wmarks := rfl
@[simp] theorem modCluster_peerPosts (s : State) (n : Nat) (f : Cluster → Cluster) : (s.modCluster n f).peerPosts = s.peerPosts := rfl
@[simp] theorem modCluster_wreqs (s : State) (n : Nat) (f : Cluster → Cluster) : (s.modCluster n f).wreqs = s.wreqs := rfl
@[simp] theorem modCluster_peerReqs (s : State) (n : Nat) (f : Cluster → Cluster) : (s.modCluster n f).peerReqs = s.peerReqs := rfl
@[simp] theorem modCluster_copies (s : State) (n : Nat) (f : Cluster → Cluster) : (s.modCluster n f).copies = s.copies := rfl
@[simp] theorem modCluster_bards (s : State) (n : Nat) (f : Cluster → Cluster) : (s.modCluster n f).bards = s.bards := rfl
@[simp] theorem modCluster_tiles (s : State) (n : Nat) (f : Cluster → Cluster) : (s.modCluster n f).tiles = s.tiles := rfl
@[simp] theorem modCluster_queues (s : State) (n : Nat) (f : Cluster → Cluster) : (s.modCluster n f).queues = s.queues := rfl
@[simp] theorem modCluster_lastQueue (s : State) (n : Nat) (f : Cluster → Cluster) : (s.modCluster n f).lastQueue = s.lastQueue := rfl
@[simp] theorem modCluster_launches (s : State) (n : Nat) (f : Cluster → Cluster) : (s.modCluster n f).launches = s.launches := rfl
@[simp] theorem modCluster_regs (s : State) (n : Nat) (f : Cluster → Cluster) : (s.modCluster n f).regs = s.regs := rfl
@[simp] theorem modCluster_routes (s : State) (n : Nat) (f : Cluster → Cluster) : (s.modCluster n f).routes = s.routes := rfl
@[simp] theorem modCluster_lost (s : State) (n : Nat) (f : Cluster → Cluster) : (s.modCluster n f).lost = s.lost := rfl
@[simp] theorem modCluster_tlbiBusy (s : State) (n : Nat) (f : Cluster → Cluster) : (s.modCluster n f).tlbiBusy = s.tlbiBusy := rfl
@[simp] theorem modCluster_tlbiPosts (s : State) (n : Nat) (f : Cluster → Cluster) : (s.modCluster n f).tlbiPosts = s.tlbiPosts := rfl
@[simp] theorem modCluster_tlbiTiles (s : State) (n : Nat) (f : Cluster → Cluster) : (s.modCluster n f).tlbiTiles = s.tlbiTiles := rfl
@[simp] theorem modCluster_engines (s : State) (n : Nat) (f : Cluster → Cluster) : (s.modCluster n f).engines = s.engines := rfl
@[simp] theorem modCluster_ecc (s : State) (n : Nat) (f : Cluster → Cluster) : (s.modCluster n f).ecc = s.ecc := rfl
@[simp] theorem modCluster_repair (s : State) (n : Nat) (f : Cluster → Cluster) : (s.modCluster n f).repair = s.repair := rfl
@[simp] theorem modCluster_firmware (s : State) (n : Nat) (f : Cluster → Cluster) : (s.modCluster n f).firmware = s.firmware := rfl
@[simp] theorem modCluster_linkKeys (s : State) (n : Nat) (f : Cluster → Cluster) : (s.modCluster n f).linkKeys = s.linkKeys := rfl
@[simp] theorem modCluster_lmRes (s : State) (n : Nat) (f : Cluster → Cluster) : (s.modCluster n f).lmRes = s.lmRes := rfl
@[simp] theorem modCluster_lmCmd (s : State) (n : Nat) (f : Cluster → Cluster) : (s.modCluster n f).lmCmd = s.lmCmd := rfl
@[simp] theorem modCluster_outbox (s : State) (n : Nat) (f : Cluster → Cluster) : (s.modCluster n f).outbox = s.outbox := rfl
@[simp] theorem modCluster_ctx (s : State) (n : Nat) (f : Cluster → Cluster) (j : Nat) : (s.modCluster n f).ctx j = s.ctx j := rfl
@[simp] theorem modCluster_core (s : State) (n : Nat) (f : Cluster → Cluster) (j : Nat) : (s.modCluster n f).core j = s.core j := rfl
@[simp] theorem modCluster_die (s : State) (n : Nat) (f : Cluster → Cluster) (j : Nat) : (s.modCluster n f).die j = s.die j := rfl
@[simp] theorem modCluster_launch (s : State) (n : Nat) (f : Cluster → Cluster) (j : Nat) : (s.modCluster n f).launch j = s.launch j := rfl
@[simp] theorem modCluster_queue (s : State) (n : Nat) (f : Cluster → Cluster) (j : Nat) : (s.modCluster n f).queue j = s.queue j := rfl
@[simp] theorem modCluster_byte (s : State) (n : Nat) (f : Cluster → Cluster) (j : Nat) : (s.modCluster n f).byte j = s.byte j := rfl
@[simp] theorem modCluster_byteMark (s : State) (n : Nat) (f : Cluster → Cluster) (j : Nat) : (s.modCluster n f).byteMark j = s.byteMark j := rfl

/-! ### modDie -/

@[simp] theorem modDie_clock (s : State) (n : Nat) (f : Die → Die) : (s.modDie n f).clock = s.clock := rfl
@[simp] theorem modDie_cur (s : State) (n : Nat) (f : Die → Die) : (s.modDie n f).cur = s.cur := rfl
@[simp] theorem modDie_agenda (s : State) (n : Nat) (f : Die → Die) : (s.modDie n f).agenda = s.agenda := rfl
@[simp] theorem modDie_fresh (s : State) (n : Nat) (f : Die → Die) : (s.modDie n f).fresh = s.fresh := rfl
@[simp] theorem modDie_iw (s : State) (n : Nat) (f : Die → Die) : (s.modDie n f).iw = s.iw := rfl
@[simp] theorem modDie_after (s : State) (n : Nat) (f : Die → Die) : (s.modDie n f).after = s.after := rfl
@[simp] theorem modDie_watch (s : State) (n : Nat) (f : Die → Die) : (s.modDie n f).watch = s.watch := rfl
@[simp] theorem modDie_ctxs (s : State) (n : Nat) (f : Die → Die) : (s.modDie n f).ctxs = s.ctxs := rfl
@[simp] theorem modDie_cores (s : State) (n : Nat) (f : Die → Die) : (s.modDie n f).cores = s.cores := rfl
@[simp] theorem modDie_clusters (s : State) (n : Nat) (f : Die → Die) : (s.modDie n f).clusters = s.clusters := rfl
@[simp] theorem modDie_mem (s : State) (n : Nat) (f : Die → Die) : (s.modDie n f).mem = s.mem := rfl
@[simp] theorem modDie_marks (s : State) (n : Nat) (f : Die → Die) : (s.modDie n f).marks = s.marks := rfl
@[simp] theorem modDie_wlog (s : State) (n : Nat) (f : Die → Die) : (s.modDie n f).wlog = s.wlog := rfl
@[simp] theorem modDie_dir (s : State) (n : Nat) (f : Die → Die) : (s.modDie n f).dir = s.dir := rfl
@[simp] theorem modDie_home (s : State) (n : Nat) (f : Die → Die) : (s.modDie n f).home = s.home := rfl
@[simp] theorem modDie_late (s : State) (n : Nat) (f : Die → Die) : (s.modDie n f).late = s.late := rfl
@[simp] theorem modDie_reqs (s : State) (n : Nat) (f : Die → Die) : (s.modDie n f).reqs = s.reqs := rfl
@[simp] theorem modDie_msgs (s : State) (n : Nat) (f : Die → Die) : (s.modDie n f).msgs = s.msgs := rfl
@[simp] theorem modDie_misses (s : State) (n : Nat) (f : Die → Die) : (s.modDie n f).misses = s.misses := rfl
@[simp] theorem modDie_snoops (s : State) (n : Nat) (f : Die → Die) : (s.modDie n f).snoops = s.snoops := rfl
@[simp] theorem modDie_posts (s : State) (n : Nat) (f : Die → Die) : (s.modDie n f).posts = s.posts := rfl
@[simp] theorem modDie_windows (s : State) (n : Nat) (f : Die → Die) : (s.modDie n f).windows = s.windows := rfl
@[simp] theorem modDie_wmarks (s : State) (n : Nat) (f : Die → Die) : (s.modDie n f).wmarks = s.wmarks := rfl
@[simp] theorem modDie_peerPosts (s : State) (n : Nat) (f : Die → Die) : (s.modDie n f).peerPosts = s.peerPosts := rfl
@[simp] theorem modDie_wreqs (s : State) (n : Nat) (f : Die → Die) : (s.modDie n f).wreqs = s.wreqs := rfl
@[simp] theorem modDie_peerReqs (s : State) (n : Nat) (f : Die → Die) : (s.modDie n f).peerReqs = s.peerReqs := rfl
@[simp] theorem modDie_copies (s : State) (n : Nat) (f : Die → Die) : (s.modDie n f).copies = s.copies := rfl
@[simp] theorem modDie_bards (s : State) (n : Nat) (f : Die → Die) : (s.modDie n f).bards = s.bards := rfl
@[simp] theorem modDie_tiles (s : State) (n : Nat) (f : Die → Die) : (s.modDie n f).tiles = s.tiles := rfl
@[simp] theorem modDie_queues (s : State) (n : Nat) (f : Die → Die) : (s.modDie n f).queues = s.queues := rfl
@[simp] theorem modDie_lastQueue (s : State) (n : Nat) (f : Die → Die) : (s.modDie n f).lastQueue = s.lastQueue := rfl
@[simp] theorem modDie_launches (s : State) (n : Nat) (f : Die → Die) : (s.modDie n f).launches = s.launches := rfl
@[simp] theorem modDie_regs (s : State) (n : Nat) (f : Die → Die) : (s.modDie n f).regs = s.regs := rfl
@[simp] theorem modDie_routes (s : State) (n : Nat) (f : Die → Die) : (s.modDie n f).routes = s.routes := rfl
@[simp] theorem modDie_lost (s : State) (n : Nat) (f : Die → Die) : (s.modDie n f).lost = s.lost := rfl
@[simp] theorem modDie_tlbiBusy (s : State) (n : Nat) (f : Die → Die) : (s.modDie n f).tlbiBusy = s.tlbiBusy := rfl
@[simp] theorem modDie_tlbiPosts (s : State) (n : Nat) (f : Die → Die) : (s.modDie n f).tlbiPosts = s.tlbiPosts := rfl
@[simp] theorem modDie_tlbiTiles (s : State) (n : Nat) (f : Die → Die) : (s.modDie n f).tlbiTiles = s.tlbiTiles := rfl
@[simp] theorem modDie_engines (s : State) (n : Nat) (f : Die → Die) : (s.modDie n f).engines = s.engines := rfl
@[simp] theorem modDie_ecc (s : State) (n : Nat) (f : Die → Die) : (s.modDie n f).ecc = s.ecc := rfl
@[simp] theorem modDie_repair (s : State) (n : Nat) (f : Die → Die) : (s.modDie n f).repair = s.repair := rfl
@[simp] theorem modDie_firmware (s : State) (n : Nat) (f : Die → Die) : (s.modDie n f).firmware = s.firmware := rfl
@[simp] theorem modDie_linkKeys (s : State) (n : Nat) (f : Die → Die) : (s.modDie n f).linkKeys = s.linkKeys := rfl
@[simp] theorem modDie_lmRes (s : State) (n : Nat) (f : Die → Die) : (s.modDie n f).lmRes = s.lmRes := rfl
@[simp] theorem modDie_lmCmd (s : State) (n : Nat) (f : Die → Die) : (s.modDie n f).lmCmd = s.lmCmd := rfl
@[simp] theorem modDie_outbox (s : State) (n : Nat) (f : Die → Die) : (s.modDie n f).outbox = s.outbox := rfl
@[simp] theorem modDie_ctx (s : State) (n : Nat) (f : Die → Die) (j : Nat) : (s.modDie n f).ctx j = s.ctx j := rfl
@[simp] theorem modDie_core (s : State) (n : Nat) (f : Die → Die) (j : Nat) : (s.modDie n f).core j = s.core j := rfl
@[simp] theorem modDie_cluster (s : State) (n : Nat) (f : Die → Die) (j : Nat) : (s.modDie n f).cluster j = s.cluster j := rfl
@[simp] theorem modDie_launch (s : State) (n : Nat) (f : Die → Die) (j : Nat) : (s.modDie n f).launch j = s.launch j := rfl
@[simp] theorem modDie_queue (s : State) (n : Nat) (f : Die → Die) (j : Nat) : (s.modDie n f).queue j = s.queue j := rfl
@[simp] theorem modDie_byte (s : State) (n : Nat) (f : Die → Die) (j : Nat) : (s.modDie n f).byte j = s.byte j := rfl
@[simp] theorem modDie_byteMark (s : State) (n : Nat) (f : Die → Die) (j : Nat) : (s.modDie n f).byteMark j = s.byteMark j := rfl

/-! ### modLaunch -/

@[simp] theorem modLaunch_clock (s : State) (n : Nat) (f : Launch → Launch) : (s.modLaunch n f).clock = s.clock := rfl
@[simp] theorem modLaunch_cur (s : State) (n : Nat) (f : Launch → Launch) : (s.modLaunch n f).cur = s.cur := rfl
@[simp] theorem modLaunch_agenda (s : State) (n : Nat) (f : Launch → Launch) : (s.modLaunch n f).agenda = s.agenda := rfl
@[simp] theorem modLaunch_fresh (s : State) (n : Nat) (f : Launch → Launch) : (s.modLaunch n f).fresh = s.fresh := rfl
@[simp] theorem modLaunch_iw (s : State) (n : Nat) (f : Launch → Launch) : (s.modLaunch n f).iw = s.iw := rfl
@[simp] theorem modLaunch_after (s : State) (n : Nat) (f : Launch → Launch) : (s.modLaunch n f).after = s.after := rfl
@[simp] theorem modLaunch_watch (s : State) (n : Nat) (f : Launch → Launch) : (s.modLaunch n f).watch = s.watch := rfl
@[simp] theorem modLaunch_ctxs (s : State) (n : Nat) (f : Launch → Launch) : (s.modLaunch n f).ctxs = s.ctxs := rfl
@[simp] theorem modLaunch_cores (s : State) (n : Nat) (f : Launch → Launch) : (s.modLaunch n f).cores = s.cores := rfl
@[simp] theorem modLaunch_clusters (s : State) (n : Nat) (f : Launch → Launch) : (s.modLaunch n f).clusters = s.clusters := rfl
@[simp] theorem modLaunch_dies (s : State) (n : Nat) (f : Launch → Launch) : (s.modLaunch n f).dies = s.dies := rfl
@[simp] theorem modLaunch_mem (s : State) (n : Nat) (f : Launch → Launch) : (s.modLaunch n f).mem = s.mem := rfl
@[simp] theorem modLaunch_marks (s : State) (n : Nat) (f : Launch → Launch) : (s.modLaunch n f).marks = s.marks := rfl
@[simp] theorem modLaunch_wlog (s : State) (n : Nat) (f : Launch → Launch) : (s.modLaunch n f).wlog = s.wlog := rfl
@[simp] theorem modLaunch_dir (s : State) (n : Nat) (f : Launch → Launch) : (s.modLaunch n f).dir = s.dir := rfl
@[simp] theorem modLaunch_home (s : State) (n : Nat) (f : Launch → Launch) : (s.modLaunch n f).home = s.home := rfl
@[simp] theorem modLaunch_late (s : State) (n : Nat) (f : Launch → Launch) : (s.modLaunch n f).late = s.late := rfl
@[simp] theorem modLaunch_reqs (s : State) (n : Nat) (f : Launch → Launch) : (s.modLaunch n f).reqs = s.reqs := rfl
@[simp] theorem modLaunch_msgs (s : State) (n : Nat) (f : Launch → Launch) : (s.modLaunch n f).msgs = s.msgs := rfl
@[simp] theorem modLaunch_misses (s : State) (n : Nat) (f : Launch → Launch) : (s.modLaunch n f).misses = s.misses := rfl
@[simp] theorem modLaunch_snoops (s : State) (n : Nat) (f : Launch → Launch) : (s.modLaunch n f).snoops = s.snoops := rfl
@[simp] theorem modLaunch_posts (s : State) (n : Nat) (f : Launch → Launch) : (s.modLaunch n f).posts = s.posts := rfl
@[simp] theorem modLaunch_windows (s : State) (n : Nat) (f : Launch → Launch) : (s.modLaunch n f).windows = s.windows := rfl
@[simp] theorem modLaunch_wmarks (s : State) (n : Nat) (f : Launch → Launch) : (s.modLaunch n f).wmarks = s.wmarks := rfl
@[simp] theorem modLaunch_peerPosts (s : State) (n : Nat) (f : Launch → Launch) : (s.modLaunch n f).peerPosts = s.peerPosts := rfl
@[simp] theorem modLaunch_wreqs (s : State) (n : Nat) (f : Launch → Launch) : (s.modLaunch n f).wreqs = s.wreqs := rfl
@[simp] theorem modLaunch_peerReqs (s : State) (n : Nat) (f : Launch → Launch) : (s.modLaunch n f).peerReqs = s.peerReqs := rfl
@[simp] theorem modLaunch_copies (s : State) (n : Nat) (f : Launch → Launch) : (s.modLaunch n f).copies = s.copies := rfl
@[simp] theorem modLaunch_bards (s : State) (n : Nat) (f : Launch → Launch) : (s.modLaunch n f).bards = s.bards := rfl
@[simp] theorem modLaunch_tiles (s : State) (n : Nat) (f : Launch → Launch) : (s.modLaunch n f).tiles = s.tiles := rfl
@[simp] theorem modLaunch_queues (s : State) (n : Nat) (f : Launch → Launch) : (s.modLaunch n f).queues = s.queues := rfl
@[simp] theorem modLaunch_lastQueue (s : State) (n : Nat) (f : Launch → Launch) : (s.modLaunch n f).lastQueue = s.lastQueue := rfl
@[simp] theorem modLaunch_regs (s : State) (n : Nat) (f : Launch → Launch) : (s.modLaunch n f).regs = s.regs := rfl
@[simp] theorem modLaunch_routes (s : State) (n : Nat) (f : Launch → Launch) : (s.modLaunch n f).routes = s.routes := rfl
@[simp] theorem modLaunch_lost (s : State) (n : Nat) (f : Launch → Launch) : (s.modLaunch n f).lost = s.lost := rfl
@[simp] theorem modLaunch_tlbiBusy (s : State) (n : Nat) (f : Launch → Launch) : (s.modLaunch n f).tlbiBusy = s.tlbiBusy := rfl
@[simp] theorem modLaunch_tlbiPosts (s : State) (n : Nat) (f : Launch → Launch) : (s.modLaunch n f).tlbiPosts = s.tlbiPosts := rfl
@[simp] theorem modLaunch_tlbiTiles (s : State) (n : Nat) (f : Launch → Launch) : (s.modLaunch n f).tlbiTiles = s.tlbiTiles := rfl
@[simp] theorem modLaunch_engines (s : State) (n : Nat) (f : Launch → Launch) : (s.modLaunch n f).engines = s.engines := rfl
@[simp] theorem modLaunch_ecc (s : State) (n : Nat) (f : Launch → Launch) : (s.modLaunch n f).ecc = s.ecc := rfl
@[simp] theorem modLaunch_repair (s : State) (n : Nat) (f : Launch → Launch) : (s.modLaunch n f).repair = s.repair := rfl
@[simp] theorem modLaunch_firmware (s : State) (n : Nat) (f : Launch → Launch) : (s.modLaunch n f).firmware = s.firmware := rfl
@[simp] theorem modLaunch_linkKeys (s : State) (n : Nat) (f : Launch → Launch) : (s.modLaunch n f).linkKeys = s.linkKeys := rfl
@[simp] theorem modLaunch_lmRes (s : State) (n : Nat) (f : Launch → Launch) : (s.modLaunch n f).lmRes = s.lmRes := rfl
@[simp] theorem modLaunch_lmCmd (s : State) (n : Nat) (f : Launch → Launch) : (s.modLaunch n f).lmCmd = s.lmCmd := rfl
@[simp] theorem modLaunch_outbox (s : State) (n : Nat) (f : Launch → Launch) : (s.modLaunch n f).outbox = s.outbox := rfl
@[simp] theorem modLaunch_ctx (s : State) (n : Nat) (f : Launch → Launch) (j : Nat) : (s.modLaunch n f).ctx j = s.ctx j := rfl
@[simp] theorem modLaunch_core (s : State) (n : Nat) (f : Launch → Launch) (j : Nat) : (s.modLaunch n f).core j = s.core j := rfl
@[simp] theorem modLaunch_cluster (s : State) (n : Nat) (f : Launch → Launch) (j : Nat) : (s.modLaunch n f).cluster j = s.cluster j := rfl
@[simp] theorem modLaunch_die (s : State) (n : Nat) (f : Launch → Launch) (j : Nat) : (s.modLaunch n f).die j = s.die j := rfl
@[simp] theorem modLaunch_queue (s : State) (n : Nat) (f : Launch → Launch) (j : Nat) : (s.modLaunch n f).queue j = s.queue j := rfl
@[simp] theorem modLaunch_byte (s : State) (n : Nat) (f : Launch → Launch) (j : Nat) : (s.modLaunch n f).byte j = s.byte j := rfl
@[simp] theorem modLaunch_byteMark (s : State) (n : Nat) (f : Launch → Launch) (j : Nat) : (s.modLaunch n f).byteMark j = s.byteMark j := rfl

/-! ### modQueue -/

@[simp] theorem modQueue_clock (s : State) (n : Nat) (f : Queue → Queue) : (s.modQueue n f).clock = s.clock := rfl
@[simp] theorem modQueue_cur (s : State) (n : Nat) (f : Queue → Queue) : (s.modQueue n f).cur = s.cur := rfl
@[simp] theorem modQueue_agenda (s : State) (n : Nat) (f : Queue → Queue) : (s.modQueue n f).agenda = s.agenda := rfl
@[simp] theorem modQueue_fresh (s : State) (n : Nat) (f : Queue → Queue) : (s.modQueue n f).fresh = s.fresh := rfl
@[simp] theorem modQueue_iw (s : State) (n : Nat) (f : Queue → Queue) : (s.modQueue n f).iw = s.iw := rfl
@[simp] theorem modQueue_after (s : State) (n : Nat) (f : Queue → Queue) : (s.modQueue n f).after = s.after := rfl
@[simp] theorem modQueue_watch (s : State) (n : Nat) (f : Queue → Queue) : (s.modQueue n f).watch = s.watch := rfl
@[simp] theorem modQueue_ctxs (s : State) (n : Nat) (f : Queue → Queue) : (s.modQueue n f).ctxs = s.ctxs := rfl
@[simp] theorem modQueue_cores (s : State) (n : Nat) (f : Queue → Queue) : (s.modQueue n f).cores = s.cores := rfl
@[simp] theorem modQueue_clusters (s : State) (n : Nat) (f : Queue → Queue) : (s.modQueue n f).clusters = s.clusters := rfl
@[simp] theorem modQueue_dies (s : State) (n : Nat) (f : Queue → Queue) : (s.modQueue n f).dies = s.dies := rfl
@[simp] theorem modQueue_mem (s : State) (n : Nat) (f : Queue → Queue) : (s.modQueue n f).mem = s.mem := rfl
@[simp] theorem modQueue_marks (s : State) (n : Nat) (f : Queue → Queue) : (s.modQueue n f).marks = s.marks := rfl
@[simp] theorem modQueue_wlog (s : State) (n : Nat) (f : Queue → Queue) : (s.modQueue n f).wlog = s.wlog := rfl
@[simp] theorem modQueue_dir (s : State) (n : Nat) (f : Queue → Queue) : (s.modQueue n f).dir = s.dir := rfl
@[simp] theorem modQueue_home (s : State) (n : Nat) (f : Queue → Queue) : (s.modQueue n f).home = s.home := rfl
@[simp] theorem modQueue_late (s : State) (n : Nat) (f : Queue → Queue) : (s.modQueue n f).late = s.late := rfl
@[simp] theorem modQueue_reqs (s : State) (n : Nat) (f : Queue → Queue) : (s.modQueue n f).reqs = s.reqs := rfl
@[simp] theorem modQueue_msgs (s : State) (n : Nat) (f : Queue → Queue) : (s.modQueue n f).msgs = s.msgs := rfl
@[simp] theorem modQueue_misses (s : State) (n : Nat) (f : Queue → Queue) : (s.modQueue n f).misses = s.misses := rfl
@[simp] theorem modQueue_snoops (s : State) (n : Nat) (f : Queue → Queue) : (s.modQueue n f).snoops = s.snoops := rfl
@[simp] theorem modQueue_posts (s : State) (n : Nat) (f : Queue → Queue) : (s.modQueue n f).posts = s.posts := rfl
@[simp] theorem modQueue_windows (s : State) (n : Nat) (f : Queue → Queue) : (s.modQueue n f).windows = s.windows := rfl
@[simp] theorem modQueue_wmarks (s : State) (n : Nat) (f : Queue → Queue) : (s.modQueue n f).wmarks = s.wmarks := rfl
@[simp] theorem modQueue_peerPosts (s : State) (n : Nat) (f : Queue → Queue) : (s.modQueue n f).peerPosts = s.peerPosts := rfl
@[simp] theorem modQueue_wreqs (s : State) (n : Nat) (f : Queue → Queue) : (s.modQueue n f).wreqs = s.wreqs := rfl
@[simp] theorem modQueue_peerReqs (s : State) (n : Nat) (f : Queue → Queue) : (s.modQueue n f).peerReqs = s.peerReqs := rfl
@[simp] theorem modQueue_copies (s : State) (n : Nat) (f : Queue → Queue) : (s.modQueue n f).copies = s.copies := rfl
@[simp] theorem modQueue_bards (s : State) (n : Nat) (f : Queue → Queue) : (s.modQueue n f).bards = s.bards := rfl
@[simp] theorem modQueue_tiles (s : State) (n : Nat) (f : Queue → Queue) : (s.modQueue n f).tiles = s.tiles := rfl
@[simp] theorem modQueue_lastQueue (s : State) (n : Nat) (f : Queue → Queue) : (s.modQueue n f).lastQueue = s.lastQueue := rfl
@[simp] theorem modQueue_launches (s : State) (n : Nat) (f : Queue → Queue) : (s.modQueue n f).launches = s.launches := rfl
@[simp] theorem modQueue_regs (s : State) (n : Nat) (f : Queue → Queue) : (s.modQueue n f).regs = s.regs := rfl
@[simp] theorem modQueue_routes (s : State) (n : Nat) (f : Queue → Queue) : (s.modQueue n f).routes = s.routes := rfl
@[simp] theorem modQueue_lost (s : State) (n : Nat) (f : Queue → Queue) : (s.modQueue n f).lost = s.lost := rfl
@[simp] theorem modQueue_tlbiBusy (s : State) (n : Nat) (f : Queue → Queue) : (s.modQueue n f).tlbiBusy = s.tlbiBusy := rfl
@[simp] theorem modQueue_tlbiPosts (s : State) (n : Nat) (f : Queue → Queue) : (s.modQueue n f).tlbiPosts = s.tlbiPosts := rfl
@[simp] theorem modQueue_tlbiTiles (s : State) (n : Nat) (f : Queue → Queue) : (s.modQueue n f).tlbiTiles = s.tlbiTiles := rfl
@[simp] theorem modQueue_engines (s : State) (n : Nat) (f : Queue → Queue) : (s.modQueue n f).engines = s.engines := rfl
@[simp] theorem modQueue_ecc (s : State) (n : Nat) (f : Queue → Queue) : (s.modQueue n f).ecc = s.ecc := rfl
@[simp] theorem modQueue_repair (s : State) (n : Nat) (f : Queue → Queue) : (s.modQueue n f).repair = s.repair := rfl
@[simp] theorem modQueue_firmware (s : State) (n : Nat) (f : Queue → Queue) : (s.modQueue n f).firmware = s.firmware := rfl
@[simp] theorem modQueue_linkKeys (s : State) (n : Nat) (f : Queue → Queue) : (s.modQueue n f).linkKeys = s.linkKeys := rfl
@[simp] theorem modQueue_lmRes (s : State) (n : Nat) (f : Queue → Queue) : (s.modQueue n f).lmRes = s.lmRes := rfl
@[simp] theorem modQueue_lmCmd (s : State) (n : Nat) (f : Queue → Queue) : (s.modQueue n f).lmCmd = s.lmCmd := rfl
@[simp] theorem modQueue_outbox (s : State) (n : Nat) (f : Queue → Queue) : (s.modQueue n f).outbox = s.outbox := rfl
@[simp] theorem modQueue_ctx (s : State) (n : Nat) (f : Queue → Queue) (j : Nat) : (s.modQueue n f).ctx j = s.ctx j := rfl
@[simp] theorem modQueue_core (s : State) (n : Nat) (f : Queue → Queue) (j : Nat) : (s.modQueue n f).core j = s.core j := rfl
@[simp] theorem modQueue_cluster (s : State) (n : Nat) (f : Queue → Queue) (j : Nat) : (s.modQueue n f).cluster j = s.cluster j := rfl
@[simp] theorem modQueue_die (s : State) (n : Nat) (f : Queue → Queue) (j : Nat) : (s.modQueue n f).die j = s.die j := rfl
@[simp] theorem modQueue_launch (s : State) (n : Nat) (f : Queue → Queue) (j : Nat) : (s.modQueue n f).launch j = s.launch j := rfl
@[simp] theorem modQueue_byte (s : State) (n : Nat) (f : Queue → Queue) (j : Nat) : (s.modQueue n f).byte j = s.byte j := rfl
@[simp] theorem modQueue_byteMark (s : State) (n : Nat) (f : Queue → Queue) (j : Nat) : (s.modQueue n f).byteMark j = s.byteMark j := rfl

/-! ### setByte -/

@[simp] theorem setByte_clock (s : State) (p : Nat) (b : Byte) : (s.setByte p b).clock = s.clock := rfl
@[simp] theorem setByte_cur (s : State) (p : Nat) (b : Byte) : (s.setByte p b).cur = s.cur := rfl
@[simp] theorem setByte_agenda (s : State) (p : Nat) (b : Byte) : (s.setByte p b).agenda = s.agenda := rfl
@[simp] theorem setByte_fresh (s : State) (p : Nat) (b : Byte) : (s.setByte p b).fresh = s.fresh := rfl
@[simp] theorem setByte_iw (s : State) (p : Nat) (b : Byte) : (s.setByte p b).iw = s.iw := rfl
@[simp] theorem setByte_after (s : State) (p : Nat) (b : Byte) : (s.setByte p b).after = s.after := rfl
@[simp] theorem setByte_watch (s : State) (p : Nat) (b : Byte) : (s.setByte p b).watch = s.watch := rfl
@[simp] theorem setByte_ctxs (s : State) (p : Nat) (b : Byte) : (s.setByte p b).ctxs = s.ctxs := rfl
@[simp] theorem setByte_cores (s : State) (p : Nat) (b : Byte) : (s.setByte p b).cores = s.cores := rfl
@[simp] theorem setByte_clusters (s : State) (p : Nat) (b : Byte) : (s.setByte p b).clusters = s.clusters := rfl
@[simp] theorem setByte_dies (s : State) (p : Nat) (b : Byte) : (s.setByte p b).dies = s.dies := rfl
@[simp] theorem setByte_wlog (s : State) (p : Nat) (b : Byte) : (s.setByte p b).wlog = s.wlog := rfl
@[simp] theorem setByte_dir (s : State) (p : Nat) (b : Byte) : (s.setByte p b).dir = s.dir := rfl
@[simp] theorem setByte_home (s : State) (p : Nat) (b : Byte) : (s.setByte p b).home = s.home := rfl
@[simp] theorem setByte_late (s : State) (p : Nat) (b : Byte) : (s.setByte p b).late = s.late := rfl
@[simp] theorem setByte_reqs (s : State) (p : Nat) (b : Byte) : (s.setByte p b).reqs = s.reqs := rfl
@[simp] theorem setByte_msgs (s : State) (p : Nat) (b : Byte) : (s.setByte p b).msgs = s.msgs := rfl
@[simp] theorem setByte_misses (s : State) (p : Nat) (b : Byte) : (s.setByte p b).misses = s.misses := rfl
@[simp] theorem setByte_snoops (s : State) (p : Nat) (b : Byte) : (s.setByte p b).snoops = s.snoops := rfl
@[simp] theorem setByte_posts (s : State) (p : Nat) (b : Byte) : (s.setByte p b).posts = s.posts := rfl
@[simp] theorem setByte_windows (s : State) (p : Nat) (b : Byte) : (s.setByte p b).windows = s.windows := rfl
@[simp] theorem setByte_wmarks (s : State) (p : Nat) (b : Byte) : (s.setByte p b).wmarks = s.wmarks := rfl
@[simp] theorem setByte_peerPosts (s : State) (p : Nat) (b : Byte) : (s.setByte p b).peerPosts = s.peerPosts := rfl
@[simp] theorem setByte_wreqs (s : State) (p : Nat) (b : Byte) : (s.setByte p b).wreqs = s.wreqs := rfl
@[simp] theorem setByte_peerReqs (s : State) (p : Nat) (b : Byte) : (s.setByte p b).peerReqs = s.peerReqs := rfl
@[simp] theorem setByte_copies (s : State) (p : Nat) (b : Byte) : (s.setByte p b).copies = s.copies := rfl
@[simp] theorem setByte_bards (s : State) (p : Nat) (b : Byte) : (s.setByte p b).bards = s.bards := rfl
@[simp] theorem setByte_tiles (s : State) (p : Nat) (b : Byte) : (s.setByte p b).tiles = s.tiles := rfl
@[simp] theorem setByte_queues (s : State) (p : Nat) (b : Byte) : (s.setByte p b).queues = s.queues := rfl
@[simp] theorem setByte_lastQueue (s : State) (p : Nat) (b : Byte) : (s.setByte p b).lastQueue = s.lastQueue := rfl
@[simp] theorem setByte_launches (s : State) (p : Nat) (b : Byte) : (s.setByte p b).launches = s.launches := rfl
@[simp] theorem setByte_regs (s : State) (p : Nat) (b : Byte) : (s.setByte p b).regs = s.regs := rfl
@[simp] theorem setByte_routes (s : State) (p : Nat) (b : Byte) : (s.setByte p b).routes = s.routes := rfl
@[simp] theorem setByte_lost (s : State) (p : Nat) (b : Byte) : (s.setByte p b).lost = s.lost := rfl
@[simp] theorem setByte_tlbiBusy (s : State) (p : Nat) (b : Byte) : (s.setByte p b).tlbiBusy = s.tlbiBusy := rfl
@[simp] theorem setByte_tlbiPosts (s : State) (p : Nat) (b : Byte) : (s.setByte p b).tlbiPosts = s.tlbiPosts := rfl
@[simp] theorem setByte_tlbiTiles (s : State) (p : Nat) (b : Byte) : (s.setByte p b).tlbiTiles = s.tlbiTiles := rfl
@[simp] theorem setByte_engines (s : State) (p : Nat) (b : Byte) : (s.setByte p b).engines = s.engines := rfl
@[simp] theorem setByte_ecc (s : State) (p : Nat) (b : Byte) : (s.setByte p b).ecc = s.ecc := rfl
@[simp] theorem setByte_repair (s : State) (p : Nat) (b : Byte) : (s.setByte p b).repair = s.repair := rfl
@[simp] theorem setByte_firmware (s : State) (p : Nat) (b : Byte) : (s.setByte p b).firmware = s.firmware := rfl
@[simp] theorem setByte_linkKeys (s : State) (p : Nat) (b : Byte) : (s.setByte p b).linkKeys = s.linkKeys := rfl
@[simp] theorem setByte_lmRes (s : State) (p : Nat) (b : Byte) : (s.setByte p b).lmRes = s.lmRes := rfl
@[simp] theorem setByte_lmCmd (s : State) (p : Nat) (b : Byte) : (s.setByte p b).lmCmd = s.lmCmd := rfl
@[simp] theorem setByte_outbox (s : State) (p : Nat) (b : Byte) : (s.setByte p b).outbox = s.outbox := rfl
@[simp] theorem setByte_ctx (s : State) (p : Nat) (b : Byte) (j : Nat) : (s.setByte p b).ctx j = s.ctx j := rfl
@[simp] theorem setByte_core (s : State) (p : Nat) (b : Byte) (j : Nat) : (s.setByte p b).core j = s.core j := rfl
@[simp] theorem setByte_cluster (s : State) (p : Nat) (b : Byte) (j : Nat) : (s.setByte p b).cluster j = s.cluster j := rfl
@[simp] theorem setByte_die (s : State) (p : Nat) (b : Byte) (j : Nat) : (s.setByte p b).die j = s.die j := rfl
@[simp] theorem setByte_launch (s : State) (p : Nat) (b : Byte) (j : Nat) : (s.setByte p b).launch j = s.launch j := rfl
@[simp] theorem setByte_queue (s : State) (p : Nat) (b : Byte) (j : Nat) : (s.setByte p b).queue j = s.queue j := rfl

/-! ### setByteMarked -/

@[simp] theorem setByteMarked_clock (s : State) (p : Nat) (b : Byte) (m : Nat) : (s.setByteMarked p b m).clock = s.clock := rfl
@[simp] theorem setByteMarked_cur (s : State) (p : Nat) (b : Byte) (m : Nat) : (s.setByteMarked p b m).cur = s.cur := rfl
@[simp] theorem setByteMarked_agenda (s : State) (p : Nat) (b : Byte) (m : Nat) : (s.setByteMarked p b m).agenda = s.agenda := rfl
@[simp] theorem setByteMarked_fresh (s : State) (p : Nat) (b : Byte) (m : Nat) : (s.setByteMarked p b m).fresh = s.fresh := rfl
@[simp] theorem setByteMarked_iw (s : State) (p : Nat) (b : Byte) (m : Nat) : (s.setByteMarked p b m).iw = s.iw := rfl
@[simp] theorem setByteMarked_after (s : State) (p : Nat) (b : Byte) (m : Nat) : (s.setByteMarked p b m).after = s.after := rfl
@[simp] theorem setByteMarked_watch (s : State) (p : Nat) (b : Byte) (m : Nat) : (s.setByteMarked p b m).watch = s.watch := rfl
@[simp] theorem setByteMarked_ctxs (s : State) (p : Nat) (b : Byte) (m : Nat) : (s.setByteMarked p b m).ctxs = s.ctxs := rfl
@[simp] theorem setByteMarked_cores (s : State) (p : Nat) (b : Byte) (m : Nat) : (s.setByteMarked p b m).cores = s.cores := rfl
@[simp] theorem setByteMarked_clusters (s : State) (p : Nat) (b : Byte) (m : Nat) : (s.setByteMarked p b m).clusters = s.clusters := rfl
@[simp] theorem setByteMarked_dies (s : State) (p : Nat) (b : Byte) (m : Nat) : (s.setByteMarked p b m).dies = s.dies := rfl
@[simp] theorem setByteMarked_wlog (s : State) (p : Nat) (b : Byte) (m : Nat) : (s.setByteMarked p b m).wlog = s.wlog := rfl
@[simp] theorem setByteMarked_dir (s : State) (p : Nat) (b : Byte) (m : Nat) : (s.setByteMarked p b m).dir = s.dir := rfl
@[simp] theorem setByteMarked_home (s : State) (p : Nat) (b : Byte) (m : Nat) : (s.setByteMarked p b m).home = s.home := rfl
@[simp] theorem setByteMarked_late (s : State) (p : Nat) (b : Byte) (m : Nat) : (s.setByteMarked p b m).late = s.late := rfl
@[simp] theorem setByteMarked_reqs (s : State) (p : Nat) (b : Byte) (m : Nat) : (s.setByteMarked p b m).reqs = s.reqs := rfl
@[simp] theorem setByteMarked_msgs (s : State) (p : Nat) (b : Byte) (m : Nat) : (s.setByteMarked p b m).msgs = s.msgs := rfl
@[simp] theorem setByteMarked_misses (s : State) (p : Nat) (b : Byte) (m : Nat) : (s.setByteMarked p b m).misses = s.misses := rfl
@[simp] theorem setByteMarked_snoops (s : State) (p : Nat) (b : Byte) (m : Nat) : (s.setByteMarked p b m).snoops = s.snoops := rfl
@[simp] theorem setByteMarked_posts (s : State) (p : Nat) (b : Byte) (m : Nat) : (s.setByteMarked p b m).posts = s.posts := rfl
@[simp] theorem setByteMarked_windows (s : State) (p : Nat) (b : Byte) (m : Nat) : (s.setByteMarked p b m).windows = s.windows := rfl
@[simp] theorem setByteMarked_wmarks (s : State) (p : Nat) (b : Byte) (m : Nat) : (s.setByteMarked p b m).wmarks = s.wmarks := rfl
@[simp] theorem setByteMarked_peerPosts (s : State) (p : Nat) (b : Byte) (m : Nat) : (s.setByteMarked p b m).peerPosts = s.peerPosts := rfl
@[simp] theorem setByteMarked_wreqs (s : State) (p : Nat) (b : Byte) (m : Nat) : (s.setByteMarked p b m).wreqs = s.wreqs := rfl
@[simp] theorem setByteMarked_peerReqs (s : State) (p : Nat) (b : Byte) (m : Nat) : (s.setByteMarked p b m).peerReqs = s.peerReqs := rfl
@[simp] theorem setByteMarked_copies (s : State) (p : Nat) (b : Byte) (m : Nat) : (s.setByteMarked p b m).copies = s.copies := rfl
@[simp] theorem setByteMarked_bards (s : State) (p : Nat) (b : Byte) (m : Nat) : (s.setByteMarked p b m).bards = s.bards := rfl
@[simp] theorem setByteMarked_tiles (s : State) (p : Nat) (b : Byte) (m : Nat) : (s.setByteMarked p b m).tiles = s.tiles := rfl
@[simp] theorem setByteMarked_queues (s : State) (p : Nat) (b : Byte) (m : Nat) : (s.setByteMarked p b m).queues = s.queues := rfl
@[simp] theorem setByteMarked_lastQueue (s : State) (p : Nat) (b : Byte) (m : Nat) : (s.setByteMarked p b m).lastQueue = s.lastQueue := rfl
@[simp] theorem setByteMarked_launches (s : State) (p : Nat) (b : Byte) (m : Nat) : (s.setByteMarked p b m).launches = s.launches := rfl
@[simp] theorem setByteMarked_regs (s : State) (p : Nat) (b : Byte) (m : Nat) : (s.setByteMarked p b m).regs = s.regs := rfl
@[simp] theorem setByteMarked_routes (s : State) (p : Nat) (b : Byte) (m : Nat) : (s.setByteMarked p b m).routes = s.routes := rfl
@[simp] theorem setByteMarked_lost (s : State) (p : Nat) (b : Byte) (m : Nat) : (s.setByteMarked p b m).lost = s.lost := rfl
@[simp] theorem setByteMarked_tlbiBusy (s : State) (p : Nat) (b : Byte) (m : Nat) : (s.setByteMarked p b m).tlbiBusy = s.tlbiBusy := rfl
@[simp] theorem setByteMarked_tlbiPosts (s : State) (p : Nat) (b : Byte) (m : Nat) : (s.setByteMarked p b m).tlbiPosts = s.tlbiPosts := rfl
@[simp] theorem setByteMarked_tlbiTiles (s : State) (p : Nat) (b : Byte) (m : Nat) : (s.setByteMarked p b m).tlbiTiles = s.tlbiTiles := rfl
@[simp] theorem setByteMarked_engines (s : State) (p : Nat) (b : Byte) (m : Nat) : (s.setByteMarked p b m).engines = s.engines := rfl
@[simp] theorem setByteMarked_ecc (s : State) (p : Nat) (b : Byte) (m : Nat) : (s.setByteMarked p b m).ecc = s.ecc := rfl
@[simp] theorem setByteMarked_repair (s : State) (p : Nat) (b : Byte) (m : Nat) : (s.setByteMarked p b m).repair = s.repair := rfl
@[simp] theorem setByteMarked_firmware (s : State) (p : Nat) (b : Byte) (m : Nat) : (s.setByteMarked p b m).firmware = s.firmware := rfl
@[simp] theorem setByteMarked_linkKeys (s : State) (p : Nat) (b : Byte) (m : Nat) : (s.setByteMarked p b m).linkKeys = s.linkKeys := rfl
@[simp] theorem setByteMarked_lmRes (s : State) (p : Nat) (b : Byte) (m : Nat) : (s.setByteMarked p b m).lmRes = s.lmRes := rfl
@[simp] theorem setByteMarked_lmCmd (s : State) (p : Nat) (b : Byte) (m : Nat) : (s.setByteMarked p b m).lmCmd = s.lmCmd := rfl
@[simp] theorem setByteMarked_outbox (s : State) (p : Nat) (b : Byte) (m : Nat) : (s.setByteMarked p b m).outbox = s.outbox := rfl
@[simp] theorem setByteMarked_ctx (s : State) (p : Nat) (b : Byte) (m : Nat) (j : Nat) : (s.setByteMarked p b m).ctx j = s.ctx j := rfl
@[simp] theorem setByteMarked_core (s : State) (p : Nat) (b : Byte) (m : Nat) (j : Nat) : (s.setByteMarked p b m).core j = s.core j := rfl
@[simp] theorem setByteMarked_cluster (s : State) (p : Nat) (b : Byte) (m : Nat) (j : Nat) : (s.setByteMarked p b m).cluster j = s.cluster j := rfl
@[simp] theorem setByteMarked_die (s : State) (p : Nat) (b : Byte) (m : Nat) (j : Nat) : (s.setByteMarked p b m).die j = s.die j := rfl
@[simp] theorem setByteMarked_launch (s : State) (p : Nat) (b : Byte) (m : Nat) (j : Nat) : (s.setByteMarked p b m).launch j = s.launch j := rfl
@[simp] theorem setByteMarked_queue (s : State) (p : Nat) (b : Byte) (m : Nat) (j : Nat) : (s.setByteMarked p b m).queue j = s.queue j := rfl

/-! ### clearNotes -/

@[simp] theorem clearNotes_clock (s : State) : (clearNotes s).clock = s.clock := rfl
@[simp] theorem clearNotes_cur (s : State) : (clearNotes s).cur = s.cur := rfl
@[simp] theorem clearNotes_agenda (s : State) : (clearNotes s).agenda = s.agenda := rfl
@[simp] theorem clearNotes_fresh (s : State) : (clearNotes s).fresh = s.fresh := rfl
@[simp] theorem clearNotes_iw (s : State) : (clearNotes s).iw = s.iw := rfl
@[simp] theorem clearNotes_ctxs (s : State) : (clearNotes s).ctxs = s.ctxs := rfl
@[simp] theorem clearNotes_cores (s : State) : (clearNotes s).cores = s.cores := rfl
@[simp] theorem clearNotes_clusters (s : State) : (clearNotes s).clusters = s.clusters := rfl
@[simp] theorem clearNotes_dies (s : State) : (clearNotes s).dies = s.dies := rfl
@[simp] theorem clearNotes_mem (s : State) : (clearNotes s).mem = s.mem := rfl
@[simp] theorem clearNotes_marks (s : State) : (clearNotes s).marks = s.marks := rfl
@[simp] theorem clearNotes_wlog (s : State) : (clearNotes s).wlog = s.wlog := rfl
@[simp] theorem clearNotes_dir (s : State) : (clearNotes s).dir = s.dir := rfl
@[simp] theorem clearNotes_home (s : State) : (clearNotes s).home = s.home := rfl
@[simp] theorem clearNotes_late (s : State) : (clearNotes s).late = s.late := rfl
@[simp] theorem clearNotes_reqs (s : State) : (clearNotes s).reqs = s.reqs := rfl
@[simp] theorem clearNotes_msgs (s : State) : (clearNotes s).msgs = s.msgs := rfl
@[simp] theorem clearNotes_misses (s : State) : (clearNotes s).misses = s.misses := rfl
@[simp] theorem clearNotes_snoops (s : State) : (clearNotes s).snoops = s.snoops := rfl
@[simp] theorem clearNotes_posts (s : State) : (clearNotes s).posts = s.posts := rfl
@[simp] theorem clearNotes_windows (s : State) : (clearNotes s).windows = s.windows := rfl
@[simp] theorem clearNotes_wmarks (s : State) : (clearNotes s).wmarks = s.wmarks := rfl
@[simp] theorem clearNotes_peerPosts (s : State) : (clearNotes s).peerPosts = s.peerPosts := rfl
@[simp] theorem clearNotes_wreqs (s : State) : (clearNotes s).wreqs = s.wreqs := rfl
@[simp] theorem clearNotes_peerReqs (s : State) : (clearNotes s).peerReqs = s.peerReqs := rfl
@[simp] theorem clearNotes_copies (s : State) : (clearNotes s).copies = s.copies := rfl
@[simp] theorem clearNotes_bards (s : State) : (clearNotes s).bards = s.bards := rfl
@[simp] theorem clearNotes_tiles (s : State) : (clearNotes s).tiles = s.tiles := rfl
@[simp] theorem clearNotes_queues (s : State) : (clearNotes s).queues = s.queues := rfl
@[simp] theorem clearNotes_lastQueue (s : State) : (clearNotes s).lastQueue = s.lastQueue := rfl
@[simp] theorem clearNotes_launches (s : State) : (clearNotes s).launches = s.launches := rfl
@[simp] theorem clearNotes_regs (s : State) : (clearNotes s).regs = s.regs := rfl
@[simp] theorem clearNotes_routes (s : State) : (clearNotes s).routes = s.routes := rfl
@[simp] theorem clearNotes_lost (s : State) : (clearNotes s).lost = s.lost := rfl
@[simp] theorem clearNotes_tlbiBusy (s : State) : (clearNotes s).tlbiBusy = s.tlbiBusy := rfl
@[simp] theorem clearNotes_tlbiPosts (s : State) : (clearNotes s).tlbiPosts = s.tlbiPosts := rfl
@[simp] theorem clearNotes_tlbiTiles (s : State) : (clearNotes s).tlbiTiles = s.tlbiTiles := rfl
@[simp] theorem clearNotes_engines (s : State) : (clearNotes s).engines = s.engines := rfl
@[simp] theorem clearNotes_ecc (s : State) : (clearNotes s).ecc = s.ecc := rfl
@[simp] theorem clearNotes_repair (s : State) : (clearNotes s).repair = s.repair := rfl
@[simp] theorem clearNotes_firmware (s : State) : (clearNotes s).firmware = s.firmware := rfl
@[simp] theorem clearNotes_linkKeys (s : State) : (clearNotes s).linkKeys = s.linkKeys := rfl
@[simp] theorem clearNotes_lmRes (s : State) : (clearNotes s).lmRes = s.lmRes := rfl
@[simp] theorem clearNotes_lmCmd (s : State) : (clearNotes s).lmCmd = s.lmCmd := rfl
@[simp] theorem clearNotes_outbox (s : State) : (clearNotes s).outbox = s.outbox := rfl
@[simp] theorem clearNotes_ctx (s : State) (j : Nat) : (clearNotes s).ctx j = s.ctx j := rfl
@[simp] theorem clearNotes_core (s : State) (j : Nat) : (clearNotes s).core j = s.core j := rfl
@[simp] theorem clearNotes_cluster (s : State) (j : Nat) : (clearNotes s).cluster j = s.cluster j := rfl
@[simp] theorem clearNotes_die (s : State) (j : Nat) : (clearNotes s).die j = s.die j := rfl
@[simp] theorem clearNotes_launch (s : State) (j : Nat) : (clearNotes s).launch j = s.launch j := rfl
@[simp] theorem clearNotes_queue (s : State) (j : Nat) : (clearNotes s).queue j = s.queue j := rfl
@[simp] theorem clearNotes_byte (s : State) (j : Nat) : (clearNotes s).byte j = s.byte j := rfl
@[simp] theorem clearNotes_byteMark (s : State) (j : Nat) : (clearNotes s).byteMark j = s.byteMark j := rfl

/-! ### What an update reads afterwards -/

@[simp] theorem modCtx_ctx_self (s : State) (k : Nat) (f : Ctx → Ctx) : (s.modCtx k f).ctx k = f (s.ctx k) :=
  Tbl.get_set_self _ _ _ _

theorem modCtx_ctx_ne (s : State) {k j : Nat} (f : Ctx → Ctx) (h : j ≠ k) : (s.modCtx k f).ctx j = s.ctx j :=
  Tbl.get_set_ne _ _ _ h

@[simp] theorem modCore_core_self (s : State) (k : Nat) (f : Core → Core) : (s.modCore k f).core k = f (s.core k) :=
  Tbl.get_set_self _ _ _ _

theorem modCore_core_ne (s : State) {k j : Nat} (f : Core → Core) (h : j ≠ k) : (s.modCore k f).core j = s.core j :=
  Tbl.get_set_ne _ _ _ h

@[simp] theorem modCluster_cluster_self (s : State) (k : Nat) (f : Cluster → Cluster) : (s.modCluster k f).cluster k = f (s.cluster k) :=
  Tbl.get_set_self _ _ _ _

theorem modCluster_cluster_ne (s : State) {k j : Nat} (f : Cluster → Cluster) (h : j ≠ k) : (s.modCluster k f).cluster j = s.cluster j :=
  Tbl.get_set_ne _ _ _ h

@[simp] theorem modDie_die_self (s : State) (k : Nat) (f : Die → Die) : (s.modDie k f).die k = f (s.die k) :=
  Tbl.get_set_self _ _ _ _

theorem modDie_die_ne (s : State) {k j : Nat} (f : Die → Die) (h : j ≠ k) : (s.modDie k f).die j = s.die j :=
  Tbl.get_set_ne _ _ _ h

@[simp] theorem modLaunch_launch_self (s : State) (k : Nat) (f : Launch → Launch) : (s.modLaunch k f).launch k = f (s.launch k) :=
  Tbl.get_set_self _ _ _ _

theorem modLaunch_launch_ne (s : State) {k j : Nat} (f : Launch → Launch) (h : j ≠ k) : (s.modLaunch k f).launch j = s.launch j :=
  Tbl.get_set_ne _ _ _ h

@[simp] theorem modQueue_queue_self (s : State) (k : Nat) (f : Queue → Queue) : (s.modQueue k f).queue k = f (s.queue k) :=
  Tbl.get_set_self _ _ _ _

theorem modQueue_queue_ne (s : State) {k j : Nat} (f : Queue → Queue) (h : j ≠ k) : (s.modQueue k f).queue j = s.queue j :=
  Tbl.get_set_ne _ _ _ h

/-- Two changes of one entry are one change. -/
theorem modCtx_modCtx (s : State) (k : Nat) (f g : Ctx → Ctx) : (s.modCtx k f).modCtx k g = s.modCtx k (g ∘ f) := by
  simp [State.modCtx, State.setCtx, State.ctx]

/-- Two changes of one entry are one change. -/
theorem modCore_modCore (s : State) (k : Nat) (f g : Core → Core) : (s.modCore k f).modCore k g = s.modCore k (g ∘ f) := by
  simp [State.modCore, State.core]

/-- Two changes of one entry are one change. -/
theorem modCluster_modCluster (s : State) (k : Nat) (f g : Cluster → Cluster) : (s.modCluster k f).modCluster k g = s.modCluster k (g ∘ f) := by
  simp [State.modCluster, State.cluster]

/-- Two changes of one entry are one change. -/
theorem modDie_modDie (s : State) (k : Nat) (f g : Die → Die) : (s.modDie k f).modDie k g = s.modDie k (g ∘ f) := by
  simp [State.modDie, State.die]

/-- Two changes of one entry are one change. -/
theorem modLaunch_modLaunch (s : State) (k : Nat) (f g : Launch → Launch) : (s.modLaunch k f).modLaunch k g = s.modLaunch k (g ∘ f) := by
  simp [State.modLaunch, State.launch]

/-- Two changes of one entry are one change. -/
theorem modQueue_modQueue (s : State) (k : Nat) (f g : Queue → Queue) : (s.modQueue k f).modQueue k g = s.modQueue k (g ∘ f) := by
  simp [State.modQueue, State.queue]

@[simp] theorem setCtx_ctx_self (s : State) (k : Nat) (c : Ctx) : (s.setCtx k c).ctx k = c := Tbl.get_set_self _ _ _ _

theorem setCtx_ctx_ne (s : State) {k j : Nat} (c : Ctx) (h : j ≠ k) : (s.setCtx k c).ctx j = s.ctx j :=
  Tbl.get_set_ne _ _ _ h

@[simp] theorem setByte_byte_self (s : State) (p : Nat) (b : Byte) : (s.setByte p b).byte p = b := Tbl.get_set_self _ _ _ _

theorem setByte_byte_ne (s : State) {p q : Nat} (b : Byte) (h : q ≠ p) : (s.setByte p b).byte q = s.byte q :=
  Tbl.get_set_ne _ _ _ h

@[simp] theorem setByteMarked_byte_self (s : State) (p : Nat) (b : Byte) (m : Nat) : (s.setByteMarked p b m).byte p = b :=
  Tbl.get_set_self _ _ _ _

theorem setByteMarked_byte_ne (s : State) {p q : Nat} (b : Byte) (m : Nat) (h : q ≠ p) :
    (s.setByteMarked p b m).byte q = s.byte q := Tbl.get_set_ne _ _ _ h

/-! ### Registers of a context -/

@[simp] theorem xr_zero (c : Ctx) : c.xr 0 = 0 := rfl

@[simp] theorem mark_zero (c : Ctx) : c.mark 0 = 0 := rfl

theorem setX_zero (c : Ctx) (v : Word) : c.setX 0 v = c := rfl

theorem setX_xr_self (c : Ctx) {n : Nat} (v : Word) (h : n ≠ 0) : (c.setX n v).xr n = v := by
  simp [Ctx.setX, Ctx.xr, h]

theorem setX_xr_ne (c : Ctx) {n m : Nat} (v : Word) (h : m ≠ n) : (c.setX n v).xr m = c.xr m := by
  by_cases hn : n = 0
  · simp [Ctx.setX, hn]
  · simp [Ctx.setX, Ctx.xr, hn, Tbl.get_set_ne _ _ _ h]

theorem setX_mark_self (c : Ctx) (n : Nat) (v : Word) : (c.setX n v).mark n = 0 := by
  by_cases hn : n = 0
  · simp [hn]
  · simp [Ctx.setX, Ctx.mark, hn]

theorem setX_mark_ne (c : Ctx) {n m : Nat} (v : Word) (h : m ≠ n) : (c.setX n v).mark m = c.mark m := by
  by_cases hn : n = 0
  · simp [Ctx.setX, hn]
  · simp [Ctx.setX, Ctx.mark, hn, Tbl.get_set_ne _ _ _ h]

/-- Writing an x register changes nothing of a context but the register and its mark. -/
theorem setX_rest (c : Ctx) (n : Nat) (v : Word) :
    c.setX n v = { c with x := (c.setX n v).x, xp := (c.setX n v).xp } := by
  by_cases hn : n = 0 <;> simp [Ctx.setX, hn]

@[simp] theorem orFlags_xr (c : Ctx) (f : Flags) (n : Nat) : (c.orFlags f).xr n = c.xr n := rfl

@[simp] theorem orFlags_zero (c : Ctx) : c.orFlags 0 = c := by simp [Ctx.orFlags]

end Sys2Proof.Machine
end

