-- ==== Sys2Proof/Laws/Caches.lean ====
section
/-!
SUPPORT. Laws of the caches: what an access does to them before it reads or writes. Whatever request it makes, nothing of the
state differs afterwards but the lines of L1s and pools, the lines, links and slice counters of dies, the directory, what homes
hold apart, the requests that wait in queues, and the count of free choices.
-/

namespace Sys2Proof.Machine

open Sys2Proof

/-- Two states differ in what caches, links, slices with their queues and homes hold, and in the count of free choices, alone. -/
def OnlyCaches (s t : State) : Prop :=
  t = { s with
    cores := t.cores, clusters := t.clusters, dies := t.dies, dir := t.dir, home := t.home, misses := t.misses, fresh := t.fresh } ∧
  (∀ k, t.core k = { s.core k with l1 := (t.core k).l1, rc := (t.core k).rc }) ∧
  (∀ k, t.cluster k = { s.cluster k with pool := (t.cluster k).pool }) ∧
  ∀ d, t.die d = { s.die d with slices := (t.die d).slices, links := (t.die d).links, lines := (t.die d).lines }

namespace OnlyCaches

theorem refl (s : State) : OnlyCaches s s := ⟨rfl, fun _ => rfl, fun _ => rfl, fun _ => rfl⟩

theorem trans {s t u : State} (h : OnlyCaches s t) (k : OnlyCaches t u) : OnlyCaches s u :=
  ⟨by rw [k.1, h.1], fun n => by rw [k.2.1 n, h.2.1 n], fun n => by rw [k.2.2.1 n, h.2.2.1 n], fun n => by rw [k.2.2.2 n, h.2.2.2 n]⟩

variable {s t : State}

theorem ctxs (h : OnlyCaches s t) : t.ctxs = s.ctxs := by rw [h.1]
theorem cur (h : OnlyCaches s t) : t.cur = s.cur := by rw [h.1]
theorem mem (h : OnlyCaches s t) : t.mem = s.mem := by rw [h.1]
theorem marks (h : OnlyCaches s t) : t.marks = s.marks := by rw [h.1]
theorem posts (h : OnlyCaches s t) : t.posts = s.posts := by rw [h.1]
theorem tiles (h : OnlyCaches s t) : t.tiles = s.tiles := by rw [h.1]
theorem launches (h : OnlyCaches s t) : t.launches = s.launches := by rw [h.1]
theorem after (h : OnlyCaches s t) : t.after = s.after := by rw [h.1]
theorem watch (h : OnlyCaches s t) : t.watch = s.watch := by rw [h.1]

theorem ctx (h : OnlyCaches s t) (k : Nat) : t.ctx k = s.ctx k := by unfold State.ctx; rw [h.ctxs]
theorem launch (h : OnlyCaches s t) (l : Nat) : t.launch l = s.launch l := by unfold State.launch; rw [h.launches]
theorem byte (h : OnlyCaches s t) (p : Nat) : t.byte p = s.byte p := by unfold State.byte; rw [h.mem]
theorem byteMark (h : OnlyCaches s t) (p : Nat) : t.byteMark p = s.byteMark p := by unfold State.byteMark; rw [h.marks]

end OnlyCaches

/-! ### The updates that make up a request -/

theorem onlyCaches_modCore (s : State) (n : Nat) (f : Core → Core) (h : ∀ c, f c = { c with l1 := (f c).l1, rc := (f c).rc }) :
    OnlyCaches s (s.modCore n f) := by
  refine ⟨rfl, fun k => ?_, fun _ => rfl, fun _ => rfl⟩
  by_cases e : k = n
  · subst e; simpa [State.core, State.modCore, Tbl.get_set] using h (s.core k)
  · simp [State.core, State.modCore, Tbl.get_set, e]

theorem onlyCaches_modCluster (s : State) (n : Nat) (f : Cluster → Cluster) (h : ∀ c, f c = { c with pool := (f c).pool }) :
    OnlyCaches s (s.modCluster n f) := by
  refine ⟨rfl, fun _ => rfl, fun k => ?_, fun _ => rfl⟩
  by_cases e : k = n
  · subst e; simpa [State.cluster, State.modCluster, Tbl.get_set] using h (s.cluster k)
  · simp [State.cluster, State.modCluster, Tbl.get_set, e]

theorem onlyCaches_modDie (s : State) (n : Nat) (f : Die → Die)
    (h : ∀ d, f d = { d with slices := (f d).slices, links := (f d).links, lines := (f d).lines }) :
    OnlyCaches s (s.modDie n f) := by
  refine ⟨rfl, fun _ => rfl, fun _ => rfl, fun k => ?_⟩
  by_cases e : k = n
  · subst e; simpa [State.die, State.modDie, Tbl.get_set] using h (s.die k)
  · simp [State.die, State.modDie, Tbl.get_set, e]

theorem onlyCaches_foldl {α : Type} (f : State → α → State) (h : ∀ s a, OnlyCaches s (f s a)) (l : List α) (s : State) :
    OnlyCaches s (l.foldl f s) := by
  induction l generalizing s with
  | nil => exact .refl s
  | cons a l ih => exact (h s a).trans (ih (f s a))

theorem onlyCaches_fresh (s : State) (n : Nat) : OnlyCaches s { s with fresh := n } := ⟨rfl, fun _ => rfl, fun _ => rfl, fun _ => rfl⟩

theorem onlyCaches_dropMiss (v : Via) (line : Nat) (s : State) : OnlyCaches s (dropMiss v line s) :=
  ⟨rfl, fun _ => rfl, fun _ => rfl, fun _ => rfl⟩

theorem onlyCaches_setDir (line : Nat) (e : Dir) (s : State) : OnlyCaches s (setDir line e s) :=
  ⟨rfl, fun _ => rfl, fun _ => rfl, fun _ => rfl⟩

theorem onlyCaches_home (s : State) (t : Tbl (List Byte)) : OnlyCaches s { s with home := t } :=
  ⟨rfl, fun _ => rfl, fun _ => rfl, fun _ => rfl⟩

theorem onlyCaches_cleanLine (line : Nat) (s : State) : OnlyCaches s (cleanLine line s) := onlyCaches_home s _

theorem onlyCaches_dirtyLine (line : Nat) (s : State) : OnlyCaches s (dirtyLine line s) := by
  unfold dirtyLine; split
  · exact onlyCaches_home s _
  · exact .refl s

theorem onlyCaches_setL1 (core line st : Nat) (s : State) : OnlyCaches s (setL1 core line st s) :=
  onlyCaches_modCore s core _ fun _ => rfl

theorem onlyCaches_dropRc (core va : Nat) (s : State) : OnlyCaches s (dropRc core va s) :=
  onlyCaches_modCore s core _ fun _ => rfl

theorem onlyCaches_setPool (cl line : Nat) (e : PoolLine) (s : State) : OnlyCaches s (setPool cl line e s) :=
  onlyCaches_modCluster s cl _ fun _ => rfl

theorem onlyCaches_evictL1 (core line : Nat) (s : State) : OnlyCaches s (evictL1 core line s) := by
  unfold evictL1
  dsimp only
  split
  · exact (onlyCaches_setL1 ..).trans (onlyCaches_setPool ..)
  · exact onlyCaches_setL1 ..

theorem onlyCaches_roomL1 (core : Nat) (s : State) : OnlyCaches s (roomL1 core s) := by
  unfold roomL1
  split
  · exact .refl s
  · split
    · exact onlyCaches_setPool ..
    · dsimp only; split
      · exact (onlyCaches_fresh s _).trans (onlyCaches_evictL1 ..)
      · exact (onlyCaches_fresh s _).trans (onlyCaches_dropRc ..)
      · exact onlyCaches_fresh s _

theorem onlyCaches_fillL1 (core line st : Nat) (s : State) : OnlyCaches s (fillL1 core line st s) := by
  unfold fillL1
  split
  · exact .refl s
  · split
    · exact onlyCaches_setL1 ..
    · exact (onlyCaches_roomL1 core s).trans (onlyCaches_setL1 ..)

theorem onlyCaches_capCores (d line st : Nat) (s : State) : OnlyCaches s (capCores d line st s) := by
  unfold capCores
  refine (onlyCaches_foldl _ (fun s k => ?_) _ s).trans (onlyCaches_foldl _ (fun s c => ?_) _ _)
  · split
    · exact onlyCaches_setL1 ..
    · exact .refl s
  · dsimp only; split
    · exact onlyCaches_setPool ..
    · split
      · exact onlyCaches_setPool ..
      · exact .refl s

theorem onlyCaches_setDieLine (d line st : Nat) (s : State) : OnlyCaches s (setDieLine d line st s) := by
  unfold setDieLine
  exact (onlyCaches_capCores d line _ s).trans (onlyCaches_modDie _ d _ fun _ => rfl)

theorem onlyCaches_takeBack (core line : Nat) (s : State) : OnlyCaches s (takeBack core line s) :=
  (onlyCaches_setPool ..).trans (onlyCaches_fillL1 ..)

theorem onlyCaches_modLinks (d n : Nat) (f : Link → Link) (s : State) : OnlyCaches s (modLinks d n f s) := by
  have h : ∀ d n (s : State), OnlyCaches s (modLink d n f s) := fun d n s => onlyCaches_modDie s d _ fun _ => rfl
  unfold modLinks
  dsimp only
  split
  · exact (h d n s).trans (h n d _)
  · exact h d n s

theorem onlyCaches_useLink (d n : Nat) (s : State) : OnlyCaches s (useLink d n s) := by
  unfold useLink
  dsimp only
  split
  · exact onlyCaches_modLinks ..
  · exact .refl s

theorem onlyCaches_countAt (d line : Nat) (s : State) : OnlyCaches s (countAt d line s) := by
  unfold countAt acceptAt
  exact onlyCaches_modDie s d _ fun _ => rfl

theorem onlyCaches_dropLine (line : Nat) (s : State) : OnlyCaches s (dropLine line s) := by
  refine ((onlyCaches_foldl _ (fun s d => ?_) _ s).trans (onlyCaches_cleanLine ..)).trans (onlyCaches_setDir ..)
  split
  · exact .refl s
  · exact onlyCaches_setDieLine ..

/-! ### Requests -/

theorem onlyCaches_useLinks (h : Nat) (ds : List Nat) (s : State) : OnlyCaches s (useLinks h ds s) :=
  onlyCaches_foldl _ (fun s x => onlyCaches_useLink h x s) ds s

theorem onlyCaches_roomAtHome (h line : Nat) (s : State) : OnlyCaches s (roomAtHome h line s) := by
  unfold roomAtHome
  split
  · exact (onlyCaches_useLinks ..).trans (onlyCaches_dropLine ..)
  · exact .refl s

theorem onlyCaches_useDir (line : Nat) (s : State) : OnlyCaches s (useDir line s) :=
  (onlyCaches_fresh s _).trans (onlyCaches_setDir ..)

theorem onlyCaches_atHome (d : Option Nat) (counted : Bool) (line : Nat) (s : State) :
    OnlyCaches s (atHome d counted line s) := by
  unfold atHome
  split
  · exact .refl s
  · dsimp only
    split
    · exact onlyCaches_useLinks ..
    · exact (onlyCaches_useLinks ..).trans (onlyCaches_countAt ..)

theorem onlyCaches_startAtHome (d : Nat) (counted : Bool) (line : Nat) (s : State) :
    OnlyCaches s (startAtHome d counted line s) := by
  unfold startAtHome
  refine OnlyCaches.trans ?_ ((onlyCaches_atHome ..).trans (onlyCaches_useDir ..))
  split
  · exact onlyCaches_roomAtHome ..
  · exact .refl s

theorem onlyCaches_backAtHome (line : Nat) (s : State) : OnlyCaches s (backAtHome line s) := by
  unfold backAtHome
  refine (onlyCaches_atHome none false line s).trans ?_
  dsimp only
  split
  · exact onlyCaches_useDir ..
  · exact .refl _

theorem onlyCaches_selfAtHome (line : Nat) (s : State) : OnlyCaches s (selfAtHome line s) :=
  (onlyCaches_dropMiss ..).trans (onlyCaches_atHome ..)

theorem onlyCaches_homeRead (c : Bool) (d line : Nat) (s : State) : OnlyCaches s (homeRead c d line s) := by
  unfold homeRead
  refine (onlyCaches_startAtHome d c line s).trans ?_
  dsimp only
  split
  · split
    · exact (onlyCaches_setDir ..).trans (onlyCaches_setDieLine ..)
    · exact (onlyCaches_setDir ..).trans (onlyCaches_setDieLine ..)
  · split
    · exact ((onlyCaches_setDir ..).trans (onlyCaches_setDieLine ..)).trans (onlyCaches_setDieLine ..)
    · exact ((onlyCaches_setDir ..).trans (onlyCaches_setDieLine ..)).trans (onlyCaches_setDieLine ..)

theorem onlyCaches_homeOwn (c : Bool) (d line : Nat) (s : State) : OnlyCaches s (homeOwn c d line s) :=
  (((onlyCaches_startAtHome d c line s).trans (onlyCaches_dirtyLine ..)).trans
    (onlyCaches_foldl _ (fun s x => onlyCaches_setDieLine x line 0 s) _ _)).trans
    ((onlyCaches_setDir ..).trans (onlyCaches_setDieLine ..))

theorem onlyCaches_homeWrite (line : Nat) (s : State) : OnlyCaches s (homeWrite line s) :=
  (onlyCaches_selfAtHome line s).trans (onlyCaches_dropLine ..)

theorem onlyCaches_homePeek (line : Nat) (s : State) : OnlyCaches s (homePeek line s) := by
  unfold homePeek
  refine (onlyCaches_selfAtHome line s).trans ?_
  dsimp only
  split
  · exact .refl _
  · split
    · exact ((onlyCaches_setDir ..).trans (onlyCaches_setDieLine ..)).trans (onlyCaches_cleanLine ..)
    · exact .refl _

theorem onlyCaches_homeBack (d line : Nat) (s : State) : OnlyCaches s (homeBack d line s) := by
  unfold homeBack
  refine (onlyCaches_backAtHome line s).trans ?_
  dsimp only
  refine OnlyCaches.trans ?_ ((onlyCaches_setDir ..).trans (onlyCaches_setDieLine ..))
  split
  · exact onlyCaches_cleanLine ..
  · exact .refl _

theorem onlyCaches_roomL2 (d line : Nat) (s : State) : OnlyCaches s (roomL2 d line s) := by
  unfold roomL2
  dsimp only
  split
  · exact .refl s
  · split
    · exact (onlyCaches_fresh s _).trans (onlyCaches_homeBack ..)
    · exact .refl s

/-- What a unit of a die does first: the request that has waited goes, or the slice counts it (R348). -/
theorem onlyCaches_asked (v : Via) (c : Bool) (d line : Nat) (s : State) :
    OnlyCaches s (if c = true then dropMiss v line s else countAt d line (dropMiss v line s)) := by
  split
  · exact onlyCaches_dropMiss ..
  · exact (onlyCaches_dropMiss v line s).trans (onlyCaches_countAt ..)

theorem onlyCaches_dieRead (v : Via) (d line : Nat) (s : State) : OnlyCaches s (dieRead v d line s) := by
  unfold dieRead
  dsimp only
  refine (onlyCaches_asked v (s.counted v line (s.dieLine d line != 0)) d line s).trans ?_
  generalize (if s.counted v line (s.dieLine d line != 0) = true then dropMiss v line s else
    countAt d line (dropMiss v line s)) = u
  split
  · exact .refl _
  · exact (onlyCaches_roomL2 ..).trans (onlyCaches_homeRead ..)

theorem onlyCaches_dieOwn (v : Via) (d line : Nat) (s : State) : OnlyCaches s (dieOwn v d line s) := by
  unfold dieOwn
  dsimp only
  refine (onlyCaches_asked v (s.counted v line (s.dieLine d line == 4 || s.dieLine d line == 2)) d line s).trans ?_
  generalize (if s.counted v line (s.dieLine d line == 4 || s.dieLine d line == 2) = true then dropMiss v line s else
    countAt d line (dropMiss v line s)) = u
  split
  · exact onlyCaches_capCores ..
  · exact ((onlyCaches_dirtyLine ..).trans (onlyCaches_capCores ..)).trans (onlyCaches_setDieLine ..)
  · exact (onlyCaches_roomL2 ..).trans (onlyCaches_homeOwn ..)
  · exact (onlyCaches_homeOwn ..).trans (onlyCaches_capCores ..)

theorem onlyCaches_coreRead (core ch line : Nat) (s : State) : OnlyCaches s (coreRead core ch line s) := by
  have h : OnlyCaches s (capCores (dieOfCore core) line 1 (dieRead (.l1 core) (dieOfCore core) line s)) :=
    (onlyCaches_dieRead ..).trans (onlyCaches_capCores ..)
  unfold coreRead
  split
  · exact .refl s
  · split
    · exact onlyCaches_takeBack ..
    · by_cases c : ch = 1 ∨ ch = 2
      · simp only [c, if_true]; exact h
      · simp only [c, if_false]; exact h.trans (onlyCaches_fillL1 ..)

/-- What a core that has no line of the pool to take back does to own a line (R270). -/
theorem onlyCaches_ownL1 (d core line : Nat) (s : State) :
    OnlyCaches s (if s.l1 core line ≥ 2 then
      setL1 core line 4 (if s.dieLine d line = 4 then s else setDieLine d line 4 (dirtyLine line s))
      else fillL1 core line 4 (capCores d line 0 (dieOwn (.l1 core) d line s))) := by
  split
  · refine OnlyCaches.trans ?_ (onlyCaches_setL1 ..)
    split
    · exact .refl _
    · exact (onlyCaches_dirtyLine ..).trans (onlyCaches_setDieLine ..)
  · exact ((onlyCaches_dieOwn ..).trans (onlyCaches_capCores ..)).trans (onlyCaches_fillL1 ..)

theorem onlyCaches_coreOwn (core line : Nat) (s : State) : OnlyCaches s (coreOwn core line s) := by
  unfold coreOwn
  by_cases h : s.poolHit core line
  · simp only [h, if_true]
    exact (onlyCaches_takeBack ..).trans (onlyCaches_ownL1 ..)
  · simp only [h]
    exact onlyCaches_ownL1 ..

theorem onlyCaches_bankUsed (v : Via) (p : Nat) (s : State) : OnlyCaches s (bankUsed v p s) := by
  unfold bankUsed
  split
  · exact onlyCaches_useLinks ..
  · exact .refl s

/-- What a read does before it reads: caches alone change (R270, R349). -/
theorem onlyCaches_lineRead (v : Via) (ch p : Nat) (s : State) : OnlyCaches s (lineRead v ch p s) := by
  unfold lineRead
  split
  · split
    · exact onlyCaches_coreRead ..
    · exact onlyCaches_dieRead ..
    · exact onlyCaches_dieRead ..
    · exact .refl s
    · exact onlyCaches_homePeek ..
  · exact onlyCaches_bankUsed ..

/-- What a write does before it writes: caches alone change (R270, R272, R349). -/
theorem onlyCaches_lineWritten (v : Via) (p : Nat) (s : State) : OnlyCaches s (lineWritten v p s) := by
  unfold lineWritten
  split
  · split
    · exact onlyCaches_coreOwn ..
    · exact onlyCaches_dieOwn ..
    · exact onlyCaches_dieOwn ..
    · exact .refl s
    · exact onlyCaches_homeWrite ..
  · exact onlyCaches_bankUsed ..

end Sys2Proof.Machine
end

