-- ==== Sys2Proof/Laws/Encode.lean ====
section
/-!
SUPPORT. Laws of the encoding: fields of a word put together and taken apart again.
-/

namespace Sys2Proof

/-! ### Bits of two words joined -/

theorem ext_hi {w v : Nat} (x : BitVec w) (y : BitVec v) (st len : Nat) (h : v ≤ st) :
    (x ++ y).extractLsb' st len = x.extractLsb' (st - v) len := by
  ext i hi
  simp only [BitVec.getElem_extractLsb', BitVec.getLsbD_append]
  rw [if_neg (by omega)]; congr 1; omega

theorem ext_lo {w v : Nat} (x : BitVec w) (y : BitVec v) (st len : Nat) (h : st + len ≤ v) :
    (x ++ y).extractLsb' st len = y.extractLsb' st len := by
  ext i hi
  simp only [BitVec.getElem_extractLsb', BitVec.getLsbD_append]
  rw [if_pos (by omega)]

theorem ext_self {w : Nat} (x : BitVec w) : x.extractLsb' 0 w = x := by
  ext i hi; simp

/-! ### Operand words packed and unpacked -/

theorem ShM.ofSh_toSh (o : ShM) : ShM.ofSh o.toSh = o := by
  cases o
  simp -index (disch := omega) only [ShM.ofSh, ShM.toSh, ext_hi, ext_lo, ext_self]

theorem LgM.ofLg_toLg (o : LgM) : LgM.ofLg o.toLg = o := by
  cases o
  simp -index (disch := omega) only [LgM.ofLg, LgM.toLg, ext_hi, ext_lo, ext_self]

theorem ExE.ofTail_tailBits (o : ExE) : ExE.ofTail o.toLow o.tailBits = o := by
  cases o
  simp -index (disch := omega) only [ExE.ofTail, ExE.tailBits, ext_hi, ext_lo, ext_self]

theorem ExM.ofTail_tailBits (o : ExM) : ExM.ofTail o.toLow o.tailBits = o := by
  cases o
  simp -index (disch := omega) only [ExM.ofTail, ExM.tailBits, ext_hi, ext_lo, ext_self]

theorem ExC.ofTail_tailBits (o : ExC) : ExC.ofTail o.toLow o.tailBits = o := by
  cases o
  simp -index (disch := omega) only [ExC.ofTail, ExC.tailBits, ext_hi, ext_lo, ext_self]

theorem ExT.ofTail_tailBits (o : ExT) : ExT.ofTail o.toLow o.tailBits = o := rfl

/-! ### Words taken apart -/

theorem lowOf_word (hi : BitVec 64) (o : Low) (fn : BitVec 6) (opc : BitVec 8) (l : BitVec 2) :
    lowOf (hi ++ o.bits ++ fn ++ opc ++ l) = o := by
  cases o
  simp -index (disch := omega) only [lowOf, Low.bits, ext_hi, ext_lo, ext_self]

theorem takeApart_short (opc fn o) : takeApart (Raw.short opc fn o).word = some (.short opc fn o) := by
  simp -index (disch := omega) only [takeApart, Raw.word, ext_hi, ext_lo, ext_self]
  rfl

theorem takeApart_ext (opc fn o t) : takeApart (Raw.ext opc fn o t).word = some (.ext opc fn o t) := by
  simp -index (disch := omega) only [takeApart, Raw.word, ext_hi, ext_lo, ext_self, lowOf_word]
  rfl

theorem takeApart_long (opc fn o) : takeApart (Raw.long opc fn o).word = some (.long opc fn o) := by
  have h := lowOf_word ((0#32) ++ o.imm) o.toLow fn opc 1#2
  simp -index (disch := omega) only [takeApart, Raw.word, ext_hi, ext_lo, ext_self]
  rw [h]; rfl

theorem wf_parts (i : Instr) (r : Raw) (h : i.raw = some r) (hw : i.wf = true) : r.ok = true ∧ i.numberOK = true := by
  unfold Instr.wf at hw
  rw [h] at hw
  simpa using hw

end Sys2Proof
end

