-- ==== Sys2Proof/Laws/Issue.lean ====
section
/-!
SUPPORT. Laws of the issue of a word: the machine dispatches on the word taken apart, and runs the meaning of the
instruction that the decoder builds from it.
-/

namespace Sys2Proof.Machine

open Sys2Proof

/-- `mtsr` runs the meaning of the constructor of its register. -/
theorem runMtsr_eq (o : Sh) (s : State) : runMtsr o s = exec (mtsrOf o) s := by
  unfold runMtsr mtsrOf
  generalize o.imm.toNat % 256 = n
  split
  all_goals first | rfl | (simp only [*]; rfl)

/-- A short word that builds an instruction runs its meaning. -/
theorem runShort_eq (opc fn : Nat) (o : Sh) (i : Instr) (s : State) (h : buildShort opc fn o = some i) :
    runShort opc fn o s = exec i s := by
  unfold buildShort at h
  unfold runShort
  split at h
  all_goals first
    | (split at h <;> cases h <;> first | rfl | exact runMtsr_eq o s | (simp only [*]; rfl))
    | cases h

/-- A long word that builds an instruction runs its meaning. -/
theorem runLong_eq (opc fn : Nat) (o : Lg) (i : Instr) (s : State) (h : buildLong opc fn o = some i) :
    runLong opc fn o s = exec i s := by
  unfold buildLong at h
  unfold runLong
  split at h
  all_goals first
    | (split at h <;> cases h <;> first | rfl | (simp only [*]; rfl))
    | cases h

/-- An extended word that builds an instruction runs its meaning. -/
theorem runExt_eq (opc fn : Nat) (lo : Low) (t : BitVec 64) (i : Instr) (s : State) (h : buildExt opc fn lo t = some i) :
    runExt opc fn lo t s = exec i s := by
  unfold buildExt at h
  unfold runExt
  split at h
  all_goals first
    | (split at h <;> cases h <;> first | rfl | (by_cases ht : (t == 1) = true <;> simp only [ht] <;> rfl))
    | cases h

/-- A word taken apart runs the meaning of what it builds. -/
theorem runRaw_eq (r : Raw) (i : Instr) (s : State) (h : build r = some i) : runRaw r s = exec i s := by
  cases r with
  | short opc fn o => exact runShort_eq _ _ o i s h
  | long opc fn o => exact runLong_eq _ _ o i s h
  | ext opc fn lo t => exact runExt_eq _ _ lo t i s h

/-- A word in one fetch block that decodes runs the meaning of its instruction. -/
theorem issueWord_eq (w : BitVec 128) (i : Instr) (s : State) (hs : straddles (s.ctx s.cur).pc w = false)
    (h : decode w = .instr i) : issueWord w s = exec i { s with iw := w } := by
  unfold decode at h
  unfold issueWord
  have hs' : straddles (({ s with iw := w } : State).ctx s.cur).pc w = false := hs
  simp only [hs']
  split at h
  · cases h
  · rename_i r hr
    split at h
    · rename_i j hj
      cases h
      simp only [hr]
      exact runRaw_eq r i _ hj
    · cases h

end Sys2Proof.Machine
end

