-- ==== Sys2Proof/Laws/Memory.lean ====
section
/-!
SUPPORT. Laws of memory by place: reads after writes of one byte and of several, the bytes of a number, and the canonical
form, which every memory operation keeps.
-/

namespace Sys2Proof.Machine

open Sys2Proof

/-! ### Numbers as bytes -/

@[simp] theorem leBytes_length (n v : Nat) : (leBytes n v).length = n := by
  induction n generalizing v with
  | zero => rfl
  | succ n ih => simp [leBytes, ih]

/-- The bytes of a number give the number back, modulo what they can hold. -/
theorem leNat_leBytes (n v : Nat) : leNat (leBytes n v) = v % 2 ^ (8 * n) := by
  induction n generalizing v with
  | zero => simp [leBytes, leNat, Nat.mod_one]
  | succ n ih =>
    have h : 2 ^ (8 * (n + 1)) = 256 * 2 ^ (8 * n) := by rw [Nat.mul_add, Nat.pow_add]; omega
    simp only [leBytes, leNat, ih, BitVec.toNat_ofNat]
    rw [h, Nat.mod_mul]

theorem leNat_lt (bs : List Byte) : leNat bs < 2 ^ (8 * bs.length) := by
  induction bs with
  | nil => simp [leNat]
  | cons b bs ih =>
    have h : 2 ^ (8 * (b :: bs).length) = 256 * 2 ^ (8 * bs.length) := by
      rw [List.length_cons, Nat.mul_add, Nat.pow_add]; omega
    have hb := b.isLt
    simp only [leNat]
    rw [h]
    omega

/-! ### Reads after writes -/

@[simp] theorem bytes_length (s : State) (p n : Nat) : (s.bytes p n).length = n := by
  induction n generalizing p with
  | zero => rfl
  | succ n ih => simp [State.bytes, ih]

/-- Bytes outside a written run read as before. -/
theorem setBytes_byte_ne (s : State) (p q : Nat) (bs : List Byte) (h : q < p ∨ p + bs.length ≤ q) :
    (s.setBytes p bs).byte q = s.byte q := by
  induction bs generalizing s p with
  | nil => rfl
  | cons b bs ih =>
    simp only [State.setBytes]
    rw [ih (s.setByte p b) (p + 1) (by simp only [List.length_cons] at h; omega)]
    exact setByte_byte_ne s b (by simp only [List.length_cons] at h; omega)

/-- Bytes within a written run read as written. -/
theorem setBytes_byte (s : State) (p i : Nat) (bs : List Byte) (h : i < bs.length) :
    (s.setBytes p bs).byte (p + i) = bs[i] := by
  induction bs generalizing s p i with
  | nil => simp at h
  | cons b bs ih =>
    simp only [State.setBytes]
    cases i with
    | zero =>
      rw [setBytes_byte_ne _ _ _ _ (by omega)]
      simp
    | succ i =>
      have := ih (s.setByte p b) (p + 1) i (by simpa using h)
      rw [show p + 1 + i = p + (i + 1) by omega] at this
      simpa using this

/-- A run of bytes reads back. -/
theorem setBytes_bytes (s : State) (p : Nat) (bs : List Byte) : (s.setBytes p bs).bytes p bs.length = bs := by
  have key : ∀ (t : State) (q : Nat) (cs : List Byte), (∀ i (h : i < cs.length), t.byte (q + i) = cs[i]) →
      t.bytes q cs.length = cs := by
    intro t q cs
    induction cs generalizing q with
    | nil => intros; rfl
    | cons c cs ih =>
      intro h
      have h0 := h 0 (by simp)
      simp only [Nat.add_zero, List.getElem_cons_zero] at h0
      simp only [List.length_cons, State.bytes, h0]
      congr 1
      refine ih (q + 1) fun i hi => ?_
      have := h (i + 1) (by simpa using hi)
      rw [show q + 1 + i = q + (i + 1) by omega]
      simpa using this
  exact key _ _ _ fun i h => setBytes_byte s p i bs h

/-- A run of bytes elsewhere reads as before. -/
theorem setBytes_bytes_ne (s : State) (p q n : Nat) (bs : List Byte) (h : q + n ≤ p ∨ p + bs.length ≤ q) :
    (s.setBytes p bs).bytes q n = s.bytes q n := by
  induction n generalizing q with
  | zero => rfl
  | succ n ih =>
    simp only [State.bytes]
    rw [setBytes_byte_ne s p q bs (by omega), ih (q + 1) (by omega)]

/-- Writing bytes changes only memory and its marks. -/
theorem setBytes_rest (s : State) (p : Nat) (bs : List Byte) :
    s.setBytes p bs = { s with mem := (s.setBytes p bs).mem, marks := (s.setBytes p bs).marks } := by
  induction bs generalizing s p with
  | nil => rfl
  | cons b bs ih =>
    simp only [State.setBytes]
    rw [ih (s.setByte p b) (p + 1)]
    rfl

/-! ### The canonical form -/

theorem setByte_wf (s : State) (p : Nat) (b : Byte) (h : Memory.wf s.mem = true) :
    Memory.wf (s.setByte p b).mem = true := Tbl.wf_set _ _ _ _ h

theorem setByteMarked_wf (s : State) (p : Nat) (b : Byte) (m : Nat) (h : Memory.wf s.mem = true) :
    Memory.wf (s.setByteMarked p b m).mem = true := Tbl.wf_set _ _ _ _ h

theorem setBytes_wf (s : State) (p : Nat) (bs : List Byte) (h : Memory.wf s.mem = true) :
    Memory.wf (s.setBytes p bs).mem = true := by
  induction bs generalizing s p with
  | nil => exact h
  | cons b bs ih => exact ih _ _ (setByte_wf s p b h)

theorem setMarks_mem (s : State) (p : Nat) (ms : List Nat) : (State.setMarks s p ms).mem = s.mem := by
  induction ms generalizing s p with
  | nil => rfl
  | cons m ms ih => simp only [State.setMarks]; rw [ih]

/-- Memory right after reset is in canonical form. -/
theorem reset_mem_wf : Memory.wf State.reset.mem = true := rfl

/-- Equal memories are equal data: two canonical memories that read alike are the same list. -/
theorem mem_ext (m n : List Host.Cell) (hm : Memory.wf m = true) (hn : Memory.wf n = true)
    (h : ∀ p, Tbl.get unlisted m p = Tbl.get unlisted n p) : m = n := Tbl.ext_wf _ _ _ hm hn h

end Sys2Proof.Machine
end

