-- ==== Sys2Proof/Laws/Ops.lean ====
section
/-!
SUPPORT. Laws of the operations that meanings share: what the monad of meanings runs, when a source register can be read,
how an instruction that completes, traps or waits ends, and what taking a trap writes.
-/

namespace Sys2Proof.Machine

open Sys2Proof

/-! ### Running a meaning -/

theorem run_pure {α : Type} (a : α) (s : State) : (pure a : M α).run s = .ok a s := rfl

theorem run_bind_ok {α β : Type} {m : M α} {f : α → M β} {s t : State} {a : α} (h : m.run s = .ok a t) :
    (m >>= f).run s = (f a).run t := by
  show EStateM.bind m f s = f a t
  have h' : m s = .ok a t := h
  simp [EStateM.bind, h']

theorem run_bind_error {α β : Type} {m : M α} {f : α → M β} {s t : State} {e : Stop} (h : m.run s = .error e t) :
    (m >>= f).run s = .error e t := by
  show EStateM.bind m f s = .error e t
  have h' : m s = .error e t := h
  simp [EStateM.bind, h']

theorem run_get (s : State) : (get : M State).run s = .ok s s := rfl

theorem run_set (s t : State) : (set t : M PUnit).run s = .ok ⟨⟩ t := rfl

theorem run_modify (f : State → State) (s : State) : (modify f : M PUnit).run s = .ok ⟨⟩ (f s) := rfl

theorem run_throw {α : Type} (e : Stop) (s : State) : (throw e : M α).run s = .error e s := rfl

/-! ### Sources and destinations -/

theorem useX_run {s : State} {n : Nat} (h : Readable s n) : (useX n).run s = .ok ((s.ctx s.cur).xr n) s := by
  have hb : (useX n).run s = ((fun c : Ctx => if c.awaited n then heldAgain
      else if c.mark n != 0 then fault 23 (markSub (c.mark n) 1).toNat (markVal (c.mark n))
      else return c.xr n : Ctx → M Word) (s.ctx s.cur)).run s := rfl
  rw [hb]
  simp only [h.1, h.2]
  rfl

/-- A source that a vector instruction in flight will write makes the instruction wait (R141). -/
theorem useX_awaited {s : State} {n : Nat} (h : (s.ctx s.cur).awaited n = true) :
    (useX n).run s = .error (.hold .again false) s := by
  have hb : (useX n).run s = ((fun c : Ctx => if c.awaited n then heldAgain
      else if c.mark n != 0 then fault 23 (markSub (c.mark n) 1).toNat (markVal (c.mark n))
      else return c.xr n : Ctx → M Word) (s.ctx s.cur)).run s := rfl
  rw [hb]
  simp only [h, if_true]
  rfl

/-- Register 0 can always be read. -/
theorem readable_zero (s : State) : Readable s 0 := ⟨by simp [Ctx.awaited], rfl⟩

theorem writeX_run (rd : BitVec 6) (v : Word) (s : State) :
    (writeX rd v).run s = .ok ⟨⟩ (s.modCtx s.cur (·.setX rd.toNat v)) := rfl

theorem modCur_run (f : Ctx → Ctx) (s : State) : (modCur f).run s = .ok ⟨⟩ (s.modCtx s.cur f) := rfl

theorem curCtx_run (s : State) : curCtx.run s = .ok (s.ctx s.cur) s := rfl

theorem nextPc_run (len : Nat) (s : State) : (nextPc len).run s = .ok ((s.ctx s.cur).pc + BitVec.ofNat 57 len) s := rfl

theorem readable_clearNotes {s : State} {n : Nat} (h : Readable s n) : Readable (clearNotes s) n := h

theorem issueCheck_run {s : State} (h : Issues s) : issueCheck.run s = .ok ⟨⟩ s := by
  unfold issueCheck
  rw [run_bind_ok (run_get s)]
  simp only [h.1, h.2.1]
  rfl

theorem issues_clearNotes {s : State} (h : Issues s) : Issues (clearNotes s) := h

/-- A guard that can be read. -/
theorem guardOn_run {s : State} {g : BitVec 4} (h : GuardReadable s g) : (guardOn g).run s = .ok (guardTrue s g) s := by
  by_cases hg : g = 0
  · subst hg; rfl
  · unfold guardOn
    rw [if_neg hg]
    have hb : (g == 0) = false := by simpa using hg
    show ((useX (guardReg g) >>= fun w => pure (w.getLsbD 0 == decide (g.toNat < 8)) : M Bool)).run s = _
    rw [run_bind_ok (useX_run (h hg)), run_pure]
    simp only [guardTrue, hb, Bool.false_or]

/-! ### How an instruction ends -/

theorem boundary_quiet (key : Nat) (pc : Va) (t : State) (ha : t.after = none) (hw : t.watch = none)
    (hf : (t.ctx key).fetched = none) : boundary key pc t = t := by
  have hn : clearNotes t = t := by
    cases t
    simp only at ha hw
    subst ha; subst hw
    rfl
  unfold boundary
  simp only [ha, hw, hf, firstHit, hn, Option.map_none, Option.isSome_none, Bool.false_eq_true, if_false]

/-- A meaning that completes without a trap of its own. -/
theorem outcome_ok {m : M Unit} {s t : State} (h : m.run (clearNotes s) = .ok ⟨⟩ t) (ha : t.after = none)
    (hw : t.watch = none) (hf : (t.ctx s.cur).fetched = none) : outcome m s = .next t := by
  unfold outcome
  simp only [h, boundary_quiet _ _ t ha hw hf]

/-- A meaning that traps. -/
theorem outcome_trap {m : M Unit} {s t : State} {f : Trap} (h : m.run (clearNotes s) = .error (.trap f) t) :
    outcome m s = .next (takeTrap s.cur s.pc s.pc f (clearNotes t)) := by
  unfold outcome
  simp only [h]
  rfl

/-- A meaning that waits. -/
theorem outcome_hold {m : M Unit} {s t : State} {w : Wait} {sl : Bool} (h : m.run (clearNotes s) = .error (.hold w sl) t) :
    outcome m s = .next (park s.cur w sl t) := by
  unfold outcome
  simp only [h]

theorem complete_after (pc : Va) (y : Bool) (d : Nat) (s : State) : (complete pc y d s).after = s.after := rfl

theorem complete_watch (pc : Va) (y : Bool) (d : Nat) (s : State) : (complete pc y d s).watch = s.watch := rfl

@[simp] theorem rest_fetched (c : Ctx) (y : Bool) (d : Nat) : (c.rest y d).fetched = c.fetched := by
  unfold Ctx.rest; split <;> (try rfl); split <;> (try rfl); split <;> rfl

/-- Completing leaves the note of the fetch as it stands. -/
theorem complete_fetched (pc : Va) (y : Bool) (d k : Nat) (s : State) :
    ((complete pc y d s).ctx k).fetched = (s.ctx k).fetched := by
  by_cases h : k = s.cur
  · subst h
    unfold complete
    rw [modCtx_ctx_self]
    split
    · rw [rest_fetched]; rfl
    · rfl
  · unfold complete
    rw [modCtx_ctx_ne _ _ h]

/-- The frame of an instruction that issues and whose body completes. -/
theorem instr_ok {y : Bool} {d : Nat} {body : M Va} {s t : State} {pc : Va} (hi : Issues s)
    (h : body.run (clearNotes s) = .ok pc t) : (instr y d body).run (clearNotes s) = .ok ⟨⟩ (complete pc y d t) := by
  unfold instr
  rw [run_bind_ok (issueCheck_run (issues_clearNotes hi)), run_bind_ok h, run_modify]

/-- A scalar instruction that issues and whose body completes goes on to the next one. -/
theorem scalar_ok {len : Nat} {y : Bool} {d : Nat} {body : M Unit} {s t : State} (hi : Issues s)
    (h : body.run (clearNotes s) = .ok ⟨⟩ t) (ha : t.after = none) (hw : t.watch = none)
    (hf : (t.ctx s.cur).fetched = none) :
    scalar len y d body s = .next (complete ((t.ctx t.cur).pc + BitVec.ofNat 57 len) y d t) := by
  unfold scalar
  refine outcome_ok (instr_ok hi ?_) ha hw ((complete_fetched ..).trans hf)
  rw [run_bind_ok h, nextPc_run]

/-- A scalar instruction whose body traps. -/
theorem scalar_trap {len : Nat} {y : Bool} {d : Nat} {body : M Unit} {s t : State} {f : Trap} (hi : Issues s)
    (h : body.run (clearNotes s) = .error (.trap f) t) :
    scalar len y d body s = .next (takeTrap s.cur s.pc s.pc f (clearNotes t)) := by
  unfold scalar
  refine outcome_trap ?_
  unfold instr
  rw [run_bind_ok (issueCheck_run (issues_clearNotes hi)), run_bind_error]
  exact run_bind_error h

/-- A scalar instruction whose body waits. -/
theorem scalar_hold {len : Nat} {y : Bool} {d : Nat} {body : M Unit} {s t : State} {w : Wait} {sl : Bool} (hi : Issues s)
    (h : body.run (clearNotes s) = .error (.hold w sl) t) : scalar len y d body s = .next (park s.cur w sl t) := by
  unfold scalar
  refine outcome_hold ?_
  unfold instr
  rw [run_bind_ok (issueCheck_run (issues_clearNotes hi)), run_bind_error]
  exact run_bind_error h

/-- A change of a context that leaves the pc and the note of the fetch. -/
def Stays (f : Ctx → Ctx) (c : Ctx) : Prop := (f c).pc = c.pc ∧ (f c).fetched = c.fetched

/-- A scalar instruction whose body changes only the current context. -/
theorem scalar_ends {len : Nat} {y : Bool} {d : Nat} {body : M Unit} {s : State} {f : Ctx → Ctx} (hi : Issues s)
    (h : body.run (clearNotes s) = .ok ⟨⟩ ((clearNotes s).modCtx s.cur f)) (hp : Stays f (s.ctx s.cur)) :
    scalar len y d body s = .next (s.ends len y d f) := by
  have hf : (((clearNotes s).modCtx s.cur f).ctx s.cur).fetched = none := by
    rw [modCtx_ctx_self, clearNotes_ctx, hp.2, hi.2.2]
  rw [scalar_ok hi h rfl rfl hf]
  have : (((clearNotes s).modCtx s.cur f).ctx ((clearNotes s).modCtx s.cur f).cur).pc = s.pc := by
    rw [modCtx_cur, clearNotes_cur, modCtx_ctx_self, clearNotes_ctx, hp.1]; rfl
  rw [this]
  rfl

/-- A jump whose body changes only the current context. -/
theorem jump_goesTo {body : M Va} {s : State} {f : Ctx → Ctx} {pc : Va} (hi : Issues s)
    (h : body.run (clearNotes s) = .ok pc ((clearNotes s).modCtx s.cur f)) (hp : (f (s.ctx s.cur)).fetched = none) :
    jump body s = .next (s.goesTo pc f) := by
  unfold jump
  refine outcome_ok (instr_ok hi h) rfl rfl ((complete_fetched ..).trans ?_)
  rw [modCtx_ctx_self, clearNotes_ctx, hp]

@[simp] theorem setX_pc (c : Ctx) (n : Nat) (v : Word) : (c.setX n v).pc = c.pc := by
  unfold Ctx.setX; split <;> rfl

@[simp] theorem setX_fetched (c : Ctx) (n : Nat) (v : Word) : (c.setX n v).fetched = c.fetched := by
  unfold Ctx.setX; split <;> rfl

theorem setX_stays (n : Nat) (v : Word) (c : Ctx) : Stays (·.setX n v) c := ⟨setX_pc c n v, setX_fetched c n v⟩

@[simp] theorem orFlags_pc (c : Ctx) (f : Flags) : (c.orFlags f).pc = c.pc := rfl

/-- The identity on the current context is no change, where the context is not an empty slot. -/
theorem mayIssue_live {s : State} (h : s.mayIssue s.cur = true) : (s.ctx s.cur).live = true := by
  unfold State.mayIssue at h
  simp only [Bool.and_eq_true, Bool.or_eq_true, beq_iff_eq] at h
  rcases h.1.1.1.1 with h | ⟨h | h, -⟩ <;> simp [Ctx.live, h]

/-! ### Events -/

theorem event_ok {m : M Unit} {s t : State} (h : m.run s = .ok ⟨⟩ t) : event m s = .next t := by
  unfold event; simp only [h]

theorem enabled_run {b : Bool} {s : State} (h : b = true) : (enabled b).run s = .ok ⟨⟩ s := by subst h; rfl

theorem event_enabled {b : Bool} {s : State} {f : State → State} (h : b = true) :
    event (do enabled b; modify f) s = .next (f s) := by
  refine event_ok ?_
  rw [run_bind_ok (enabled_run h), run_modify]

/-! ### No answer is a fault -/

theorem outcome_ne_fault (m : M Unit) (s : State) (f : Fault) : outcome m s ≠ .fault f := by
  unfold outcome
  split <;> simp

theorem event_ne_fault (m : M Unit) (s : State) (f : Fault) : event m s ≠ .fault f := by
  unfold event
  split <;> simp

/-! ### Taking a trap -/

/-- What the context of a trap holds after TrapEntry, where the trap removes no lanes (R27). -/
theorem enterTrap_ctx (key : Nat) (epc : Va) (t : Trap) (s : State) (hv : s.vs key = false) :
    (enterTrap key epc t s).ctx key =
      { (s.ctx key) with
        esr := s.srOf key, epc := epc &&& ~~~3#57, ecause := causeWord (s.ctx key).inUpdate t, etval := t.val
        sr := setField ((s.ctx key).sr &&& ~~~1#64) 10 2 1
        pc := ((s.core (coreOfKey key)).tvec &&& ~~~63#64).setWidth 57
        st := (s.ctx key).wake.st, saved := (s.ctx key).wake.saved, wait := .none, fetched := none } := by
  unfold enterTrap
  simp only [hv, Bool.false_eq_true, if_false]
  cases (s.ctx key).inUpdate with
  | true => rw [if_pos rfl]; exact Tbl.get_set_self _ _ _ _
  | false => rw [if_neg Bool.false_ne_true]; exact Tbl.get_set_self _ _ _ _

end Sys2Proof.Machine
end

