-- ==== Sys2Proof/Laws/Scalar.lean ====
section
/-!
SUPPORT. Laws of the forms that scalar instructions share: with sources that can be read, each ends with its result
written and nothing else changed, and a guarded form that its guard disables ends with nothing changed.
-/

namespace Sys2Proof.Machine

open Sys2Proof

theorem regForm_ends {f : Word → Word → Word} {o : Sh} {s : State} (hi : Issues s) (h1 : Readable s o.rs1.toNat)
    (h2 : Readable s o.rs2.toNat) :
    regForm f o s = .next (s.ends 8 false 0 (·.setX o.rd.toNat (f (s.x o.rs1) (s.x o.rs2)))) := by
  refine scalar_ends hi ?_ (setX_stays _ _ _)
  rw [run_bind_ok (useX_run (readable_clearNotes h1))]
  unfold regOperand
  rw [run_bind_ok (useX_run (readable_clearNotes h2))]
  rfl

theorem immForm_ends {f : Word → Word → Word} {o : Sh} {s : State} (hi : Issues s) (h1 : Readable s o.rs1.toNat) :
    immForm f o s = .next (s.ends 8 false 0 (·.setX o.rd.toNat (f (s.x o.rs1) (immX o.imm)))) := by
  refine scalar_ends hi ?_ (setX_stays _ _ _)
  rw [run_bind_ok (useX_run (readable_clearNotes h1))]
  rfl

theorem unForm_ends {f : Word → Word} {o : Sh} {s : State} (hi : Issues s) (h1 : Readable s o.rs1.toNat) :
    unForm f o s = .next (s.ends 8 false 0 (·.setX o.rd.toNat (f (s.x o.rs1)))) := by
  refine scalar_ends hi ?_ (setX_stays _ _ _)
  rw [run_bind_ok (useX_run (readable_clearNotes h1))]
  rfl

/-- Changing the current context by nothing and then completing is completing. -/
theorem ends_id (s : State) (len : Nat) (y : Bool) (d : Nat) :
    s.ends len y d (fun c => c) = complete (s.pc + BitVec.ofNat 57 len) y d (clearNotes s) := by
  unfold State.ends complete
  simp only [modCtx_cur, clearNotes_cur, modCtx_modCtx]
  rfl

/-- A long-form instruction whose body changes only the current context. -/
theorem longI_ends {o : Low} {body : M Unit} {s : State} {f : Ctx → Ctx} (hi : Issues s)
    (h : body.run (clearNotes s) = .ok ⟨⟩ ((clearNotes s).modCtx s.cur f)) (hp : Stays f (s.ctx s.cur)) :
    longI o body s = .next (s.endsLong o f) := scalar_ends hi h hp

/-- A long-form instruction whose body changes nothing. -/
theorem longI_nothing {o : Low} {body : M Unit} {s : State} (hi : Issues s)
    (h : body.run (clearNotes s) = .ok ⟨⟩ (clearNotes s)) : longI o body s = .next (s.endsLong o fun c => c) := by
  unfold longI State.endsLong
  rw [scalar_ok hi h rfl rfl hi.2.2, ends_id]
  rfl

/-- The body of a guarded instruction runs under a guard that enables it. -/
theorem guard_on {g : BitVec 4} {s : State} {body : M Unit} (h : GuardReadable s g) (hg : guardTrue s g = true) :
    (do if ← guardOn g then body : M Unit).run (clearNotes s) = body.run (clearNotes s) := by
  rw [run_bind_ok (guardOn_run (s := clearNotes s) h)]
  have : guardTrue (clearNotes s) g = true := hg
  simp only [this, if_true]

/-- Under a guard that disables it, it does not. -/
theorem guard_off {g : BitVec 4} {s : State} {body : M Unit} (h : GuardReadable s g) (hg : guardTrue s g = false) :
    (do if ← guardOn g then body : M Unit).run (clearNotes s) = .ok ⟨⟩ (clearNotes s) := by
  rw [run_bind_ok (guardOn_run (s := clearNotes s) h)]
  have : guardTrue (clearNotes s) g = false := hg
  simp only [this]
  rfl

/-- A guarded instruction whose body changes only the current context. -/
theorem guarded_ends {o : Lg} {body : M Unit} {s : State} {f : Ctx → Ctx} (hi : Issues s) (h : GuardReadable s o.g1)
    (hb : guardTrue s o.g1 = true → body.run (clearNotes s) = .ok ⟨⟩ ((clearNotes s).modCtx s.cur f))
    (hp : Stays f (s.ctx s.cur)) :
    longI o.toLow (do if ← guardOn o.g1 then body) s =
      .next (s.endsLong o.toLow fun c => if guardTrue s o.g1 then f c else c) := by
  cases hg : guardTrue s o.g1 with
  | true =>
    refine longI_ends hi ?_ ?_
    · rw [guard_on h hg, hb hg]; rfl
    · simpa [Stays] using hp
  | false =>
    rw [longI_nothing hi (guard_off h hg)]
    rfl

theorem guardedReg_ends {f : Word → Word → Word} {o : Lg} {s : State} (hi : Issues s) (h : GuardReadable s o.g1)
    (hs : guardTrue s o.g1 = true → Readable s o.a.toNat ∧ Readable s o.b.toNat) :
    guardedReg f o s = .next (s.endsLong o.toLow fun c =>
      if guardTrue s o.g1 then c.setX o.d.toNat (f (s.x o.a) (s.x o.b)) else c) := by
  refine guarded_ends hi h (fun hg => ?_) (setX_stays _ _ _)
  obtain ⟨ha, hb⟩ := hs hg
  rw [run_bind_ok (useX_run (readable_clearNotes ha)), run_bind_ok (useX_run (readable_clearNotes hb))]
  rfl

theorem guardedImm_ends {f : Word → Word → Word} {o : Lg} {s : State} (hi : Issues s) (h : GuardReadable s o.g1)
    (hs : guardTrue s o.g1 = true → Readable s o.a.toNat) :
    guardedImm f o s = .next (s.endsLong o.toLow fun c =>
      if guardTrue s o.g1 then c.setX o.d.toNat (f (s.x o.a) (immX o.imm)) else c) := by
  refine guarded_ends hi h (fun hg => ?_) (setX_stays _ _ _)
  rw [run_bind_ok (useX_run (readable_clearNotes (hs hg)))]
  rfl

/-- A result and its flags delivered to an x register. -/
theorem deliverX_run (rd : BitVec 6) (r : Nat × Flags) (s : State) :
    (deliverX rd r).run s =
      .ok ⟨⟩ ((s.modCtx s.cur (·.orFlags r.2)).modCtx s.cur (·.setX rd.toNat (BitVec.ofNat 64 r.1))) := rfl

theorem fp2_ends {fm : Fmt} {op : Nat → Nat → Nat × Flags} {o : Sh} {s : State} (hi : Issues s)
    (h1 : Readable s o.rs1.toNat) (h2 : Readable s o.rs2.toNat) :
    fp2 fm op o s = .next (s.ends 8 false 0 fun c =>
      (c.orFlags (op (fpIn fm (s.x o.rs1)) (fpIn fm (s.x o.rs2))).2).setX o.rd.toNat
        (BitVec.ofNat 64 (op (fpIn fm (s.x o.rs1)) (fpIn fm (s.x o.rs2))).1)) := by
  refine scalar_ends hi ?_ ⟨by rw [setX_pc]; rfl, by rw [setX_fetched]; rfl⟩
  rw [run_bind_ok (useX_run (readable_clearNotes h1)), run_bind_ok (useX_run (readable_clearNotes h2)), deliverX_run]
  simp only [clearNotes_cur, modCtx_modCtx]
  rfl

theorem cvtForm_ends {op : Word → Nat × Flags} {o : Sh} {s : State} (hi : Issues s) (h1 : Readable s o.rs1.toNat) :
    cvtForm op o s = .next (s.ends 8 false 0 fun c =>
      (c.orFlags (op (s.x o.rs1)).2).setX o.rd.toNat (BitVec.ofNat 64 (op (s.x o.rs1)).1)) := by
  refine scalar_ends hi ?_ ⟨by rw [setX_pc]; rfl, by rw [setX_fetched]; rfl⟩
  rw [run_bind_ok (useX_run (readable_clearNotes h1)), deliverX_run]
  simp only [clearNotes_cur, modCtx_modCtx]
  rfl

theorem fp1_ends {fm : Fmt} {op : Nat → Nat × Flags} {o : Sh} {s : State} (hi : Issues s) (h1 : Readable s o.rs1.toNat) :
    fp1 fm op o s = .next (s.ends 8 false 0 fun c =>
      (c.orFlags (op (fpIn fm (s.x o.rs1))).2).setX o.rd.toNat (BitVec.ofNat 64 (op (fpIn fm (s.x o.rs1))).1)) :=
  cvtForm_ends (op := fun w => op (fpIn fm w)) hi h1

theorem branch_goesTo {rel : Word → Word → Bool} {o : Sh} {s : State} (hi : Issues s) (h1 : Readable s o.rs1.toNat)
    (h2 : Readable s o.rs2.toNat) :
    branch rel o s = .next (s.goesTo (if rel (s.x o.rs1) (s.x o.rs2) then relTarget s.pc o.imm else s.pc + 8) id) := by
  refine (outcome_ok (instr_ok (pc := if rel (s.x o.rs1) (s.x o.rs2) then relTarget s.pc o.imm else s.pc + 8)
    (t := clearNotes s) hi ?_) rfl rfl ((complete_fetched ..).trans hi.2.2)).trans ?_
  · rw [run_bind_ok (useX_run (readable_clearNotes h1)), run_bind_ok (useX_run (readable_clearNotes h2))]
    rfl
  · unfold State.goesTo complete
    simp only [modCtx_cur, clearNotes_cur, modCtx_modCtx]
    rfl

end Sys2Proof.Machine
end

