-- ==== Sys2Proof/Machine/Assembler.lean ====
section
/-!
DEFINITION. What the assembler computes (04 R102, R105, R108, R110): the values of its expressions, the instructions of
its aliases, where it places instructions, and what its relocations write. No meaning rests on it.
-/

namespace Sys2Proof.Machine

open Sys2Proof

/-! ### Expressions -/

/-- The operators of two operands (R102). -/
inductive AsmOp where
  | mul
  | div
  | rem
  | add
  | sub
  | shl
  | shr
  | and
  | xor
  | or
  deriving DecidableEq, Repr

/-- How tightly an operator binds, 1 the tightest below the unary ones (R102). -/
def AsmOp.level : AsmOp → Nat
  | .mul | .div | .rem => 2
  | .add | .sub => 3
  | .shl | .shr => 4
  | .and => 5
  | .xor => 6
  | .or => 7

/-- The value of an operator, none where it is an error (R102). -/
def AsmOp.value : AsmOp → Word → Word → Option Word
  | .mul, a, b => some (a * b)
  | .div, a, b => if b = 0 then none else some (a.sdiv b)
  | .rem, a, b => if b = 0 then none else some (a.srem b)
  | .add, a, b => some (a + b)
  | .sub, a, b => some (a - b)
  | .shl, a, b => some (if b.toNat < 64 then a <<< b.toNat else 0)
  | .shr, a, b => some (if b.toNat < 64 then a >>> b.toNat else 0)
  | .and, a, b => some (a &&& b)
  | .xor, a, b => some (a ^^^ b)
  | .or, a, b => some (a ||| b)

/-- An expression once it is parsed (R102): `here` is the address of the statement (DESIGN CHOICE, log entry 54). -/
inductive AsmExpr where
  | here
  | const (v : Word)
  | neg (e : AsmExpr)
  | not (e : AsmExpr)
  | bin (op : AsmOp) (a b : AsmExpr)
  deriving DecidableEq, Repr

/-- The value of an expression in the statement at an address (R102). -/
def AsmExpr.value (addr : Word) : AsmExpr → Option Word
  | .here => some addr
  | .const v => some v
  | .neg e => (e.value addr).map (0 - ·)
  | .not e => (e.value addr).map (~~~ ·)
  | .bin op a b => (a.value addr).bind fun x => (b.value addr).bind fun y => op.value x y

/-! ### Aliases -/

/-- The aliases of R105. -/
inductive AsmAlias where
  | mov (d s : BitVec 6)
  | movImm (d : BitVec 6) (v : Word)
  | neg (d s : BitVec 6)
  | not (d s : BitVec 6)
  | call (disp : BitVec 32)
  | ret
  deriving DecidableEq, Repr

/-- The instructions that an alias is emitted as (R105) (DESIGN CHOICE, log entry 54). -/
noncomputable def AsmAlias.emit : AsmAlias → List Instr
  | .mov d s => [.or ⟨d, s, 0, 0⟩]
  | .movImm d v =>
    if -2 ^ 31 ≤ v.toInt ∧ v.toInt < 2 ^ 31 then [.addImm ⟨d, 0, 0, v.extractLsb' 0 32⟩]
    else [.movl ⟨d, 0, 0, v.extractLsb' 0 32⟩, .movh ⟨d, 0, 0, v.extractLsb' 32 32⟩]
  | .neg d s => [.sub ⟨d, 0, s, 0⟩]
  | .not d s => [.xorImm ⟨d, s, 0, -1⟩]
  | .call disp => [.call ⟨30, 0, 0, disp⟩]
  | .ret => [.jr ⟨0, 30, 0, 0⟩]

/-! ### Placement -/

/-- What lies in a kernel (R108): a unit by the sizes of its members, a short nop, a 96-bit nop. -/
inductive AsmItem where
  | unit (sizes : List Nat)
  | nop
  | longNop
  deriving DecidableEq, Repr

/-- The bytes of an item. -/
def AsmItem.size : AsmItem → Nat
  | .unit l => l.sum
  | .nop => 8
  | .longNop => 12

/-- The bytes placed so far, the last item first. -/
def asmEnd (items : List AsmItem) : Nat := (items.map AsmItem.size).sum

/-- A unit fits at a place where no member straddles a fetch block of 32 bytes (R79, R108). -/
def asmFits : Nat → List Nat → Bool
  | _, [] => true
  | o, n :: l => o % 32 + n ≤ 32 && asmFits (o + n) l

/-- Fill(p) of R108. -/
def asmFill (p : Nat) (items : List AsmItem) : List AsmItem :=
  if p % 8 = 4 then List.replicate ((p - 12) / 8) AsmItem.nop ++ .longNop :: items
  else List.replicate (p / 8) AsmItem.nop ++ items

/-- Place(u) of R108 where no gap of 4 bytes is met, as in its second call. -/
def asmPlaceNext (u : List Nat) (items : List AsmItem) : List AsmItem :=
  if asmFits (asmEnd items) u then .unit u :: items
  else .unit u :: asmFill (32 - asmEnd items % 32) items

/-- The unit that ends 4 bytes before a fetch block moves to that block (R108). -/
def asmTakeBack : List AsmItem → List AsmItem
  | [] => []
  | w :: items => w :: asmFill (32 - asmEnd items % 32) items

/-- Place(u) of R108: a gap of 4 bytes cannot be filled, and takes the unit before it along. -/
def asmPlace (u : List Nat) (items : List AsmItem) : List AsmItem :=
  if asmFits (asmEnd items) u then .unit u :: items
  else if asmEnd items % 32 = 28 then asmPlaceNext u (asmTakeBack items)
  else .unit u :: asmFill (32 - asmEnd items % 32) items

/-- `.align n` in a kernel (R106, R108): to the next block, then whole blocks of four short nops. -/
def asmAlign (n : Nat) (items : List AsmItem) : List AsmItem :=
  let o := asmEnd items % 32
  let i := if o = 0 then items else if o = 28 then asmTakeBack items else items
  let o := asmEnd i % 32
  let i := if o = 0 then i else asmFill (32 - o) i
  List.replicate ((n - asmEnd i % n) % n / 32 * 4) AsmItem.nop ++ i

/-- The units of a kernel, placed in order from its start (R108) (DESIGN CHOICE, log entry 54). -/
def asmLayout (units : List (List Nat)) : List AsmItem := (units.foldl (fun i u => asmPlace u i) []).reverse

/-! ### Relocations -/

/-- What a relocation writes into its field, from the symbol's address, the addend and the address of the instruction;
none where it does not fit (R110) (DESIGN CHOICE, log entry 54). -/
def asmReloc (kind : Nat) (s a p : Word) : Option Word :=
  let v := s + a
  match kind with
  | 1 => some v
  | 2 =>
    let d := v - p
    if d.toNat % 4 = 0 ∧ -2 ^ 33 ≤ d.toInt ∧ d.toInt < 2 ^ 33 then some ((d.sshiftRight 2) &&& 0xFFFFFFFF) else none
  | 3 => some (v &&& 0xFFFFFFFF)
  | 4 => some (v >>> 32)
  | 5 => if v.toNat < 2 ^ 32 then some v else none
  | _ => none

end Sys2Proof.Machine
end

