-- ==== Sys2Proof/Tests/Slice0.lean ====
section
/-!
SUPPORT. Tests of the model against the spec: words decoded, ill-formed terms refused, worked examples, and a witness for
the hypotheses of each statement. Every expected value is taken from the spec, by hand.
-/

namespace Sys2Proof.Tests

open Sys2Proof Sys2Proof.Machine

set_option maxRecDepth 20000
set_option Elab.async false

/-- The words of the system instructions, the prefix and the lane claims (R95 majors 0x01 to 0x04, and the long no-operations), by the field positions of R81 to R89 and the maps of R95 to R97. -/
theorem test_decode_system :
    decode 0x4#128 = .instr (.nop { rd := 0, rs1 := 0, rs2 := 0, imm := 0 }) ∧
    decode 0x5#128 = .instr (.nopLong { d := 0, a := 0, b := 0, c := 0, e := 0, g1 := 0, g2 := 0, ty := 0, ch := 0, yld := 0, dly := 0, imm := 0 }) ∧
    decode 0x6#128 = .instr (.nopExt { d := 0, a := 0, b := 0, c := 0, e := 0, g1 := 0, g2 := 0, ty := 0, ch := 0, yld := 0, dly := 0, tail := 0 }) ∧
    decode 0x10000004#128 = .instr (.brk { rd := 0, rs1 := 0, rs2 := 0, imm := 0 }) ∧
    decode 0x720000004#128 = .instr (.trap { rd := 0, rs1 := 0, rs2 := 0, imm := 7 }) ∧
    decode 0x30000004#128 = .instr (.eret { rd := 0, rs1 := 0, rs2 := 0, imm := 0 }) ∧
    decode 0x40000004#128 = .instr (.hend { rd := 0, rs1 := 0, rs2 := 0, imm := 0 }) ∧
    decode 0xA0000004#128 = .instr (.kfence { rd := 0, rs1 := 0, rs2 := 0, imm := 0 }) ∧
    decode 0x150004404#128 = .instr (.mfsr { rd := 17, rs1 := 0, rs2 := 0, imm := 1 }) ∧
    decode 0x160030004#128 = .instr (.mtsr { rd := 0, rs1 := 3, rs2 := 0, imm := 1 }) ∧
    decode 0x60030004#128 = .instr (.mtsrSr { rd := 0, rs1 := 3, rs2 := 0, imm := 0 }) ∧
    decode 0x760030004#128 = .instr (.mtsrCsplit { rd := 0, rs1 := 3, rs2 := 0, imm := 7 }) ∧
    decode 0x860030004#128 = .instr (.mtsrVgrp { rd := 0, rs1 := 3, rs2 := 0, imm := 8 }) ∧
    decode 0xA60030004#128 = .instr (.mtsrMgstall { rd := 0, rs1 := 3, rs2 := 0, imm := 10 }) ∧
    decode 0x1160030004#128 = .instr (.mtsrDridx { rd := 0, rs1 := 3, rs2 := 0, imm := 17 }) ∧
    decode 0x1860030004#128 = .instr (.mtsrDrrpl { rd := 0, rs1 := 3, rs2 := 0, imm := 24 }) ∧
    decode 0x270002404#128 = .instr (.rid { rd := 9, rs1 := 0, rs2 := 0, imm := 2 }) ∧
    decode 0x80060004#128 = .instr (.hjoin { rd := 0, rs1 := 6, rs2 := 0, imm := 0 }) ∧
    decode 0x90061404#128 = .instr (.gaddr { rd := 5, rs1 := 6, rs2 := 0, imm := 0 }) ∧
    decode 0x400061408#128 = .instr (.hstart { rd := 5, rs1 := 6, rs2 := 0, imm := 4 }) ∧
    decode 0x410061408#128 = .instr (.hstartM { rd := 5, rs1 := 6, rs2 := 0, imm := 4 }) ∧
    decode 0x6140C#128 = .instr (.vclaim { rd := 5, rs1 := 6, rs2 := 0, imm := 0 }) ∧
    decode 0x1000140C#128 = .instr (.vrenew { rd := 5, rs1 := 0, rs2 := 0, imm := 0 }) ∧
    decode 0x320140010#128 = .instr (.fmt 2 { rd := 0, rs1 := 20, rs2 := 0, imm := 3 }) :=
  ⟨rfl, rfl, rfl, rfl, rfl, rfl, rfl, rfl, rfl, rfl, rfl, rfl, rfl, rfl, rfl, rfl, rfl, rfl, rfl, rfl, rfl, rfl, rfl, rfl⟩

/-- The words of the register forms of R115 and R116, by the field positions of R81 to R89 and the maps of R95 to R97. -/
theorem test_decode_alu_1 :
    decode 0x30B2820#128 = .instr (.add { rd := 10, rs1 := 11, rs2 := 12, imm := 0 }) ∧
    decode 0x130B2820#128 = .instr (.sub { rd := 10, rs1 := 11, rs2 := 12, imm := 0 }) ∧
    decode 0x230B2820#128 = .instr (.and { rd := 10, rs1 := 11, rs2 := 12, imm := 0 }) ∧
    decode 0x330B2820#128 = .instr (.or { rd := 10, rs1 := 11, rs2 := 12, imm := 0 }) ∧
    decode 0x430B2820#128 = .instr (.xor { rd := 10, rs1 := 11, rs2 := 12, imm := 0 }) ∧
    decode 0x530B2820#128 = .instr (.shl { rd := 10, rs1 := 11, rs2 := 12, imm := 0 }) ∧
    decode 0x630B2820#128 = .instr (.shr { rd := 10, rs1 := 11, rs2 := 12, imm := 0 }) ∧
    decode 0x730B2820#128 = .instr (.sra { rd := 10, rs1 := 11, rs2 := 12, imm := 0 }) ∧
    decode 0x830B2820#128 = .instr (.mul { rd := 10, rs1 := 11, rs2 := 12, imm := 0 }) ∧
    decode 0x930B2820#128 = .instr (.mulh { rd := 10, rs1 := 11, rs2 := 12, imm := 0 }) ∧
    decode 0xA30B2820#128 = .instr (.mulhu { rd := 10, rs1 := 11, rs2 := 12, imm := 0 }) ∧
    decode 0xB30B2820#128 = .instr (.div { rd := 10, rs1 := 11, rs2 := 12, imm := 0 }) ∧
    decode 0xC30B2820#128 = .instr (.divu { rd := 10, rs1 := 11, rs2 := 12, imm := 0 }) ∧
    decode 0xD30B2820#128 = .instr (.rem { rd := 10, rs1 := 11, rs2 := 12, imm := 0 }) ∧
    decode 0xE30B2820#128 = .instr (.remu { rd := 10, rs1 := 11, rs2 := 12, imm := 0 }) ∧
    decode 0xF30B2820#128 = .instr (.andn { rd := 10, rs1 := 11, rs2 := 12, imm := 0 }) ∧
    decode 0x30B2828#128 = .instr (.slt { rd := 10, rs1 := 11, rs2 := 12, imm := 0 }) ∧
    decode 0x130B2828#128 = .instr (.sltu { rd := 10, rs1 := 11, rs2 := 12, imm := 0 }) ∧
    decode 0x230B2828#128 = .instr (.min { rd := 10, rs1 := 11, rs2 := 12, imm := 0 }) ∧
    decode 0x330B2828#128 = .instr (.minu { rd := 10, rs1 := 11, rs2 := 12, imm := 0 }) ∧
    decode 0x430B2828#128 = .instr (.max { rd := 10, rs1 := 11, rs2 := 12, imm := 0 }) ∧
    decode 0x530B2828#128 = .instr (.maxu { rd := 10, rs1 := 11, rs2 := 12, imm := 0 }) ∧
    decode 0x630B2828#128 = .instr (.addSat { rd := 10, rs1 := 11, rs2 := 12, imm := 0 }) ∧
    decode 0x730B2828#128 = .instr (.subSat { rd := 10, rs1 := 11, rs2 := 12, imm := 0 }) :=
  ⟨rfl, rfl, rfl, rfl, rfl, rfl, rfl, rfl, rfl, rfl, rfl, rfl, rfl, rfl, rfl, rfl, rfl, rfl, rfl, rfl, rfl, rfl, rfl, rfl⟩

/-- The words of the register forms of R115 and R116, by the field positions of R81 to R89 and the maps of R95 to R97. -/
theorem test_decode_alu_2 :
    decode 0x830B2828#128 = .instr (.adduSat { rd := 10, rs1 := 11, rs2 := 12, imm := 0 }) ∧
    decode 0x930B2828#128 = .instr (.subuSat { rd := 10, rs1 := 11, rs2 := 12, imm := 0 }) ∧
    decode 0xA30B2828#128 = .instr (.mulSat { rd := 10, rs1 := 11, rs2 := 12, imm := 0 }) ∧
    decode 0xB30B2828#128 = .instr (.muluSat { rd := 10, rs1 := 11, rs2 := 12, imm := 0 }) ∧
    decode 0xC30B2828#128 = .instr (.rol { rd := 10, rs1 := 11, rs2 := 12, imm := 0 }) ∧
    decode 0xD30B2828#128 = .instr (.ror { rd := 10, rs1 := 11, rs2 := 12, imm := 0 }) :=
  ⟨rfl, rfl, rfl, rfl, rfl, rfl⟩

/-- The words of the immediate forms of R115 and R116, by the field positions of R81 to R89 and the maps of R95 to R97. -/
theorem test_decode_aluImm_1 :
    decode 0xFFFFFFFE000B2824#128 = .instr (.addImm { rd := 10, rs1 := 11, rs2 := 0, imm := 4294967294 }) ∧
    decode 0xFFFFFFFE100B2824#128 = .instr (.subImm { rd := 10, rs1 := 11, rs2 := 0, imm := 4294967294 }) ∧
    decode 0xFFFFFFFE200B2824#128 = .instr (.andImm { rd := 10, rs1 := 11, rs2 := 0, imm := 4294967294 }) ∧
    decode 0xFFFFFFFE300B2824#128 = .instr (.orImm { rd := 10, rs1 := 11, rs2 := 0, imm := 4294967294 }) ∧
    decode 0xFFFFFFFE400B2824#128 = .instr (.xorImm { rd := 10, rs1 := 11, rs2 := 0, imm := 4294967294 }) ∧
    decode 0x2A500B2824#128 = .instr (.shlImm { rd := 10, rs1 := 11, rs2 := 0, imm := 42 }) ∧
    decode 0x2A600B2824#128 = .instr (.shrImm { rd := 10, rs1 := 11, rs2 := 0, imm := 42 }) ∧
    decode 0x2A700B2824#128 = .instr (.sraImm { rd := 10, rs1 := 11, rs2 := 0, imm := 42 }) ∧
    decode 0xFFFFFFFE800B2824#128 = .instr (.mulImm { rd := 10, rs1 := 11, rs2 := 0, imm := 4294967294 }) ∧
    decode 0xFFFFFFFE900B2824#128 = .instr (.mulhImm { rd := 10, rs1 := 11, rs2 := 0, imm := 4294967294 }) ∧
    decode 0xFFFFFFFEA00B2824#128 = .instr (.mulhuImm { rd := 10, rs1 := 11, rs2 := 0, imm := 4294967294 }) ∧
    decode 0xFFFFFFFEB00B2824#128 = .instr (.divImm { rd := 10, rs1 := 11, rs2 := 0, imm := 4294967294 }) ∧
    decode 0xFFFFFFFEC00B2824#128 = .instr (.divuImm { rd := 10, rs1 := 11, rs2 := 0, imm := 4294967294 }) ∧
    decode 0xFFFFFFFED00B2824#128 = .instr (.remImm { rd := 10, rs1 := 11, rs2 := 0, imm := 4294967294 }) ∧
    decode 0xFFFFFFFEE00B2824#128 = .instr (.remuImm { rd := 10, rs1 := 11, rs2 := 0, imm := 4294967294 }) ∧
    decode 0xFFFFFFFEF00B2824#128 = .instr (.andnImm { rd := 10, rs1 := 11, rs2 := 0, imm := 4294967294 }) ∧
    decode 0xFFFFFFFE000B282C#128 = .instr (.sltImm { rd := 10, rs1 := 11, rs2 := 0, imm := 4294967294 }) ∧
    decode 0xFFFFFFFE100B282C#128 = .instr (.sltuImm { rd := 10, rs1 := 11, rs2 := 0, imm := 4294967294 }) ∧
    decode 0xFFFFFFFE200B282C#128 = .instr (.minImm { rd := 10, rs1 := 11, rs2 := 0, imm := 4294967294 }) ∧
    decode 0xFFFFFFFE300B282C#128 = .instr (.minuImm { rd := 10, rs1 := 11, rs2 := 0, imm := 4294967294 }) ∧
    decode 0xFFFFFFFE400B282C#128 = .instr (.maxImm { rd := 10, rs1 := 11, rs2 := 0, imm := 4294967294 }) ∧
    decode 0xFFFFFFFE500B282C#128 = .instr (.maxuImm { rd := 10, rs1 := 11, rs2 := 0, imm := 4294967294 }) ∧
    decode 0xFFFFFFFE600B282C#128 = .instr (.addSatImm { rd := 10, rs1 := 11, rs2 := 0, imm := 4294967294 }) ∧
    decode 0xFFFFFFFE700B282C#128 = .instr (.subSatImm { rd := 10, rs1 := 11, rs2 := 0, imm := 4294967294 }) :=
  ⟨rfl, rfl, rfl, rfl, rfl, rfl, rfl, rfl, rfl, rfl, rfl, rfl, rfl, rfl, rfl, rfl, rfl, rfl, rfl, rfl, rfl, rfl, rfl, rfl⟩

/-- The words of the immediate forms of R115 and R116, by the field positions of R81 to R89 and the maps of R95 to R97. -/
theorem test_decode_aluImm_2 :
    decode 0xFFFFFFFE800B282C#128 = .instr (.adduSatImm { rd := 10, rs1 := 11, rs2 := 0, imm := 4294967294 }) ∧
    decode 0xFFFFFFFE900B282C#128 = .instr (.subuSatImm { rd := 10, rs1 := 11, rs2 := 0, imm := 4294967294 }) ∧
    decode 0xFFFFFFFEA00B282C#128 = .instr (.mulSatImm { rd := 10, rs1 := 11, rs2 := 0, imm := 4294967294 }) ∧
    decode 0xFFFFFFFEB00B282C#128 = .instr (.muluSatImm { rd := 10, rs1 := 11, rs2 := 0, imm := 4294967294 }) ∧
    decode 0x2AC00B282C#128 = .instr (.rolImm { rd := 10, rs1 := 11, rs2 := 0, imm := 42 }) ∧
    decode 0x2AD00B282C#128 = .instr (.rorImm { rd := 10, rs1 := 11, rs2 := 0, imm := 42 }) :=
  ⟨rfl, rfl, rfl, rfl, rfl, rfl⟩

/-- The words of guarded and wide scalar forms (R96), by the field positions of R81 to R89 and the maps of R95 to R97. -/
theorem test_decode_guarded :
    decode 0x800071850409#128 = .instr (.guardedAluReg 1 { d := 5, a := 6, b := 7, c := 0, e := 0, g1 := 2, g2 := 0, ty := 0, ch := 0, yld := 0, dly := 0, imm := 0 }) ∧
    decode 0x4000280000185040D#128 = .instr (.guardedAluImm 1 { d := 5, a := 6, b := 0, c := 0, e := 0, g1 := 10, g2 := 0, ty := 0, ch := 0, yld := 0, dly := 0, imm := 4 }) ∧
    decode 0x800071850411#128 = .instr (.guardedAlu2Reg 1 { d := 5, a := 6, b := 7, c := 0, e := 0, g1 := 2, g2 := 0, ty := 0, ch := 0, yld := 0, dly := 0, imm := 0 }) ∧
    decode 0x40002800001850415#128 = .instr (.guardedAlu2Imm 1 { d := 5, a := 6, b := 0, c := 0, e := 0, g1 := 10, g2 := 0, ty := 0, ch := 0, yld := 0, dly := 0, imm := 4 }) ∧
    decode 0x400000800001850819#128 = .instr (.guardedLd 2 { d := 5, a := 6, b := 0, c := 0, e := 0, g1 := 2, g2 := 0, ty := 0, ch := 0, yld := 0, dly := 0, scp := 0, str := 0, off := 64 }) ∧
    decode 0x40000080007180081D#128 = .instr (.guardedSt 2 { d := 0, a := 6, b := 7, c := 0, e := 0, g1 := 2, g2 := 0, ty := 0, ch := 0, yld := 0, dly := 0, scp := 0, str := 0, off := 64 }) ∧
    decode 0x48002071850021#128 = .instr (.fma { d := 5, a := 6, b := 7, c := 8, e := 0, g1 := 0, g2 := 2, ty := 1, ch := 0, yld := 0, dly := 0, imm := 0 }) ∧
    decode 0x90071850421#128 = .instr (.mulWide { d := 5, a := 6, b := 7, c := 0, e := 9, g1 := 0, g2 := 0, ty := 0, ch := 0, yld := 0, dly := 0, imm := 0 }) ∧
    decode 0x90071850821#128 = .instr (.muluWide { d := 5, a := 6, b := 7, c := 0, e := 9, g1 := 0, g2 := 0, ty := 0, ch := 0, yld := 0, dly := 0, imm := 0 }) ∧
    decode 0xC400071850C21#128 = .instr (.csel { d := 5, a := 6, b := 7, c := 0, e := 0, g1 := 1, g2 := 3, ty := 0, ch := 0, yld := 0, dly := 0, imm := 0 }) :=
  ⟨rfl, rfl, rfl, rfl, rfl, rfl, rfl, rfl, rfl, rfl⟩

/-- The words of R117 to R119, by the field positions of R81 to R89 and the maps of R95 to R97. -/
theorem test_decode_unary :
    decode 0x20430#128 = .instr (.pop { rd := 1, rs1 := 2, rs2 := 0, imm := 0 }) ∧
    decode 0x10020430#128 = .instr (.clz { rd := 1, rs1 := 2, rs2 := 0, imm := 0 }) ∧
    decode 0x20020430#128 = .instr (.ctz { rd := 1, rs1 := 2, rs2 := 0, imm := 0 }) ∧
    decode 0x30020430#128 = .instr (.brev { rd := 1, rs1 := 2, rs2 := 0, imm := 0 }) ∧
    decode 0x40020430#128 = .instr (.bswap { rd := 1, rs1 := 2, rs2 := 0, imm := 0 }) ∧
    decode 0x50020430#128 = .instr (.sext8 { rd := 1, rs1 := 2, rs2 := 0, imm := 0 }) ∧
    decode 0x60020430#128 = .instr (.sext16 { rd := 1, rs1 := 2, rs2 := 0, imm := 0 }) ∧
    decode 0x70020430#128 = .instr (.sext32 { rd := 1, rs1 := 2, rs2 := 0, imm := 0 }) ∧
    decode 0x80020430#128 = .instr (.zext8 { rd := 1, rs1 := 2, rs2 := 0, imm := 0 }) ∧
    decode 0x90020430#128 = .instr (.zext16 { rd := 1, rs1 := 2, rs2 := 0, imm := 0 }) ∧
    decode 0xA0020430#128 = .instr (.zext32 { rd := 1, rs1 := 2, rs2 := 0, imm := 0 }) ∧
    decode 0x1C800020434#128 = .instr (.ext { rd := 1, rs1 := 2, rs2 := 0, imm := 456 }) ∧
    decode 0x1C810020434#128 = .instr (.extz { rd := 1, rs1 := 2, rs2 := 0, imm := 456 }) ∧
    decode 0x1C820020434#128 = .instr (.ins { rd := 1, rs1 := 2, rs2 := 0, imm := 456 }) ∧
    decode 0x90000000005038#128 = .instr (.movl { rd := 20, rs1 := 0, rs2 := 0, imm := 9437184 }) ∧
    decode 0x90000010005038#128 = .instr (.movh { rd := 20, rs1 := 0, rs2 := 0, imm := 9437184 }) :=
  ⟨rfl, rfl, rfl, rfl, rfl, rfl, rfl, rfl, rfl, rfl, rfl, rfl, rfl, rfl, rfl, rfl⟩

/-- The words of R125, by the field positions of R81 to R89 and the maps of R95 to R97. -/
theorem test_decode_branch :
    decode 0xFFFFFFF001030040#128 = .instr (.beq { rd := 0, rs1 := 3, rs2 := 4, imm := 4294967280 }) ∧
    decode 0xFFFFFFF011030040#128 = .instr (.bne { rd := 0, rs1 := 3, rs2 := 4, imm := 4294967280 }) ∧
    decode 0xFFFFFFF021030040#128 = .instr (.blt { rd := 0, rs1 := 3, rs2 := 4, imm := 4294967280 }) ∧
    decode 0xFFFFFFF031030040#128 = .instr (.bge { rd := 0, rs1 := 3, rs2 := 4, imm := 4294967280 }) ∧
    decode 0xFFFFFFF041030040#128 = .instr (.bltu { rd := 0, rs1 := 3, rs2 := 4, imm := 4294967280 }) ∧
    decode 0xFFFFFFF051030040#128 = .instr (.bgeu { rd := 0, rs1 := 3, rs2 := 4, imm := 4294967280 }) ∧
    decode 0x1000000044#128 = .instr (.j { rd := 0, rs1 := 0, rs2 := 0, imm := 16 }) ∧
    decode 0x1010000444#128 = .instr (.call { rd := 1, rs1 := 0, rs2 := 0, imm := 16 }) ∧
    decode 0x820010044#128 = .instr (.jr { rd := 0, rs1 := 1, rs2 := 0, imm := 8 }) ∧
    decode 0x830020444#128 = .instr (.callr { rd := 1, rs1 := 2, rs2 := 0, imm := 8 }) :=
  ⟨rfl, rfl, rfl, rfl, rfl, rfl, rfl, rfl, rfl, rfl⟩

/-- The words of loads, stores and fences (R170), by the field positions of R81 to R89 and the maps of R95 to R97. -/
theorem test_decode_memory :
    decode 0x80FFFF830061460#128 = .instr (.ld 3 { rd := 5, rs1 := 6, rs2 := 0, ch := 1, scp := 0, str := 0, off := 1048568 }) ∧
    decode 0x890004021C60064#128 = .instr (.st 2 { rd := 0, rs1 := 6, rs2 := 7, ch := 1, scp := 0, str := 9, off := 64 }) ∧
    decode 0xFFFF830061468#128 = .instr (.ldk 3 { rd := 5, rs1 := 6, rs2 := 0, ch := 0, scp := 0, str := 0, off := 1048568 }) ∧
    decode 0xFFFF83006146C#128 = .instr (.ldp 3 { rd := 5, rs1 := 6, rs2 := 0, ch := 0, scp := 0, str := 0, off := 1048568 }) ∧
    decode 0xB0FFFF830061470#128 = .instr (.lda 3 { rd := 5, rs1 := 6, rs2 := 0, ch := 1, scp := 3, str := 0, off := 1048568 }) ∧
    decode 0xB90004021C60074#128 = .instr (.stl 2 { rd := 0, rs1 := 6, rs2 := 7, ch := 1, scp := 3, str := 9, off := 64 }) ∧
    decode 0x500000000000078#128 = .instr (.fence { rd := 0, rs1 := 0, rs2 := 0, ch := 0, scp := 5, str := 0, off := 0 }) ∧
    decode 0x890004021C6007C#128 = .instr (.sts 2 { rd := 0, rs1 := 6, rs2 := 7, ch := 1, scp := 0, str := 9, off := 64 }) :=
  ⟨rfl, rfl, rfl, rfl, rfl, rfl, rfl, rfl⟩

/-- The words of atomics (R191, R192), by the field positions of R81 to R89 and the maps of R95 to R97. -/
theorem test_decode_atomic_1 :
    decode 0x300001002892080#128 = .instr (.amoAdd { rd := 8, rs1 := 9, rs2 := 10, ch := 0, scp := 3, str := 0, off := 16 }) ∧
    decode 0x300001012892080#128 = .instr (.amoAnd { rd := 8, rs1 := 9, rs2 := 10, ch := 0, scp := 3, str := 0, off := 16 }) ∧
    decode 0x300001022892080#128 = .instr (.amoOr { rd := 8, rs1 := 9, rs2 := 10, ch := 0, scp := 3, str := 0, off := 16 }) ∧
    decode 0x300001032892080#128 = .instr (.amoXor { rd := 8, rs1 := 9, rs2 := 10, ch := 0, scp := 3, str := 0, off := 16 }) ∧
    decode 0x300001042892080#128 = .instr (.amoMin { rd := 8, rs1 := 9, rs2 := 10, ch := 0, scp := 3, str := 0, off := 16 }) ∧
    decode 0x300001052892080#128 = .instr (.amoMax { rd := 8, rs1 := 9, rs2 := 10, ch := 0, scp := 3, str := 0, off := 16 }) ∧
    decode 0x300001062892080#128 = .instr (.amoMinu { rd := 8, rs1 := 9, rs2 := 10, ch := 0, scp := 3, str := 0, off := 16 }) ∧
    decode 0x300001072892080#128 = .instr (.amoMaxu { rd := 8, rs1 := 9, rs2 := 10, ch := 0, scp := 3, str := 0, off := 16 }) ∧
    decode 0x300001082892080#128 = .instr (.amoSwap { rd := 8, rs1 := 9, rs2 := 10, ch := 0, scp := 3, str := 0, off := 16 }) ∧
    decode 0x3000010A2892080#128 = .instr (.amoFaddF64 { rd := 8, rs1 := 9, rs2 := 10, ch := 0, scp := 3, str := 0, off := 16 }) ∧
    decode 0x300001002892084#128 = .instr (.amoAddI32 { rd := 8, rs1 := 9, rs2 := 10, ch := 0, scp := 3, str := 0, off := 16 }) ∧
    decode 0x300001012892084#128 = .instr (.amoAndI32 { rd := 8, rs1 := 9, rs2 := 10, ch := 0, scp := 3, str := 0, off := 16 }) ∧
    decode 0x300001022892084#128 = .instr (.amoOrI32 { rd := 8, rs1 := 9, rs2 := 10, ch := 0, scp := 3, str := 0, off := 16 }) ∧
    decode 0x300001032892084#128 = .instr (.amoXorI32 { rd := 8, rs1 := 9, rs2 := 10, ch := 0, scp := 3, str := 0, off := 16 }) ∧
    decode 0x300001042892084#128 = .instr (.amoMinI32 { rd := 8, rs1 := 9, rs2 := 10, ch := 0, scp := 3, str := 0, off := 16 }) ∧
    decode 0x300001052892084#128 = .instr (.amoMaxI32 { rd := 8, rs1 := 9, rs2 := 10, ch := 0, scp := 3, str := 0, off := 16 }) ∧
    decode 0x300001062892084#128 = .instr (.amoMinuI32 { rd := 8, rs1 := 9, rs2 := 10, ch := 0, scp := 3, str := 0, off := 16 }) ∧
    decode 0x300001072892084#128 = .instr (.amoMaxuI32 { rd := 8, rs1 := 9, rs2 := 10, ch := 0, scp := 3, str := 0, off := 16 }) ∧
    decode 0x300001082892084#128 = .instr (.amoSwapI32 { rd := 8, rs1 := 9, rs2 := 10, ch := 0, scp := 3, str := 0, off := 16 }) ∧
    decode 0x300001092892084#128 = .instr (.amoFaddF32 { rd := 8, rs1 := 9, rs2 := 10, ch := 0, scp := 3, str := 0, off := 16 }) ∧
    decode 0x300001002892088#128 = .instr (.cas { rd := 8, rs1 := 9, rs2 := 10, ch := 0, scp := 3, str := 0, off := 16 }) ∧
    decode 0x300001012892088#128 = .instr (.casI32 { rd := 8, rs1 := 9, rs2 := 10, ch := 0, scp := 3, str := 0, off := 16 }) ∧
    decode 0x30000100289208C#128 = .instr (.ramoAdd { rd := 8, rs1 := 9, rs2 := 10, ch := 0, scp := 3, str := 0, off := 16 }) ∧
    decode 0x30000101289208C#128 = .instr (.ramoAnd { rd := 8, rs1 := 9, rs2 := 10, ch := 0, scp := 3, str := 0, off := 16 }) :=
  ⟨rfl, rfl, rfl, rfl, rfl, rfl, rfl, rfl, rfl, rfl, rfl, rfl, rfl, rfl, rfl, rfl, rfl, rfl, rfl, rfl, rfl, rfl, rfl, rfl⟩

/-- The words of atomics (R191, R192), by the field positions of R81 to R89 and the maps of R95 to R97. -/
theorem test_decode_atomic_2 :
    decode 0x30000102289208C#128 = .instr (.ramoOr { rd := 8, rs1 := 9, rs2 := 10, ch := 0, scp := 3, str := 0, off := 16 }) ∧
    decode 0x30000103289208C#128 = .instr (.ramoXor { rd := 8, rs1 := 9, rs2 := 10, ch := 0, scp := 3, str := 0, off := 16 }) ∧
    decode 0x30000104289208C#128 = .instr (.ramoMin { rd := 8, rs1 := 9, rs2 := 10, ch := 0, scp := 3, str := 0, off := 16 }) ∧
    decode 0x30000105289208C#128 = .instr (.ramoMax { rd := 8, rs1 := 9, rs2 := 10, ch := 0, scp := 3, str := 0, off := 16 }) ∧
    decode 0x30000106289208C#128 = .instr (.ramoMinu { rd := 8, rs1 := 9, rs2 := 10, ch := 0, scp := 3, str := 0, off := 16 }) ∧
    decode 0x30000107289208C#128 = .instr (.ramoMaxu { rd := 8, rs1 := 9, rs2 := 10, ch := 0, scp := 3, str := 0, off := 16 }) ∧
    decode 0x30000108289208C#128 = .instr (.ramoSwap { rd := 8, rs1 := 9, rs2 := 10, ch := 0, scp := 3, str := 0, off := 16 }) :=
  ⟨rfl, rfl, rfl, rfl, rfl, rfl, rfl⟩

/-- The words of waits, barriers, the event unit, messages, roles, maintenance and streams, by the field positions of R81 to R89 and the maps of R95 to R97. -/
theorem test_decode_sync :
    decode 0x200001002890090#128 = .instr (.waitEq { rd := 0, rs1 := 9, rs2 := 10, ch := 0, scp := 2, str := 0, off := 16 }) ∧
    decode 0x200001012890090#128 = .instr (.waitNe { rd := 0, rs1 := 9, rs2 := 10, ch := 0, scp := 2, str := 0, off := 16 }) ∧
    decode 0x400000094#128 = .instr (.bar { rd := 0, rs1 := 0, rs2 := 0, imm := 4 }) ∧
    decode 0x410000094#128 = .instr (.bara { rd := 0, rs1 := 0, rs2 := 0, imm := 4 }) ∧
    decode 0x420000094#128 = .instr (.barw { rd := 0, rs1 := 0, rs2 := 0, imm := 4 }) ∧
    decode 0x430000094#128 = .instr (.bard { rd := 0, rs1 := 0, rs2 := 0, imm := 4 }) ∧
    decode 0x2100001498#128 = .instr (.evw { rd := 5, rs1 := 0, rs2 := 0, imm := 33 }) ∧
    decode 0x2110000098#128 = .instr (.evs { rd := 0, rs1 := 0, rs2 := 0, imm := 33 }) ∧
    decode 0x2030185009C#128 = .instr (.send { rd := 0, rs1 := 5, rs2 := 6, imm := 515 }) ∧
    decode 0x1000149C#128 = .instr (.recv { rd := 5, rs1 := 0, rs2 := 0, imm := 0 }) ∧
    decode 0x3000614A0#128 = .instr (.role { rd := 5, rs1 := 6, rs2 := 0, imm := 3 }) ∧
    decode 0x3100014A0#128 = .instr (.gsize { rd := 5, rs1 := 0, rs2 := 0, imm := 3 }) ∧
    decode 0x3200014A0#128 = .instr (.grank { rd := 5, rs1 := 0, rs2 := 0, imm := 3 }) ∧
    decode 0x2000010000900A4#128 = .instr (.cinv { rd := 0, rs1 := 9, rs2 := 0, ch := 0, scp := 2, str := 0, off := 16 }) ∧
    decode 0x2000010100900A4#128 = .instr (.cwb { rd := 0, rs1 := 9, rs2 := 0, ch := 0, scp := 2, str := 0, off := 16 }) ∧
    decode 0x10200900A4#128 = .instr (.cpf { rd := 0, rs1 := 9, rs2 := 0, ch := 0, scp := 0, str := 0, off := 16 }) ∧
    decode 0x4000005000014A8#128 = .instr (.sfence { rd := 5, rs1 := 0, rs2 := 0, imm := 67108869 }) ∧
    decode 0x4000000100600A8#128 = .instr (.mark { rd := 0, rs1 := 6, rs2 := 0, imm := 67108864 }) :=
  ⟨rfl, rfl, rfl, rfl, rfl, rfl, rfl, rfl, rfl, rfl, rfl, rfl, rfl, rfl, rfl, rfl, rfl, rfl⟩

/-- The words of scalar floating point (R122, R124), by the field positions of R81 to R89 and the maps of R95 to R97. -/
theorem test_decode_float_1 :
    decode 0x5030B28AC#128 = .instr (.fadd { rd := 10, rs1 := 11, rs2 := 12, imm := 5 }) ∧
    decode 0x130B28AC#128 = .instr (.fsub { rd := 10, rs1 := 11, rs2 := 12, imm := 0 }) ∧
    decode 0x5230B28AC#128 = .instr (.fmul { rd := 10, rs1 := 11, rs2 := 12, imm := 5 }) ∧
    decode 0x330B28AC#128 = .instr (.fdiv { rd := 10, rs1 := 11, rs2 := 12, imm := 0 }) ∧
    decode 0x400B28AC#128 = .instr (.fsqrt { rd := 10, rs1 := 11, rs2 := 0, imm := 0 }) ∧
    decode 0x530B28AC#128 = .instr (.fmin { rd := 10, rs1 := 11, rs2 := 12, imm := 0 }) ∧
    decode 0x630B28AC#128 = .instr (.fmax { rd := 10, rs1 := 11, rs2 := 12, imm := 0 }) ∧
    decode 0x730B28AC#128 = .instr (.feq { rd := 10, rs1 := 11, rs2 := 12, imm := 0 }) ∧
    decode 0x830B28AC#128 = .instr (.flt { rd := 10, rs1 := 11, rs2 := 12, imm := 0 }) ∧
    decode 0x930B28AC#128 = .instr (.fle { rd := 10, rs1 := 11, rs2 := 12, imm := 0 }) ∧
    decode 0xA00B28AC#128 = .instr (.fneg { rd := 10, rs1 := 11, rs2 := 0, imm := 0 }) ∧
    decode 0xB00B28AC#128 = .instr (.fabs { rd := 10, rs1 := 11, rs2 := 0, imm := 0 }) ∧
    decode 0x5030B28B0#128 = .instr (.faddF32 { rd := 10, rs1 := 11, rs2 := 12, imm := 5 }) ∧
    decode 0x130B28B0#128 = .instr (.fsubF32 { rd := 10, rs1 := 11, rs2 := 12, imm := 0 }) ∧
    decode 0x5230B28B0#128 = .instr (.fmulF32 { rd := 10, rs1 := 11, rs2 := 12, imm := 5 }) ∧
    decode 0x330B28B0#128 = .instr (.fdivF32 { rd := 10, rs1 := 11, rs2 := 12, imm := 0 }) ∧
    decode 0x400B28B0#128 = .instr (.fsqrtF32 { rd := 10, rs1 := 11, rs2 := 0, imm := 0 }) ∧
    decode 0x530B28B0#128 = .instr (.fminF32 { rd := 10, rs1 := 11, rs2 := 12, imm := 0 }) ∧
    decode 0x630B28B0#128 = .instr (.fmaxF32 { rd := 10, rs1 := 11, rs2 := 12, imm := 0 }) ∧
    decode 0x730B28B0#128 = .instr (.feqF32 { rd := 10, rs1 := 11, rs2 := 12, imm := 0 }) ∧
    decode 0x830B28B0#128 = .instr (.fltF32 { rd := 10, rs1 := 11, rs2 := 12, imm := 0 }) ∧
    decode 0x930B28B0#128 = .instr (.fleF32 { rd := 10, rs1 := 11, rs2 := 12, imm := 0 }) ∧
    decode 0xA00B28B0#128 = .instr (.fnegF32 { rd := 10, rs1 := 11, rs2 := 0, imm := 0 }) ∧
    decode 0xB00B28B0#128 = .instr (.fabsF32 { rd := 10, rs1 := 11, rs2 := 0, imm := 0 }) :=
  ⟨rfl, rfl, rfl, rfl, rfl, rfl, rfl, rfl, rfl, rfl, rfl, rfl, rfl, rfl, rfl, rfl, rfl, rfl, rfl, rfl, rfl, rfl, rfl, rfl⟩

/-- The words of scalar floating point (R122, R124), by the field positions of R81 to R89 and the maps of R95 to R97. -/
theorem test_decode_float_2 :
    decode 0x40CB4#128 = .instr (.cvtF64I64 { rd := 3, rs1 := 4, rs2 := 0, imm := 0 }) ∧
    decode 0x10040CB4#128 = .instr (.cvtF64N64 { rd := 3, rs1 := 4, rs2 := 0, imm := 0 }) ∧
    decode 0x20040CB4#128 = .instr (.cvtI64F64 { rd := 3, rs1 := 4, rs2 := 0, imm := 0 }) ∧
    decode 0x30040CB4#128 = .instr (.cvtN64F64 { rd := 3, rs1 := 4, rs2 := 0, imm := 0 }) ∧
    decode 0x40040CB4#128 = .instr (.cvtF32I64 { rd := 3, rs1 := 4, rs2 := 0, imm := 0 }) ∧
    decode 0x50040CB4#128 = .instr (.cvtF32N64 { rd := 3, rs1 := 4, rs2 := 0, imm := 0 }) ∧
    decode 0x60040CB4#128 = .instr (.cvtI64F32 { rd := 3, rs1 := 4, rs2 := 0, imm := 0 }) ∧
    decode 0x70040CB4#128 = .instr (.cvtN64F32 { rd := 3, rs1 := 4, rs2 := 0, imm := 0 }) ∧
    decode 0x80040CB4#128 = .instr (.cvtF32F64 { rd := 3, rs1 := 4, rs2 := 0, imm := 0 }) ∧
    decode 0x90040CB4#128 = .instr (.cvtF64F32 { rd := 3, rs1 := 4, rs2 := 0, imm := 0 }) :=
  ⟨rfl, rfl, rfl, rfl, rfl, rfl, rfl, rfl, rfl, rfl⟩

/-- The words of vector integers (R149), by the field positions of R81 to R89 and the maps of R95 to R97. -/
theorem test_decode_vinteger :
    decode 0x182400030810041#128 = .instr (.vaddInt { d := 1, a := 2, b := 3, c := 0, e := 0, g1 := 9, g2 := 0, ty := 6, ch := 0, yld := 0, dly := 0, imm := 0 }) ∧
    decode 0x182400030810441#128 = .instr (.vsubInt { d := 1, a := 2, b := 3, c := 0, e := 0, g1 := 9, g2 := 0, ty := 6, ch := 0, yld := 0, dly := 0, imm := 0 }) ∧
    decode 0x182400030810841#128 = .instr (.vmulInt { d := 1, a := 2, b := 3, c := 0, e := 0, g1 := 9, g2 := 0, ty := 6, ch := 0, yld := 0, dly := 0, imm := 0 }) ∧
    decode 0x182400030810C41#128 = .instr (.vmulh { d := 1, a := 2, b := 3, c := 0, e := 0, g1 := 9, g2 := 0, ty := 6, ch := 0, yld := 0, dly := 0, imm := 0 }) ∧
    decode 0x182400030811041#128 = .instr (.vmulhu { d := 1, a := 2, b := 3, c := 0, e := 0, g1 := 9, g2 := 0, ty := 6, ch := 0, yld := 0, dly := 0, imm := 0 }) ∧
    decode 0x182400030811441#128 = .instr (.vminInt { d := 1, a := 2, b := 3, c := 0, e := 0, g1 := 9, g2 := 0, ty := 6, ch := 0, yld := 0, dly := 0, imm := 0 }) ∧
    decode 0x182400030811841#128 = .instr (.vminu { d := 1, a := 2, b := 3, c := 0, e := 0, g1 := 9, g2 := 0, ty := 6, ch := 0, yld := 0, dly := 0, imm := 0 }) ∧
    decode 0x182400030811C41#128 = .instr (.vmaxInt { d := 1, a := 2, b := 3, c := 0, e := 0, g1 := 9, g2 := 0, ty := 6, ch := 0, yld := 0, dly := 0, imm := 0 }) ∧
    decode 0x182400030812041#128 = .instr (.vmaxu { d := 1, a := 2, b := 3, c := 0, e := 0, g1 := 9, g2 := 0, ty := 6, ch := 0, yld := 0, dly := 0, imm := 0 }) ∧
    decode 0x182400030812441#128 = .instr (.vand { d := 1, a := 2, b := 3, c := 0, e := 0, g1 := 9, g2 := 0, ty := 6, ch := 0, yld := 0, dly := 0, imm := 0 }) ∧
    decode 0x182400030812841#128 = .instr (.vor { d := 1, a := 2, b := 3, c := 0, e := 0, g1 := 9, g2 := 0, ty := 6, ch := 0, yld := 0, dly := 0, imm := 0 }) ∧
    decode 0x182400030812C41#128 = .instr (.vxor { d := 1, a := 2, b := 3, c := 0, e := 0, g1 := 9, g2 := 0, ty := 6, ch := 0, yld := 0, dly := 0, imm := 0 }) ∧
    decode 0x182400030813041#128 = .instr (.vshl { d := 1, a := 2, b := 3, c := 0, e := 0, g1 := 9, g2 := 0, ty := 6, ch := 0, yld := 0, dly := 0, imm := 0 }) ∧
    decode 0x182400030813441#128 = .instr (.vshr { d := 1, a := 2, b := 3, c := 0, e := 0, g1 := 9, g2 := 0, ty := 6, ch := 0, yld := 0, dly := 0, imm := 0 }) ∧
    decode 0x182400030813841#128 = .instr (.vsra { d := 1, a := 2, b := 3, c := 0, e := 0, g1 := 9, g2 := 0, ty := 6, ch := 0, yld := 0, dly := 0, imm := 0 }) ∧
    decode 0x182400000813C41#128 = .instr (.vabsInt { d := 1, a := 2, b := 0, c := 0, e := 0, g1 := 9, g2 := 0, ty := 6, ch := 0, yld := 0, dly := 0, imm := 0 }) ∧
    decode 0x182400000814041#128 = .instr (.vnegInt { d := 1, a := 2, b := 0, c := 0, e := 0, g1 := 9, g2 := 0, ty := 6, ch := 0, yld := 0, dly := 0, imm := 0 }) ∧
    decode 0x182400030814441#128 = .instr (.vaddSat { d := 1, a := 2, b := 3, c := 0, e := 0, g1 := 9, g2 := 0, ty := 6, ch := 0, yld := 0, dly := 0, imm := 0 }) ∧
    decode 0x182400030814841#128 = .instr (.vsubSat { d := 1, a := 2, b := 3, c := 0, e := 0, g1 := 9, g2 := 0, ty := 6, ch := 0, yld := 0, dly := 0, imm := 0 }) ∧
    decode 0x182400030814C41#128 = .instr (.vadduSat { d := 1, a := 2, b := 3, c := 0, e := 0, g1 := 9, g2 := 0, ty := 6, ch := 0, yld := 0, dly := 0, imm := 0 }) ∧
    decode 0x182400030815041#128 = .instr (.vsubuSat { d := 1, a := 2, b := 3, c := 0, e := 0, g1 := 9, g2 := 0, ty := 6, ch := 0, yld := 0, dly := 0, imm := 0 }) ∧
    decode 0x182400000815441#128 = .instr (.vpop { d := 1, a := 2, b := 0, c := 0, e := 0, g1 := 9, g2 := 0, ty := 6, ch := 0, yld := 0, dly := 0, imm := 0 }) ∧
    decode 0x182400000815841#128 = .instr (.vclz { d := 1, a := 2, b := 0, c := 0, e := 0, g1 := 9, g2 := 0, ty := 6, ch := 0, yld := 0, dly := 0, imm := 0 }) :=
  ⟨rfl, rfl, rfl, rfl, rfl, rfl, rfl, rfl, rfl, rfl, rfl, rfl, rfl, rfl, rfl, rfl, rfl, rfl, rfl, rfl, rfl, rfl, rfl⟩

/-- The words of vector floats (R150), by the field positions of R81 to R89 and the maps of R95 to R97. -/
theorem test_decode_vfloat :
    decode 0x80000030810045#128 = .instr (.vaddF { d := 1, a := 2, b := 3, c := 0, e := 0, g1 := 0, g2 := 0, ty := 2, ch := 0, yld := 0, dly := 0, imm := 0 }) ∧
    decode 0x80000030810445#128 = .instr (.vsubF { d := 1, a := 2, b := 3, c := 0, e := 0, g1 := 0, g2 := 0, ty := 2, ch := 0, yld := 0, dly := 0, imm := 0 }) ∧
    decode 0x80000030810845#128 = .instr (.vmulF { d := 1, a := 2, b := 3, c := 0, e := 0, g1 := 0, g2 := 0, ty := 2, ch := 0, yld := 0, dly := 0, imm := 0 }) ∧
    decode 0x80000030810C45#128 = .instr (.vdiv { d := 1, a := 2, b := 3, c := 0, e := 0, g1 := 0, g2 := 0, ty := 2, ch := 0, yld := 0, dly := 0, imm := 0 }) ∧
    decode 0x80000000811045#128 = .instr (.vsqrt { d := 1, a := 2, b := 0, c := 0, e := 0, g1 := 0, g2 := 0, ty := 2, ch := 0, yld := 0, dly := 0, imm := 0 }) ∧
    decode 0x80000030811445#128 = .instr (.vminF { d := 1, a := 2, b := 3, c := 0, e := 0, g1 := 0, g2 := 0, ty := 2, ch := 0, yld := 0, dly := 0, imm := 0 }) ∧
    decode 0x80000030811845#128 = .instr (.vmaxF { d := 1, a := 2, b := 3, c := 0, e := 0, g1 := 0, g2 := 0, ty := 2, ch := 0, yld := 0, dly := 0, imm := 0 }) ∧
    decode 0x80000000811C45#128 = .instr (.vabsF { d := 1, a := 2, b := 0, c := 0, e := 0, g1 := 0, g2 := 0, ty := 2, ch := 0, yld := 0, dly := 0, imm := 0 }) ∧
    decode 0x80000000812045#128 = .instr (.vnegF { d := 1, a := 2, b := 0, c := 0, e := 0, g1 := 0, g2 := 0, ty := 2, ch := 0, yld := 0, dly := 0, imm := 0 }) ∧
    decode 0x80001030812445#128 = .instr (.vfma { d := 1, a := 2, b := 3, c := 4, e := 0, g1 := 0, g2 := 0, ty := 2, ch := 0, yld := 0, dly := 0, imm := 0 }) ∧
    decode 0x80001030812845#128 = .instr (.vfms { d := 1, a := 2, b := 3, c := 4, e := 0, g1 := 0, g2 := 0, ty := 2, ch := 0, yld := 0, dly := 0, imm := 0 }) ∧
    decode 0x80001030812C45#128 = .instr (.vfnma { d := 1, a := 2, b := 3, c := 4, e := 0, g1 := 0, g2 := 0, ty := 2, ch := 0, yld := 0, dly := 0, imm := 0 }) ∧
    decode 0x80000000813045#128 = .instr (.vrcp { d := 1, a := 2, b := 0, c := 0, e := 0, g1 := 0, g2 := 0, ty := 2, ch := 0, yld := 0, dly := 0, imm := 0 }) ∧
    decode 0x80000000813445#128 = .instr (.vrsqrt { d := 1, a := 2, b := 0, c := 0, e := 0, g1 := 0, g2 := 0, ty := 2, ch := 0, yld := 0, dly := 0, imm := 0 }) ∧
    decode 0x80000000813845#128 = .instr (.vex2 { d := 1, a := 2, b := 0, c := 0, e := 0, g1 := 0, g2 := 0, ty := 2, ch := 0, yld := 0, dly := 0, imm := 0 }) ∧
    decode 0x80000000813C45#128 = .instr (.vlg2 { d := 1, a := 2, b := 0, c := 0, e := 0, g1 := 0, g2 := 0, ty := 2, ch := 0, yld := 0, dly := 0, imm := 0 }) ∧
    decode 0x80000030814045#128 = .instr (.vcopysign { d := 1, a := 2, b := 3, c := 0, e := 0, g1 := 0, g2 := 0, ty := 2, ch := 0, yld := 0, dly := 0, imm := 0 }) :=
  ⟨rfl, rfl, rfl, rfl, rfl, rfl, rfl, rfl, rfl, rfl, rfl, rfl, rfl, rfl, rfl, rfl, rfl⟩

/-- The words of compares, selects, masks, lanes and permutes (R151 to R155), by the field positions of R81 to R89 and the maps of R95 to R97. -/
theorem test_decode_vcompare :
    decode 0x30850049#128 = .instr (.vcmpEq { d := 5, a := 2, b := 3, c := 0, e := 0, g1 := 0, g2 := 0, ty := 0, ch := 0, yld := 0, dly := 0, imm := 0 }) ∧
    decode 0x30850449#128 = .instr (.vcmpNe { d := 5, a := 2, b := 3, c := 0, e := 0, g1 := 0, g2 := 0, ty := 0, ch := 0, yld := 0, dly := 0, imm := 0 }) ∧
    decode 0x30850849#128 = .instr (.vcmpLt { d := 5, a := 2, b := 3, c := 0, e := 0, g1 := 0, g2 := 0, ty := 0, ch := 0, yld := 0, dly := 0, imm := 0 }) ∧
    decode 0x30850C49#128 = .instr (.vcmpLe { d := 5, a := 2, b := 3, c := 0, e := 0, g1 := 0, g2 := 0, ty := 0, ch := 0, yld := 0, dly := 0, imm := 0 }) ∧
    decode 0x30851049#128 = .instr (.vcmpGt { d := 5, a := 2, b := 3, c := 0, e := 0, g1 := 0, g2 := 0, ty := 0, ch := 0, yld := 0, dly := 0, imm := 0 }) ∧
    decode 0x30851449#128 = .instr (.vcmpGe { d := 5, a := 2, b := 3, c := 0, e := 0, g1 := 0, g2 := 0, ty := 0, ch := 0, yld := 0, dly := 0, imm := 0 }) ∧
    decode 0x30851849#128 = .instr (.vcmpLtu { d := 5, a := 2, b := 3, c := 0, e := 0, g1 := 0, g2 := 0, ty := 0, ch := 0, yld := 0, dly := 0, imm := 0 }) ∧
    decode 0x30851C49#128 = .instr (.vcmpLeu { d := 5, a := 2, b := 3, c := 0, e := 0, g1 := 0, g2 := 0, ty := 0, ch := 0, yld := 0, dly := 0, imm := 0 }) ∧
    decode 0x30852049#128 = .instr (.vcmpGtu { d := 5, a := 2, b := 3, c := 0, e := 0, g1 := 0, g2 := 0, ty := 0, ch := 0, yld := 0, dly := 0, imm := 0 }) ∧
    decode 0x30852449#128 = .instr (.vcmpGeu { d := 5, a := 2, b := 3, c := 0, e := 0, g1 := 0, g2 := 0, ty := 0, ch := 0, yld := 0, dly := 0, imm := 0 }) ∧
    decode 0x1000003081004D#128 = .instr (.vsel { d := 1, a := 2, b := 3, c := 0, e := 0, g1 := 0, g2 := 4, ty := 0, ch := 0, yld := 0, dly := 0, imm := 0 }) ∧
    decode 0x242044D#128 = .instr (.vmkl { d := 2, a := 9, b := 0, c := 0, e := 0, g1 := 0, g2 := 0, ty := 0, ch := 0, yld := 0, dly := 0, imm := 0 }) ∧
    decode 0x89184D#128 = .instr (.vmpop { d := 9, a := 2, b := 0, c := 0, e := 0, g1 := 0, g2 := 0, ty := 0, ch := 0, yld := 0, dly := 0, imm := 0 }) ∧
    decode 0x4000000241084D#128 = .instr (.vbcast { d := 1, a := 9, b := 0, c := 0, e := 0, g1 := 0, g2 := 0, ty := 1, ch := 0, yld := 0, dly := 0, imm := 0 }) ∧
    decode 0x810C4D#128 = .instr (.vmov { d := 1, a := 2, b := 0, c := 0, e := 0, g1 := 0, g2 := 0, ty := 0, ch := 0, yld := 0, dly := 0, imm := 0 }) ∧
    decode 0xA089104D#128 = .instr (.vget { d := 9, a := 2, b := 10, c := 0, e := 0, g1 := 0, g2 := 0, ty := 0, ch := 0, yld := 0, dly := 0, imm := 0 }) ∧
    decode 0xA241144D#128 = .instr (.vput { d := 1, a := 9, b := 10, c := 0, e := 0, g1 := 0, g2 := 0, ty := 0, ch := 0, yld := 0, dly := 0, imm := 0 }) ∧
    decode 0x30810051#128 = .instr (.vperm { d := 1, a := 2, b := 3, c := 0, e := 0, g1 := 0, g2 := 0, ty := 0, ch := 0, yld := 0, dly := 0, imm := 0 }) ∧
    decode 0x90810451#128 = .instr (.vrot { d := 1, a := 2, b := 9, c := 0, e := 0, g1 := 0, g2 := 0, ty := 0, ch := 0, yld := 0, dly := 0, imm := 0 }) ∧
    decode 0x30810851#128 = .instr (.vcompress { d := 1, a := 2, b := 3, c := 0, e := 0, g1 := 0, g2 := 0, ty := 0, ch := 0, yld := 0, dly := 0, imm := 0 }) ∧
    decode 0x30810C51#128 = .instr (.vexpand { d := 1, a := 2, b := 3, c := 0, e := 0, g1 := 0, g2 := 0, ty := 0, ch := 0, yld := 0, dly := 0, imm := 0 }) :=
  ⟨rfl, rfl, rfl, rfl, rfl, rfl, rfl, rfl, rfl, rfl, rfl, rfl, rfl, rfl, rfl, rfl, rfl, rfl, rfl, rfl, rfl⟩

/-- The words of conversions, reductions and scans, by the field positions of R81 to R89 and the maps of R95 to R97. -/
theorem test_decode_vconvert_1 :
    decode 0x1020055#128 = .instr (.vcvtF32I32 { d := 2, a := 4, b := 0, c := 0, e := 0, g1 := 0, g2 := 0, ty := 0, ch := 0, yld := 0, dly := 0, imm := 0 }) ∧
    decode 0x1020455#128 = .instr (.vcvtF32N32 { d := 2, a := 4, b := 0, c := 0, e := 0, g1 := 0, g2 := 0, ty := 0, ch := 0, yld := 0, dly := 0, imm := 0 }) ∧
    decode 0x1020855#128 = .instr (.vcvtI32F32 { d := 2, a := 4, b := 0, c := 0, e := 0, g1 := 0, g2 := 0, ty := 0, ch := 0, yld := 0, dly := 0, imm := 0 }) ∧
    decode 0x1020C55#128 = .instr (.vcvtN32F32 { d := 2, a := 4, b := 0, c := 0, e := 0, g1 := 0, g2 := 0, ty := 0, ch := 0, yld := 0, dly := 0, imm := 0 }) ∧
    decode 0x1021055#128 = .instr (.vcvtF16F32 { d := 2, a := 4, b := 0, c := 0, e := 0, g1 := 0, g2 := 0, ty := 0, ch := 0, yld := 0, dly := 0, imm := 0 }) ∧
    decode 0x1021455#128 = .instr (.vcvtBf16F32 { d := 2, a := 4, b := 0, c := 0, e := 0, g1 := 0, g2 := 0, ty := 0, ch := 0, yld := 0, dly := 0, imm := 0 }) ∧
    decode 0x1021855#128 = .instr (.vcvtF32F16 { d := 2, a := 4, b := 0, c := 0, e := 0, g1 := 0, g2 := 0, ty := 0, ch := 0, yld := 0, dly := 0, imm := 0 }) ∧
    decode 0x1021C55#128 = .instr (.vcvtF32Bf16 { d := 2, a := 4, b := 0, c := 0, e := 0, g1 := 0, g2 := 0, ty := 0, ch := 0, yld := 0, dly := 0, imm := 0 }) ∧
    decode 0x1022055#128 = .instr (.vcvtE4m3F32 { d := 2, a := 4, b := 0, c := 0, e := 0, g1 := 0, g2 := 0, ty := 0, ch := 0, yld := 0, dly := 0, imm := 0 }) ∧
    decode 0x1022455#128 = .instr (.vcvtF32E4m3 { d := 2, a := 4, b := 0, c := 0, e := 0, g1 := 0, g2 := 0, ty := 0, ch := 0, yld := 0, dly := 0, imm := 0 }) ∧
    decode 0x1022855#128 = .instr (.vcvtF64F32 { d := 2, a := 4, b := 0, c := 0, e := 0, g1 := 0, g2 := 0, ty := 0, ch := 0, yld := 0, dly := 0, imm := 0 }) ∧
    decode 0x1022C55#128 = .instr (.vcvtF32F64 { d := 2, a := 4, b := 0, c := 0, e := 0, g1 := 0, g2 := 0, ty := 0, ch := 0, yld := 0, dly := 0, imm := 0 }) ∧
    decode 0x1023055#128 = .instr (.vcvtF64I32 { d := 2, a := 4, b := 0, c := 0, e := 0, g1 := 0, g2 := 0, ty := 0, ch := 0, yld := 0, dly := 0, imm := 0 }) ∧
    decode 0x1023455#128 = .instr (.vcvtI32F64 { d := 2, a := 4, b := 0, c := 0, e := 0, g1 := 0, g2 := 0, ty := 0, ch := 0, yld := 0, dly := 0, imm := 0 }) ∧
    decode 0x1023855#128 = .instr (.vcvtF16Bf16 { d := 2, a := 4, b := 0, c := 0, e := 0, g1 := 0, g2 := 0, ty := 0, ch := 0, yld := 0, dly := 0, imm := 0 }) ∧
    decode 0x1023C55#128 = .instr (.vcvtBf16F16 { d := 2, a := 4, b := 0, c := 0, e := 0, g1 := 0, g2 := 0, ty := 0, ch := 0, yld := 0, dly := 0, imm := 0 }) ∧
    decode 0x890059#128 = .instr (.vredAdd { d := 9, a := 2, b := 0, c := 0, e := 0, g1 := 0, g2 := 0, ty := 0, ch := 0, yld := 0, dly := 0, imm := 0 }) ∧
    decode 0x890459#128 = .instr (.vredMin { d := 9, a := 2, b := 0, c := 0, e := 0, g1 := 0, g2 := 0, ty := 0, ch := 0, yld := 0, dly := 0, imm := 0 }) ∧
    decode 0x890859#128 = .instr (.vredMax { d := 9, a := 2, b := 0, c := 0, e := 0, g1 := 0, g2 := 0, ty := 0, ch := 0, yld := 0, dly := 0, imm := 0 }) ∧
    decode 0x890C59#128 = .instr (.vredAnd { d := 9, a := 2, b := 0, c := 0, e := 0, g1 := 0, g2 := 0, ty := 0, ch := 0, yld := 0, dly := 0, imm := 0 }) ∧
    decode 0x891059#128 = .instr (.vredOr { d := 9, a := 2, b := 0, c := 0, e := 0, g1 := 0, g2 := 0, ty := 0, ch := 0, yld := 0, dly := 0, imm := 0 }) ∧
    decode 0x891459#128 = .instr (.vredXor { d := 9, a := 2, b := 0, c := 0, e := 0, g1 := 0, g2 := 0, ty := 0, ch := 0, yld := 0, dly := 0, imm := 0 }) ∧
    decode 0x891859#128 = .instr (.vredMinu { d := 9, a := 2, b := 0, c := 0, e := 0, g1 := 0, g2 := 0, ty := 0, ch := 0, yld := 0, dly := 0, imm := 0 }) ∧
    decode 0x891C59#128 = .instr (.vredMaxu { d := 9, a := 2, b := 0, c := 0, e := 0, g1 := 0, g2 := 0, ty := 0, ch := 0, yld := 0, dly := 0, imm := 0 }) :=
  ⟨rfl, rfl, rfl, rfl, rfl, rfl, rfl, rfl, rfl, rfl, rfl, rfl, rfl, rfl, rfl, rfl, rfl, rfl, rfl, rfl, rfl, rfl, rfl, rfl⟩

/-- The words of conversions, reductions and scans, by the field positions of R81 to R89 and the maps of R95 to R97. -/
theorem test_decode_vconvert_2 :
    decode 0x812059#128 = .instr (.vscanAdd { d := 1, a := 2, b := 0, c := 0, e := 0, g1 := 0, g2 := 0, ty := 0, ch := 0, yld := 0, dly := 0, imm := 0 }) ∧
    decode 0x812459#128 = .instr (.vscanMin { d := 1, a := 2, b := 0, c := 0, e := 0, g1 := 0, g2 := 0, ty := 0, ch := 0, yld := 0, dly := 0, imm := 0 }) ∧
    decode 0x812859#128 = .instr (.vscanMax { d := 1, a := 2, b := 0, c := 0, e := 0, g1 := 0, g2 := 0, ty := 0, ch := 0, yld := 0, dly := 0, imm := 0 }) :=
  ⟨rfl, rfl, rfl⟩

/-- The words of vector memory, quantising, tiles and ldsum, by the field positions of R81 to R89 and the maps of R95 to R97. -/
theorem test_decode_vmemory :
    decode 0x80000000003180005D#128 = .instr (.vqsh { d := 0, a := 6, b := 3, c := 0, e := 0, g1 := 0, g2 := 0, ty := 0, ch := 0, yld := 0, dly := 0, scp := 0, str := 0, off := 128 }) ∧
    decode 0x80000000000183045D#128 = .instr (.vdqsh { d := 3, a := 6, b := 0, c := 0, e := 0, g1 := 0, g2 := 0, ty := 0, ch := 0, yld := 0, dly := 0, scp := 0, str := 0, off := 128 }) ∧
    decode 0x80000000003180085D#128 = .instr (.vbaq { d := 0, a := 6, b := 3, c := 0, e := 0, g1 := 0, g2 := 0, ty := 0, ch := 0, yld := 0, dly := 0, scp := 0, str := 0, off := 128 }) ∧
    decode 0x800000000001810081#128 = .instr (.vld { d := 1, a := 6, b := 0, c := 0, e := 0, g1 := 0, g2 := 0, ty := 0, ch := 0, yld := 0, dly := 0, scp := 0, str := 0, off := 128 }) ∧
    decode 0x800000000071810481#128 = .instr (.vlds { d := 1, a := 6, b := 7, c := 0, e := 0, g1 := 0, g2 := 0, ty := 0, ch := 0, yld := 0, dly := 0, scp := 0, str := 0, off := 128 }) ∧
    decode 0x800000000031810881#128 = .instr (.vgather { d := 1, a := 6, b := 3, c := 0, e := 0, g1 := 0, g2 := 0, ty := 0, ch := 0, yld := 0, dly := 0, scp := 0, str := 0, off := 128 }) ∧
    decode 0x800040000001820C81#128 = .instr (.vldw { d := 2, a := 6, b := 0, c := 0, e := 0, g1 := 0, g2 := 0, ty := 1, ch := 0, yld := 0, dly := 0, scp := 0, str := 0, off := 128 }) ∧
    decode 0x800000000031811081#128 = .instr (.vldl { d := 1, a := 6, b := 3, c := 0, e := 0, g1 := 0, g2 := 0, ty := 0, ch := 0, yld := 0, dly := 0, scp := 0, str := 0, off := 128 }) ∧
    decode 0x4000800000000401800085#128 = .instr (.vst { d := 0, a := 6, b := 0, c := 1, e := 0, g1 := 0, g2 := 0, ty := 0, ch := 0, yld := 0, dly := 0, scp := 0, str := 4, off := 128 }) ∧
    decode 0x4000800000000471800485#128 = .instr (.vsts { d := 0, a := 6, b := 7, c := 1, e := 0, g1 := 0, g2 := 0, ty := 0, ch := 0, yld := 0, dly := 0, scp := 0, str := 4, off := 128 }) ∧
    decode 0x4000800000000431800885#128 = .instr (.vscatter { d := 0, a := 6, b := 3, c := 1, e := 0, g1 := 0, g2 := 0, ty := 0, ch := 0, yld := 0, dly := 0, scp := 0, str := 4, off := 128 }) ∧
    decode 0x800000000431800C85#128 = .instr (.vstl { d := 0, a := 6, b := 3, c := 1, e := 0, g1 := 0, g2 := 0, ty := 0, ch := 0, yld := 0, dly := 0, scp := 0, str := 0, off := 128 }) ∧
    decode 0x2071800091#128 = .instr (.tld { d := 0, a := 6, b := 7, c := 8, e := 0, g1 := 0, g2 := 0, ty := 0, ch := 0, yld := 0, dly := 0, scp := 0, str := 0, off := 0 }) ∧
    decode 0x4000000000002071800491#128 = .instr (.tst { d := 0, a := 6, b := 7, c := 8, e := 0, g1 := 0, g2 := 0, ty := 0, ch := 0, yld := 0, dly := 0, scp := 0, str := 4, off := 0 }) ∧
    decode 0x2071800891#128 = .instr (.tldSplit { d := 0, a := 6, b := 7, c := 8, e := 0, g1 := 0, g2 := 0, ty := 0, ch := 0, yld := 0, dly := 0, scp := 0, str := 0, off := 0 }) ∧
    decode 0x4000000000002071800C91#128 = .instr (.tstSplit { d := 0, a := 6, b := 7, c := 8, e := 0, g1 := 0, g2 := 0, ty := 0, ch := 0, yld := 0, dly := 0, scp := 0, str := 4, off := 0 }) ∧
    decode 0x20718500A1#128 = .instr (.ldsum { d := 5, a := 6, b := 7, c := 8, e := 0, g1 := 0, g2 := 0, ty := 0, ch := 0, yld := 0, dly := 0, scp := 0, str := 0, off := 0 }) :=
  ⟨rfl, rfl, rfl, rfl, rfl, rfl, rfl, rfl, rfl, rfl, rfl, rfl, rfl, rfl, rfl, rfl, rfl⟩

/-- The words of the matrix instructions (R218), by the field positions of R81 to R89 and the maps of R95 to R97. -/
theorem test_decode_matrix :
    decode 0x50000000000050082#128 = .instr (.mclaim { d := 5, a := 0, b := 0, c := 0, e := 0, g1 := 0, g2 := 0, ty := 0, ch := 0, yld := 0, dly := 0, tail := 5 }) ∧
    decode 0x50000000000000482#128 = .instr (.mrel { d := 0, a := 0, b := 0, c := 0, e := 0, g1 := 0, g2 := 0, ty := 0, ch := 0, yld := 0, dly := 0, tail := 5 }) ∧
    decode 0x20000000000000882#128 = .instr (.macz { d := 0, a := 0, b := 0, c := 0, e := 0, g1 := 0, g2 := 0, ty := 0, ch := 0, yld := 0, dly := 0, tail := 2 }) ∧
    decode 0x890000000000000000071800086#128 = .instr (.mld { d := 0, a := 6, b := 7, c := 0, e := 0, g1 := 0, g2 := 0, ty := 0, ch := 0, yld := 0, dly := 0, acc := 0, slot := 0, mm1 := 0, nm1 := 0, kg := 0, fmta := 9, aoff := 8 }) ∧
    decode 0xC0000000071800486#128 = .instr (.wload { d := 0, a := 6, b := 7, c := 0, e := 0, g1 := 0, g2 := 0, ty := 0, ch := 0, yld := 0, dly := 0, acc := 0, slot := 3, mm1 := 0, nm1 := 0, kg := 0, fmta := 0, aoff := 0 }) ∧
    decode 0x910023F8FE9000000000000008A#128 = .instr (.mma { d := 0, a := 0, b := 0, c := 0, e := 0, g1 := 0, g2 := 0, ty := 0, ch := 0, yld := 0, dly := 0, acc := 1, slot := 2, mm1 := 127, nm1 := 127, kg := 1, fmta := 1, aoff := 9 }) ∧
    decode 0x910023F8FE9000000000180008E#128 = .instr (.mseq { d := 0, a := 6, b := 0, c := 0, e := 0, g1 := 0, g2 := 0, ty := 0, ch := 0, yld := 0, dly := 0, acc := 1, slot := 2, mm1 := 127, nm1 := 127, kg := 1, fmta := 1, aoff := 9 }) ∧
    decode 0x20040400001830092#128 = .instr (.macrd { d := 3, a := 6, b := 0, c := 0, e := 0, g1 := 1, g2 := 0, ty := 1, ch := 0, yld := 0, dly := 0, acc := 2, slot := 0, mm1 := 0, nm1 := 0, kg := 0, fmta := 0, aoff := 0 }) ∧
    decode 0x20040400031800492#128 = .instr (.macwr { d := 0, a := 6, b := 3, c := 0, e := 0, g1 := 1, g2 := 0, ty := 1, ch := 0, yld := 0, dly := 0, acc := 2, slot := 0, mm1 := 0, nm1 := 0, kg := 0, fmta := 0, aoff := 0 }) ∧
    decode 0x910023F8FE90000000000040096#128 = .instr (.mfol { d := 4, a := 0, b := 0, c := 0, e := 0, g1 := 0, g2 := 0, ty := 0, ch := 0, yld := 0, dly := 0, acc := 1, slot := 2, mm1 := 127, nm1 := 127, kg := 1, fmta := 1, aoff := 9 }) :=
  ⟨rfl, rfl, rfl, rfl, rfl, rfl, rfl, rfl, rfl, rfl⟩

/-- The words of copies, level blocks and the gateway queue, by the field positions of R81 to R89 and the maps of R95 to R97. -/
theorem test_decode_copy :
    decode 0xC004700000A24818500C2#128 = .instr (.cpy { d := 5, a := 6, b := 8, c := 9, e := 10, g1 := 0, g2 := 0, ty := 0, ch := 0, yld := 0, dly := 0, val := 7, cw := 1, bar := 0, be := 0, fe := 0, fol := 0, str := 3, ast := 0, pool := 0, ring := 0, bsz := 0 }) ∧
    decode 0x18504C2#128 = .instr (.cpyq { d := 5, a := 6, b := 0, c := 0, e := 0, g1 := 0, g2 := 0, ty := 0, ch := 0, yld := 0, dly := 0, tail := 0 }) ∧
    decode 0x28058C004700000A24818500C6#128 = .instr (.cpyt { d := 5, a := 6, b := 8, c := 9, e := 10, g1 := 0, g2 := 0, ty := 0, ch := 0, yld := 0, dly := 0, val := 7, cw := 1, bar := 0, be := 0, fe := 0, fol := 0, str := 3, ast := 0, pool := 11, ring := 0, bsz := 5 }) ∧
    decode 0x29858C004700000A24818504C6#128 = .instr (.cpytCow { d := 5, a := 6, b := 8, c := 9, e := 10, g1 := 0, g2 := 0, ty := 0, ch := 0, yld := 0, dly := 0, val := 7, cw := 1, bar := 0, be := 0, fe := 0, fol := 0, str := 3, ast := 0, pool := 11, ring := 12, bsz := 5 }) ∧
    decode 0x300000000000500E2#128 = .instr (.lvrd { d := 5, a := 0, b := 0, c := 0, e := 0, g1 := 0, g2 := 0, ty := 0, ch := 0, yld := 0, dly := 0, tail := 3 }) ∧
    decode 0x18504E2#128 = .instr (.lvnb { d := 5, a := 6, b := 0, c := 0, e := 0, g1 := 0, g2 := 0, ty := 0, ch := 0, yld := 0, dly := 0, tail := 0 }) ∧
    decode 0x18008E2#128 = .instr (.lvnext { d := 0, a := 6, b := 0, c := 0, e := 0, g1 := 0, g2 := 0, ty := 0, ch := 0, yld := 0, dly := 0, tail := 0 }) ∧
    decode 0x18500F2#128 = .instr (.gwqTake { d := 5, a := 6, b := 0, c := 0, e := 0, g1 := 0, g2 := 0, ty := 0, ch := 0, yld := 0, dly := 0, tail := 0 }) ∧
    decode 0x100000000000500F2#128 = .instr (.gwqCount { d := 5, a := 0, b := 0, c := 0, e := 0, g1 := 0, g2 := 0, ty := 0, ch := 0, yld := 0, dly := 0, tail := 1 }) :=
  ⟨rfl, rfl, rfl, rfl, rfl, rfl, rfl, rfl, rfl⟩

/-- The layout example of 04 R108 and its neighbours: `mov x5, 3`, `add x5, x5, 4 ?m2`, `add x5, x5, x5 ?!m2`,
`shl x6, x5, 2`, and the words of the scalar example of 05: `div x6, x5, x0`, `movh x8, 0x8000_0000`, `div x9, x8, -1`,
`sub.sat x10, x0, x8`, `ins x11, x5, 8, 4`, `cvt.i64.f64.ru x18, x14`, `mfsr x17, 0`. -/
theorem test_worked_scalar_words :
    decode 0x0000000300001424#128 = .instr (.addImm { rd := 5, rs1 := 0, rs2 := 0, imm := 3 }) ∧
    decode 0x00000004000080000145000D#128 = .instr (.guardedAluImm 0
      { d := 5, a := 5, b := 0, c := 0, e := 0, g1 := 2, g2 := 0, ty := 0, ch := 0, yld := 0, dly := 0, imm := 4 }) ∧
    decode 0x000000000002800051450009#128 = .instr (.guardedAluReg 0
      { d := 5, a := 5, b := 5, c := 0, e := 0, g1 := 10, g2 := 0, ty := 0, ch := 0, yld := 0, dly := 0, imm := 0 }) ∧
    decode 0x0000000250051824#128 = .instr (.shlImm { rd := 6, rs1 := 5, rs2 := 0, imm := 2 }) ∧
    decode 0x00000000B0051820#128 = .instr (.div { rd := 6, rs1 := 5, rs2 := 0, imm := 0 }) ∧
    decode 0x8000000010002038#128 = .instr (.movh { rd := 8, rs1 := 0, rs2 := 0, imm := 0x80000000 }) ∧
    decode 0xFFFFFFFFB0082424#128 = .instr (.divImm { rd := 9, rs1 := 8, rs2 := 0, imm := 0xFFFFFFFF }) ∧
    decode 0x0000000072002828#128 = .instr (.subSat { rd := 10, rs1 := 0, rs2 := 8, imm := 0 }) ∧
    decode 0x000000C820052C34#128 = .instr (.ins { rd := 11, rs1 := 5, rs2 := 0, imm := 200 }) ∧
    decode 0x00000002200E48B4#128 = .instr (.cvtI64F64 { rd := 18, rs1 := 14, rs2 := 0, imm := 2 }) ∧
    decode 0x0000000050004404#128 = .instr (.mfsr { rd := 17, rs1 := 0, rs2 := 0, imm := 0 }) :=
  ⟨rfl, rfl, rfl, rfl, rfl, rfl, rfl, rfl, rfl, rfl, rfl⟩

/-- Words of the vector and memory examples of 06, 07, 15 and 18: `fmt sh8, x21`, `vqsh [x22], v1`, `vdqsh v3, [x22]`,
`vbcast.f32 v2, 1.0`, `vbaq [x22], v2`, `stl.pk [x21], x6`, `tst [x21], [x20], x22`, `tld [x24], [x25], x23`,
`lda.co x5, [x10]`, `cas.die x8, [x26], x9`, `amo.add.die x12, [x26], x6`, `st [x50+0x40], x0`. -/
theorem test_worked_memory_words :
    decode 0x0000000010150010#128 = .instr (.fmt 1 { rd := 0, rs1 := 21, rs2 := 0, imm := 0 }) ∧
    decode 0x00000000000000001580005D#128 = .instr (.vqsh
      { d := 0, a := 22, b := 1, c := 0, e := 0, g1 := 0, g2 := 0, ty := 0, ch := 0, yld := 0, dly := 0, scp := 0, str := 0, off := 0 }) ∧
    decode 0x00000000000000000583045D#128 = .instr (.vdqsh
      { d := 3, a := 22, b := 0, c := 0, e := 0, g1 := 0, g2 := 0, ty := 0, ch := 0, yld := 0, dly := 0, scp := 0, str := 0, off := 0 }) ∧
    decode 0x3F800000004000000002084D#128 = .instr (.vbcast
      { d := 2, a := 0, b := 0, c := 0, e := 0, g1 := 0, g2 := 0, ty := 1, ch := 0, yld := 0, dly := 0, imm := 0x3F800000 }) ∧
    decode 0x00000000000000002580085D#128 = .instr (.vbaq
      { d := 0, a := 22, b := 2, c := 0, e := 0, g1 := 0, g2 := 0, ty := 0, ch := 0, yld := 0, dly := 0, scp := 0, str := 0, off := 0 }) ∧
    decode 0x0400000001950074#128 = .instr (.stl 0 { rd := 0, rs1 := 21, rs2 := 6, ch := 0, scp := 4, str := 0, off := 0 }) ∧
    decode 0x000000000000005945400491#128 = .instr (.tst
      { d := 0, a := 21, b := 20, c := 22, e := 0, g1 := 0, g2 := 0, ty := 0, ch := 0, yld := 0, dly := 0, scp := 0, str := 0, off := 0 }) ∧
    decode 0x000000000000005D96000091#128 = .instr (.tld
      { d := 0, a := 24, b := 25, c := 23, e := 0, g1 := 0, g2 := 0, ty := 0, ch := 0, yld := 0, dly := 0, scp := 0, str := 0, off := 0 }) ∧
    decode 0x01000000000A1470#128 = .instr (.lda 0 { rd := 5, rs1 := 10, rs2 := 0, ch := 0, scp := 1, str := 0, off := 0 }) ∧
    decode 0x03000000025A2088#128 = .instr (.cas { rd := 8, rs1 := 26, rs2 := 9, ch := 0, scp := 3, str := 0, off := 0 }) ∧
    decode 0x03000000019A3080#128 = .instr (.amoAdd { rd := 12, rs1 := 26, rs2 := 6, ch := 0, scp := 3, str := 0, off := 0 }) ∧
    decode 0x0000004000320064#128 = .instr (.st 0 { rd := 0, rs1 := 50, rs2 := 0, ch := 0, scp := 0, str := 0, off := 0x40 }) :=
  ⟨rfl, rfl, rfl, rfl, rfl, rfl, rfl, rfl, rfl, rfl, rfl, rfl⟩

/-- The extended forms written out in 04 (R91), 08 (R218) and 08's copy-on-write problem: `vexpr.f32 v5, v1, v2, v0, v0, 1.4427,
(a k mul neg ex2 b add rcp)`, `mma.sh8 a1, 2, 128, 128, 64, x9` and the `cpyt.cow`. -/
theorem test_worked_extended_words :
    decode 0x0000E62FC8513FB90040000020450042#128 = .instr (.vexpr
      { d := 5, a := 1, b := 2, c := 0, e := 0, g1 := 0, g2 := 0, ty := 1, ch := 0, yld := 0, dly := 0, kbf := 0x3FB9
        tok := 0x0000E62FC851 }) ∧
    decode 0x00000910023F8FE9000000000000008A#128 = .instr (.mma
      { d := 0, a := 0, b := 0, c := 0, e := 0, g1 := 0, g2 := 0, ty := 0, ch := 0, yld := 0, dly := 0, acc := 1, slot := 2
        mm1 := 127, nm1 := 127, kg := 1, fmta := 1, aoff := 9 }) ∧
    decode 0x00000001A600005000000E3CB28704C6#128 = .instr (.cpytCow
      { d := 7, a := 10, b := 11, c := 15, e := 14, g1 := 0, g2 := 0, ty := 0, ch := 0, yld := 0, dly := 0, val := 16, cw := 1
        bar := 0, be := 0, fe := 0, fol := 0, str := 0, ast := 0, pool := 12, ring := 13, bsz := 0 }) :=
  ⟨rfl, rfl, rfl⟩

/-- Well-formedness refuses a short word with a set reserved field (R94 step 5): an unused rs2, an unused rd, a set bit above
the SEL of `ext` (R118), a field that reaches beyond bit 63 (R118), a shift count above 63 (R114), a set bit above the number
of `mfsr`, and a Δ for a format that has none (R126). -/
theorem test_illFormed_short :
    (Instr.addImm { rd := 5, rs1 := 0, rs2 := 1, imm := 3 }).wf = false ∧
    (Instr.hend { rd := 1, rs1 := 0, rs2 := 0, imm := 0 }).wf = false ∧
    (Instr.ext { rd := 5, rs1 := 6, rs2 := 0, imm := 0x1000 }).wf = false ∧
    (Instr.ext { rd := 5, rs1 := 6, rs2 := 0, imm := 60 + 64 * 4 }).wf = false ∧
    (Instr.ext { rd := 5, rs1 := 6, rs2 := 0, imm := 60 + 64 * 3 }).wf = true ∧
    (Instr.shlImm { rd := 5, rs1 := 6, rs2 := 0, imm := 64 }).wf = false ∧
    (Instr.shlImm { rd := 5, rs1 := 6, rs2 := 0, imm := 63 }).wf = true ∧
    (Instr.mfsr { rd := 5, rs1 := 0, rs2 := 0, imm := 0x100 }).wf = false ∧
    (Instr.fmt 4 { rd := 0, rs1 := 20, rs2 := 0, imm := 3 }).wf = false ∧
    (Instr.fmt 10 { rd := 0, rs1 := 20, rs2 := 0, imm := 0 }).wf = false ∧
    (Instr.st 0 { rd := 1, rs1 := 5, rs2 := 6, ch := 0, scp := 0, str := 0, off := 0 }).wf = false :=
  ⟨rfl, rfl, rfl, rfl, rfl, rfl, rfl, rfl, rfl, rfl, rfl⟩

/-- Well-formedness refuses a memory word whose CH, SCP, STR or OFF is outside the instruction's limits (R92, R170): a load
policy above 5, a store policy above 4, a scope on a plain load, no scope and scope 6 on an ordered one, a stream on a load,
an offset on `fence`. -/
theorem test_illFormed_memory :
    (Instr.ld 3 { rd := 5, rs1 := 6, rs2 := 0, ch := 6, scp := 0, str := 0, off := 0 }).wf = false ∧
    (Instr.ld 3 { rd := 5, rs1 := 6, rs2 := 0, ch := 5, scp := 0, str := 0, off := 0 }).wf = true ∧
    (Instr.st 3 { rd := 0, rs1 := 6, rs2 := 7, ch := 5, scp := 0, str := 0, off := 0 }).wf = false ∧
    (Instr.ld 3 { rd := 5, rs1 := 6, rs2 := 0, ch := 0, scp := 1, str := 0, off := 0 }).wf = false ∧
    (Instr.lda 3 { rd := 5, rs1 := 6, rs2 := 0, ch := 0, scp := 0, str := 0, off := 0 }).wf = false ∧
    (Instr.lda 3 { rd := 5, rs1 := 6, rs2 := 0, ch := 0, scp := 6, str := 0, off := 0 }).wf = false ∧
    (Instr.lda 3 { rd := 5, rs1 := 6, rs2 := 0, ch := 0, scp := 5, str := 0, off := 0 }).wf = true ∧
    (Instr.ld 3 { rd := 5, rs1 := 6, rs2 := 0, ch := 0, scp := 0, str := 1, off := 0 }).wf = false ∧
    (Instr.fence { rd := 0, rs1 := 0, rs2 := 0, ch := 0, scp := 2, str := 0, off := 4 }).wf = false ∧
    (Instr.ldk 3 { rd := 5, rs1 := 6, rs2 := 0, ch := 1, scp := 0, str := 0, off := 0 }).wf = false :=
  ⟨rfl, rfl, rfl, rfl, rfl, rfl, rfl, rfl, rfl, rfl⟩

/-- Well-formedness refuses a long word with guard code 8, an element type the row does not take, mask code 8 in g2, a set
field the row does not use, a v register above 31 or odd under ty 100 (R85), a mask quad 0, a rounding nibble above 7 and a
set stream on a vector load (R83 to R88, R94). -/
theorem test_illFormed_long :
    (Instr.guardedAluReg 0 { d := 5, a := 5, b := 5, c := 0, e := 0, g1 := 8, g2 := 0, ty := 0, ch := 0, yld := 0, dly := 0, imm := 0 }).wf = false ∧
    (Instr.guardedAluReg 0 { d := 5, a := 5, b := 5, c := 0, e := 0, g1 := 1, g2 := 0, ty := 1, ch := 0, yld := 0, dly := 0, imm := 0 }).wf = false ∧
    (Instr.guardedAluReg 0 { d := 5, a := 5, b := 5, c := 1, e := 0, g1 := 1, g2 := 0, ty := 0, ch := 0, yld := 0, dly := 0, imm := 0 }).wf = false ∧
    (Instr.csel { d := 5, a := 5, b := 5, c := 0, e := 0, g1 := 0, g2 := 8, ty := 0, ch := 0, yld := 0, dly := 0, imm := 0 }).wf = false ∧
    (Instr.vaddInt { d := 32, a := 1, b := 2, c := 0, e := 0, g1 := 0, g2 := 0, ty := 0, ch := 0, yld := 0, dly := 0, imm := 0 }).wf = false ∧
    (Instr.vaddF { d := 2, a := 1, b := 2, c := 0, e := 0, g1 := 0, g2 := 0, ty := 4, ch := 0, yld := 0, dly := 0, imm := 0 }).wf = false ∧
    (Instr.vaddF { d := 2, a := 4, b := 2, c := 0, e := 0, g1 := 0, g2 := 0, ty := 4, ch := 0, yld := 0, dly := 0, imm := 0 }).wf = true ∧
    (Instr.vaddF { d := 2, a := 1, b := 2, c := 0, e := 0, g1 := 0, g2 := 8, ty := 1, ch := 0, yld := 0, dly := 0, imm := 0 }).wf = false ∧
    (Instr.vcmpEq { d := 0, a := 1, b := 2, c := 0, e := 0, g1 := 0, g2 := 0, ty := 0, ch := 0, yld := 0, dly := 0, imm := 0 }).wf = false :=
  ⟨rfl, rfl, rfl, rfl, rfl, rfl, rfl, rfl, rfl⟩

/-- Well-formedness refuses an extended word outside its limits: an expression whose tokens leave no value, or two, or begin
with token 0, or that names a register no token reads (R91, R160); an `mma` of 129 rows, of format 0 or 10 (R218); a set
reserved tail bit is no part of a term. -/
theorem test_illFormed_extended :
    (Instr.vexpr { d := 5, a := 1, b := 0, c := 0, e := 0, g1 := 0, g2 := 0, ty := 1, ch := 0, yld := 0, dly := 0, kbf := 0, tok := 0x11 }).wf = false ∧
    (Instr.vexpr { d := 5, a := 1, b := 0, c := 0, e := 0, g1 := 0, g2 := 0, ty := 1, ch := 0, yld := 0, dly := 0, kbf := 0, tok := 0 }).wf = false ∧
    (Instr.vexpr { d := 5, a := 1, b := 0, c := 0, e := 0, g1 := 0, g2 := 0, ty := 1, ch := 0, yld := 0, dly := 0, kbf := 0, tok := 0x6 }).wf = false ∧
    (Instr.vexpr { d := 5, a := 1, b := 2, c := 0, e := 0, g1 := 0, g2 := 0, ty := 1, ch := 0, yld := 0, dly := 0, kbf := 0, tok := 0x1 }).wf = false ∧
    (Instr.vexpr { d := 5, a := 1, b := 0, c := 0, e := 0, g1 := 0, g2 := 0, ty := 1, ch := 0, yld := 0, dly := 0, kbf := 1, tok := 0x1 }).wf = false ∧
    (Instr.mma { d := 0, a := 0, b := 0, c := 0, e := 0, g1 := 0, g2 := 0, ty := 0, ch := 0, yld := 0, dly := 0, acc := 0, slot := 0, mm1 := 128, nm1 := 127, kg := 0, fmta := 1, aoff := 9 }).wf = false ∧
    (Instr.mma { d := 0, a := 0, b := 0, c := 0, e := 0, g1 := 0, g2 := 0, ty := 0, ch := 0, yld := 0, dly := 0, acc := 0, slot := 0, mm1 := 127, nm1 := 127, kg := 0, fmta := 0, aoff := 9 }).wf = false ∧
    (Instr.mma { d := 0, a := 0, b := 0, c := 0, e := 0, g1 := 0, g2 := 0, ty := 0, ch := 0, yld := 0, dly := 0, acc := 0, slot := 0, mm1 := 127, nm1 := 127, kg := 0, fmta := 10, aoff := 9 }).wf = false ∧
    (Instr.cpyt { d := 7, a := 10, b := 11, c := 12, e := 14, g1 := 0, g2 := 0, ty := 0, ch := 0, yld := 0, dly := 0, val := 16, cw := 0, bar := 0, be := 0, fe := 0, fol := 0, str := 0, ast := 0, pool := 0, ring := 1, bsz := 0 }).wf = false ∧
    (Instr.gwqTake { d := 7, a := 0, b := 0, c := 0, e := 0, g1 := 0, g2 := 0, ty := 0, ch := 0, yld := 0, dly := 0, tail := 2 }).wf = false :=
  ⟨rfl, rfl, rfl, rfl, rfl, rfl, rfl, rfl, rfl, rfl⟩

/-- A constructor whose name fixes a special-register number is well formed with that number alone (R41, R128); an event of
the machine has no word and is not well formed. -/
theorem test_illFormed_number :
    (Instr.mtsrSr { rd := 0, rs1 := 3, rs2 := 0, imm := 1 }).wf = false ∧
    (Instr.mtsrSr { rd := 0, rs1 := 3, rs2 := 0, imm := 0 }).wf = true ∧
    (Instr.mtsr { rd := 0, rs1 := 3, rs2 := 0, imm := 0 }).wf = false ∧
    Instr.illegalOpcode.wf = false :=
  ⟨rfl, rfl, rfl, rfl⟩

/-- The decoder refuses by name: a code no map lists (R98), length code 11 (R78), guard code 8 (step 4), a reserved field
(step 5). -/
theorem test_decode_refuses :
    decode 0xF0000004#128 = .reject .illegalOpcode ∧
    decode 0x3#128 = .reject .illegalOpcode ∧
    decode 0x000000000002000051450009#128 = .reject .illegalOpcode ∧
    decode 0x0000000301001424#128 = .reject .reservedField :=
  ⟨rfl, rfl, rfl, rfl⟩

/-! ### Worked results: one step each, on small states -/

/-- A ready control context with some x registers. -/
def ctxOf (x : Tbl Word) : Ctx := { st := .ready, standing := .control, x := x }

/-- The package with one context, in slot 0 of core 0, whose first 2 MB of generic addresses are HBM at the same addresses. -/
def alone (c : Ctx) : State :=
  { State.reset with
    ctxs := [(0, c)]
    cores := [(0, { dtlb := [{ va := 0, size := 21, asid := 0, leaf := 0xDD }] })] }

/-- The next state of an outcome, or the reset state. -/
def next (o : Host.Outcome State Fault Refusal) : State :=
  match o with
  | .next t => t
  | _ => State.reset

/-- The context in slot 0 of core 0 after an instruction. -/
def after (i : Instr) (s : State) : Ctx := (next (exec i s)).ctx 0

/-- 05's worked example, a checkpoint after each step that has a listed value. -/
theorem test_scalar_edges :
    (after (.addImm { rd := 5, rs1 := 0, rs2 := 0, imm := 0xFFFFFFF9 }) (alone (ctxOf []))).xr 5 = 0xFFFFFFFFFFFFFFF9 ∧
    (after (.div { rd := 6, rs1 := 5, rs2 := 0, imm := 0 }) (alone (ctxOf [(5, 0xFFFFFFFFFFFFFFF9)]))).xr 6 = 0xFFFFFFFFFFFFFFFF ∧
    (after (.rem { rd := 7, rs1 := 5, rs2 := 0, imm := 0 }) (alone (ctxOf [(5, 0xFFFFFFFFFFFFFFF9)]))).xr 7 = 0xFFFFFFFFFFFFFFF9 ∧
    (after (.movh { rd := 8, rs1 := 0, rs2 := 0, imm := 0x80000000 }) (alone (ctxOf []))).xr 8 = 0x8000000000000000 ∧
    (after (.divImm { rd := 9, rs1 := 8, rs2 := 0, imm := 0xFFFFFFFF }) (alone (ctxOf [(8, 0x8000000000000000)]))).xr 9 = 0x8000000000000000 ∧
    (after (.subSat { rd := 10, rs1 := 0, rs2 := 8, imm := 0 }) (alone (ctxOf [(8, 0x8000000000000000)]))).xr 10 = 0x7FFFFFFFFFFFFFFF ∧
    (after (.ins { rd := 11, rs1 := 5, rs2 := 0, imm := 200 }) (alone (ctxOf [(5, 0xFFFFFFFFFFFFFFF9)]))).xr 11 = 0x900 ∧
    (after (.ext { rd := 12, rs1 := 11, rs2 := 0, imm := 200 }) (alone (ctxOf [(11, 0x900)]))).xr 12 = 0xFFFFFFFFFFFFFFF9 :=
  ⟨rfl, rfl, rfl, rfl, rfl, rfl, rfl, rfl⟩

/-- The conversions and the division of 05's worked example: 2.5 to 2 and inexact, to 3 upward, and 2.5 / +0 is +∞ with DZ
(R45, R47, R52, R61). -/
theorem test_scalar_float_edges :
    (let c := after (.cvtI64F64 { rd := 15, rs1 := 14, rs2 := 0, imm := 0 }) (alone (ctxOf [(14, 0x4004000000000000)]))
     c.xr 15 = 2 ∧ c.sr.getLsbD 2 = true) ∧
    (after (.cvtI64F64 { rd := 18, rs1 := 14, rs2 := 0, imm := 2 }) (alone (ctxOf [(14, 0x4004000000000000)]))).xr 18 = 3 ∧
    (let c := after (.fdiv { rd := 16, rs1 := 14, rs2 := 0, imm := 0 }) (alone (ctxOf [(14, 0x4004000000000000)]))
     c.xr 16 = 0x7FF0000000000000 ∧ c.sr.getLsbD 5 = true) :=
  ⟨⟨rfl, rfl⟩, rfl, ⟨rfl, rfl⟩⟩

/-- A context that holds one lane group and has one vector instruction in flight. -/
def flying (op : VOp) (dra drb : Word) (pfx : Option Word) (v : Tbl Lane) : Ctx :=
  { ctxOf [] with
    grant := 1, v := v
    pend := [{ seq := 0, op := op, pc := 0, w := 0, dra := dra, drb := drb, x := [], pfx := pfx, priv := 0, queued := false, req := none, grant := 1 }] }

/-- The memory word of a test's vector instruction. -/
def mword (d a b : BitVec 6) : LgM :=
  { d := d, a := a, b := b, c := 0, e := 0, g1 := 0, g2 := 0, ty := 0, ch := 0, yld := 0, dly := 0, scp := 0, str := 0, off := 0 }

/-- The seven values of 02's worked SH8 block, in v1. -/
def shSource : Tbl Lane :=
  [(256, 0x40400000), (257, 0xBE200000), (258, 0x3A800000), (259, 0x3F840000), (260, 0x4039999A), (261, 0x3D4CCCCD), (262, 0x80000000)]

/-- 06's worked problem, `vqsh`: the block and its scale pair, and NX. -/
theorem test_vqsh :
    let t := next (exec (.vectorRetire 0) (alone (flying (.quant 0 (mword 0 22 1)) 0x1000 0x2000 (some 0x151) shSource)))
    t.bytes 0x1000 32 = [0x70, 0xC2, 0x01, 0x50, 0x6E, 0x33, 0, 0] ++ List.replicate 24 0 ∧ t.bytes 0x2000 2 = [0x80, 0x7A] ∧
      (t.ctx 0).sr = 4 := by decide +kernel

/-- The block that `test_vqsh` leaves, with the scale pair, as bytes of memory. -/
def shBlock : List Host.Cell :=
  [(0x1000, 0x70), (0x1001, 0xC2), (0x1002, 0x01), (0x1003, 0x50), (0x1004, 0x6E), (0x1005, 0x33), (0x2000, 0x80), (0x2001, 0x7A)]

/-- 06's worked problem, `vdqsh` of that block: the decoded lanes. -/
theorem test_vdqsh :
    let s := { alone (flying (.quant 1 (mword 3 22 0)) 0x1000 0x2000 (some 0x151) []) with mem := shBlock }
    (List.range 7).map (((next (exec (.vectorRetire 0) s)).ctx 0).vr 3) =
      [0x40400000, 0xBE000000, 0x3A800000, 0x3F800000, 0x40380000, 0x3D4C0000, 0] := by decide +kernel

/-- 06's worked problem, `vbaq` of 1.0 in every lane: the block and its scale pair, and NX. -/
theorem test_vbaq :
    let ones : Tbl Lane := (List.range 32).map fun i => (512 + i, 0x3F800000)
    let t := next (exec (.vectorRetire 0) { alone (flying (.quant 2 (mword 0 22 2)) 0x1000 0x2000 (some 0x151) ones) with mem := shBlock })
    t.bytes 0x1000 32 = [0x60, 0x47, 0x48, 0x50, 0x5F, 0x48, 0x48, 0x48] ++ List.replicate 24 0x48 ∧ t.bytes 0x2000 2 = [0x81, 0x7B] ∧
      (t.ctx 0).sr = 4 := by decide +kernel

/-- The register word of a test's vector instruction, of an element type. -/
def lword (d a b : BitVec 6) (ty : BitVec 3) : Lg :=
  { d := d, a := a, b := b, c := 0, e := 0, g1 := 0, g2 := 0, ty := ty, ch := 0, yld := 0, dly := 0, imm := 0 }

/-- R149 on packed elements: a sum of bytes wraps within each byte and carries into no other; R150: a sum of binary32 rounds
to nearest even and is inexact; R151: a comparison writes its bit and clears the quad's bits of inactive lanes. -/
theorem test_vector_lanes :
    ((next (exec (.vectorRetire 0) (alone (flying (.int 0 (lword 3 1 2 5)) 0 0 none [(256, 0xFF01FE02), (512, 0x01010203)])))).ctx 0).vr 3 0 =
      0x00020005 ∧
    (let c := (next (exec (.vectorRetire 0) (alone (flying (.float 0 (lword 3 1 2 1)) 0 0 none [(256, 0x4B800000), (512, 0x3F800000)])))).ctx 0
     c.vr 3 0 = 0x4B800000 ∧ c.sr = 4) ∧
    (let c := (next (exec (.vectorRetire 0) (alone { flying (.cmp 2 (lword 1 1 2 0)) 0 0 none [(257, 0xFFFFFFFF), (512, 5)] with
        x := [(36, 0xFF), (37, 0xFF)] }))).ctx 0
     c.xr 36 = 3 ∧ c.xr 37 = 0) := by decide +kernel

/-- The trap registers of 01's worked example after entry: ECAUSE 0x0000_0001_0141_0005, ETVAL the address of the second group. -/
theorem test_imprecise_entry :
    let f : Trap := { kind := .imprecise, code := 5, sub := 0, val := 0x1010, seq := 0x141, tag := false, at' := 0x1010 }
    let c := (next (exec (.trapEntry 0) (alone { ctxOf [] with pc := 0x88, due := [f] }))).ctx 0
    c.ecause = 0x0000000101410005 ∧ c.etval = 0x1010 ∧ c.epc = 0x88 ∧ c.priv = 1 ∧ c.pp = false := by decide +kernel

/-- 01's worked example, the fault: the second group of a `vldw` of KV4 with VL = 64 lies in a page with V = 0 at PT0. The
instruction has no effect, the later one is cancelled, and PageInvalid of level 0 is due with its number. -/
theorem test_widening_load_faults :
    let pend := fun (seq : BitVec 16) (op : VOp) => ({ seq := seq, op := op, pc := 0, w := 0, dra := 0x1FFFF0, drb := 0x100, x := [], pfx := some 0x145, priv := 0, queued := false, req := none, grant := 2 } : Pend)
    let k : Cluster := { walk := [{ level := 1, asid := 0, tag := 1, table := 0x5000 }] }
    let s := { alone { ctxOf [] with grant := 2, pend := [pend 0x141 (.load 3 { mword 1 4 0 with ty := 1 }), pend 0x142 (.int 2 (lword 2 1 1 0))] } with clusters := [(0, k)] }
    let c := (next (exec (.vectorRetire 0) s)).ctx 0
    c.v = [] ∧ c.pend = [] ∧ c.due.map (fun t => (t.kind, t.code.toNat, t.sub.toNat, t.val.toNat, t.seq.toNat)) =
      [(.imprecise, 5, 0, 0x200000, 0x141)] := by decide +kernel

/-- A page table of four levels below its root at 0x10000, which maps the first 2 MB of a launch's addresses to themselves. -/
def smallTable : List Host.Cell :=
  [(0x10000, 0x03), (0x10001, 0x10), (0x10002, 0x01), (0x11000, 0x03), (0x11001, 0x20), (0x11002, 0x01),
   (0x12000, 0x03), (0x12001, 0x30), (0x12002, 0x01), (0x13000, 0xDD)]

/-- A launch record of the bytes given, the others 0. -/
def recordOf (bs : Tbl Byte) : List Byte := (List.range 128).map (Tbl.get 0 bs)

/-- The chain of three blocks of 11's worked example at given levels: the block table at 0x20000, the neighbour lists at
0x21000, and the steps 1, 2, 1. -/
def chainCells (l0 l1 l2 : BitVec 8) : List Host.Cell :=
  smallTable ++ (if l0 = 0 then [] else [(0x20000, l0)]) ++
  [(0x20004, 1), (0x20009, 1), (0x20019, 0x10), (0x2001A, 0x02)] ++ (if l1 = 0 then [] else [(0x20040, l1)]) ++
  [(0x20044, 2), (0x20049, 2), (0x2004C, 1), (0x20058, 0x04), (0x20059, 0x10), (0x2005A, 0x02)] ++
  (if l2 = 0 then [] else [(0x20080, l2)]) ++
  [(0x20084, 1), (0x20089, 1), (0x2008C, 2), (0x20098, 0x0C), (0x20099, 0x10), (0x2009A, 0x02), (0x21000, 1), (0x21008, 2), (0x2100C, 1)]

/-- The level launch of that example: cores 0 to 2, DMAX 1, the next-time-minimum rule, and a table floor. -/
def chain (det : Bool) (floor : BitVec 32) (l0 l1 l2 : BitVec 8) : State :=
  { State.reset with
    mem := chainCells l0 l1 l2
    launches := [(0, {
      st := .running, cores := [0, 1, 2], floor := floor, rules := [(0x4249, 0)]
      record := recordOf [(1, if det then 3 else 2), (0x0A, 1), (0x3A, 0x10), (0x42, 2), (0x48, 3)]
      groups := [{ g := 0, members := [0, 1, 2], rb := false, rcm := 0 }]
      bind := [(0, 0x8000), (1, 0x8001), (2, 0x8002)] })] }

/-- The blocks that an evaluation of die 0's scheduler dispatches. -/
noncomputable def dispatchedBlocks (s : State) : List (Option Nat) :=
  ([0, 1, 2].map fun core => ((next (exec (.blockDispatch 0 0) s)).ctx (16 * core)).blk)

/-- 11's worked example, in a deterministic launch: after the first two commits block 0 alone is dispatched. -/
theorem test_block_dispatch_det :
    dispatchedBlocks (chain true 2 1 0 1) = [some 0, none, none] := by decide +kernel

/-- 11's worked example in an ordinary launch: after both commit, block 2 is runnable beside block 0. -/
theorem test_block_dispatch_free :
    dispatchedBlocks (chain false 2 1 0 1) = [some 0, none, some 2] := by decide +kernel

/-- The table of R321: extents and origins of a grid of four. -/
theorem test_grid_tiles :
    let tile := fun (gdim : List (Nat × Byte)) (c : Nat) => ({ record := recordOf ([(0x18, 4)] ++ gdim) } : Launch).tile 0 c
    ((List.range 4).map (tile [(0x20, 0xE8), (0x21, 0x03)]) = [(0, 256), (256, 256), (512, 256), (768, 232)]) ∧
    ((List.range 4).map (tile [(0x20, 100)]) = [(0, 32), (32, 32), (64, 32), (96, 4)]) ∧
    ((List.range 4).map (tile [(0x20, 40)]) = [(0, 32), (32, 8), (40, 0), (40, 0)]) := by decide +kernel

/-- The binding entries of 16's worked example: slot 3 of core 554 and slot 1 of core 558. -/
theorem test_binding_entries :
    bindPlace 0x9A2A = some (keyOf 554 3) ∧ bindPlace 0x8A2E = some (keyOf 558 1) := ⟨rfl, rfl⟩

/-- 09's worked example: where the three addresses lead. -/
theorem test_three_addresses :
    (∃ t, (resolve ((alone (ctxOf [])).envOf 0) 0x0124820000000040 8 accRead).run (alone (ctxOf [])) =
      .ok (.bank (placeCluster 73 0x40)) t) ∧
    (∃ t, (resolve ((alone (ctxOf [])).envOf 0) 0x0192C60180000100 8 accRead).run (alone (ctxOf [])) =
      .ok (.window 0x0192C60180000100) t) ∧ windowDev 0x0192C60180000100 = 300 ∧
    homeDie 0x01234580 = some 2 := ⟨⟨_, rfl⟩, ⟨_, rfl⟩, rfl, rfl⟩

/-- The line of 15's problem. -/
def ln : Nat := 0x300001000

/-- 15's trace, steps 7 and 8: die 3 asks for the line that die 0 holds in O and die 2 in S; the home sends Inv to die 2 and FwdX
to die 0. -/
theorem test_trace_rdx :
    homeDie ln = some 1 ∧
    (let s := { State.reset with dir := [(ln, { owner := some 0, sharers := [2] })]
                                 dies := [(0, { lines := [(ln, 3)] }), (2, { lines := [(ln, 1)] })] }
     (next (exec (.rdx 3 ln) s)).msgs =
       [{ kind := 2, die := 2, line := ln, dirty := false }, { kind := 1, die := 0, line := ln, dirty := false }]) := by decide +kernel

/-- 15's trace, steps 12 to 14: die 3 holds M; on FwdS it keeps O and sends the data to die 2 and a dirty InvAck; the home then
records O with die 3 as owner and die 2 as sharer. -/
theorem test_trace_fwds :
    (let s := { State.reset with
       dir := [(ln, { owner := some 3 })], dies := [(3, { lines := [(ln, 4)] })]
       reqs := [{ die := 2, line := ln, kind := 0, acks := [3], kept := none, data := true }]
       msgs := [{ kind := 0, die := 3, line := ln, dirty := false }] }
     let t := next (exec (.fwds 3 ln) s)
     t.dieLine 3 ln = 3 ∧ t.msgs = [{ kind := 4, die := 2, line := ln, dirty := false, data := List.replicate 128 0 }, { kind := 3, die := 3, line := ln, dirty := true }]) ∧
    (let s := { State.reset with
       dir := [(ln, { owner := some 3 })], dies := [(2, { lines := [(ln, 1)] }), (3, { lines := [(ln, 3)] })]
       reqs := [{ die := 2, line := ln, kind := 0, acks := [3], kept := none, data := false }]
       msgs := [{ kind := 3, die := 3, line := ln, dirty := true }] }
     let t := next (exec (.invack 3 ln) s)
     (t.dirOf ln).owner = some 3 ∧ (t.dirOf ln).sharers = [2] ∧ t.reqs = []) := by decide +kernel

/-- 11's example under R316: A holds eight groups of the cluster, B and C have claimed four and two and hold none. A's `vrenew`
leaves it four; B's and C's then return two each. -/
theorem test_lane_sharing :
    let lanes := fun (g q : Nat) (w : Option Nat) => ({ ctxOf [] with grant := g, request := q, waitSince := w } : Ctx)
    let s := { State.reset with ctxs := [(0, lanes 8 8 none), (16, lanes 0 4 (some 1)), (32, lanes 0 2 (some 2))] }
    let renew := fun (k : Nat) (s : State) => next (exec (.vrenew { rd := 5, rs1 := 0, rs2 := 0, imm := 0 }) { s with cur := k })
    let a := renew 0 s
    let b := renew 16 a
    let c := renew 32 b
    (a.ctx 0).xr 5 = 128 ∧ (b.ctx 16).xr 5 = 64 ∧ (c.ctx 32).xr 5 = 64 ∧ (c.ctx 0).grant = 4 := by decide +kernel

/-- R125: a taken `blt` of −1 and 0 goes to P + 4·DISP, an unsigned one goes on; `callr` links P + 8. -/
theorem test_branches :
    let s := alone { ctxOf [(5, 0xFFFFFFFFFFFFFFFF), (6, 0x203)] with pc := 0x1000 }
    (after (.blt { rd := 0, rs1 := 5, rs2 := 0, imm := 0xFFFFFFFC }) s).pc = 0xFF0 ∧
    (after (.bltu { rd := 0, rs1 := 5, rs2 := 0, imm := 0xFFFFFFFC }) s).pc = 0x1008 ∧
    (let c := after (.callr { rd := 1, rs1 := 6, rs2 := 0, imm := 1 }) s
     c.pc = 0x204 ∧ c.xr 1 = 0x1008) ∧
    (let c := after (.jr { rd := 0, rs1 := 6, rs2 := 0, imm := 0 }) s
     c.ecause = 0x204 ∧ c.etval = 0x203 ∧ c.epc = 0x1000) := ⟨rfl, rfl, ⟨rfl, rfl⟩, ⟨rfl, rfl, rfl⟩⟩

/-- R171, R172: `ld.i16` sign-extends two bytes, lowest first; `st` of a byte changes one; an address that is no multiple of the
size raises Misaligned with SUB log₂ size (R169). -/
theorem test_loads_and_stores :
    let s := { alone (ctxOf [(5, 0x1000), (6, 0xABCD)]) with mem := [(0x1002, 0x34), (0x1003, 0x92)] }
    let o : ShM := { rd := 7, rs1 := 5, rs2 := 6, ch := 0, scp := 0, str := 0, off := 2 }
    (after (.ld 3 o) s).xr 7 = 0xFFFFFFFFFFFF9234 ∧ (after (.ld 4 o) s).xr 7 = 0x9234 ∧
    (next (exec (.st 1 o) s)).bytes 0x1000 4 = [0, 0, 0xCD, 0x92] ∧
    (let c := after (.ld 0 o) s
     c.ecause = 0x304 ∧ c.etval = 0x1002) := by decide +kernel

/-- R191: `amo.min.i32` compares signed and returns the old word sign-extended; `cas` stores only on a match. -/
theorem test_atomics :
    let s := { alone (ctxOf [(5, 0x1000), (6, 3), (7, 0xFFFFFFF0), (8, 0xFFFFFFF0)]) with
      mem := [(0x1000, 0xF0), (0x1001, 0xFF), (0x1002, 0xFF), (0x1003, 0xFF)] }
    let o : ShM := { rd := 9, rs1 := 5, rs2 := 6, ch := 0, scp := 0, str := 0, off := 0 }
    (let t := next (exec (.amoMinI32 o) s)
     (t.ctx 0).xr 9 = 0xFFFFFFFFFFFFFFF0 ∧ t.bytes 0x1000 4 = [0xF0, 0xFF, 0xFF, 0xFF]) ∧
    (let t := next (exec (.amoMinuI32 o) s)
     t.bytes 0x1000 4 = [3, 0, 0, 0]) ∧
    (let t := next (exec (.cas { o with rd := 7 }) s)
     (t.ctx 0).xr 7 = 0xFFFFFFF0 ∧ t.bytes 0x1000 4 = [3, 0, 0, 0]) ∧
    (next (exec (.cas { o with rd := 6 }) s)).bytes 0x1000 4 = [0xF0, 0xFF, 0xFF, 0xFF] := by decide +kernel

/-- R205, R206: `evs` sets a line and `evw` consumes it; the arrival that completes a counter's round returns the new round. -/
theorem test_event_unit :
    let o : Sh := { rd := 5, rs1 := 0, rs2 := 0, imm := 7 }
    (Tbl.get {} ((next (exec (.evs o) (alone (ctxOf [])))).cluster 0).lines 7 = { set := true, payload := 0 }) ∧
    (let t := next (exec (.evw o) { alone (ctxOf []) with clusters := [(0, { lines := [(7, { set := true, payload := 9 })] })] })
     (t.ctx 0).xr 5 = 9 ∧ (Tbl.get {} (t.cluster 0).lines 7).set = false) ∧
    (let s := { alone (ctxOf [(6, 0x00C0000000000000)]) with clusters := [(0, { counters := [(2, { round := 4, arrived := 1, expect := 2 })] })] }
     (after (.ld 0 { rd := 5, rs1 := 6, rs2 := 0, ch := 0, scp := 0, str := 0, off := 0x210 }) s).xr 5 = 5) := by decide +kernel

/-- R38's neighbour rules R31 and R27: `trap 7` completes, EPC is the next instruction, ECAUSE.SOFT is set, and the handler is at
TVEC. -/
theorem test_software_trap :
    let s := { alone { ctxOf [] with pc := 0x1000 } with cores := [(0, { tvec := 0x40C0 })] }
    let c := after (.trap { rd := 0, rs1 := 0, rs2 := 0, imm := 7 }) s
    c.epc = 0x1008 ∧ c.etval = 7 ∧ c.ecause = 0x200000015 ∧ c.pc = 0x40C0 ∧ c.priv = 1 := ⟨rfl, rfl, rfl, rfl, rfl⟩

/-- R127: `fmt sh6, x20, 3` records the prefix; a second one raises PrefixMisuse. -/
theorem test_prefix :
    let o : Sh := { rd := 0, rs1 := 20, rs2 := 0, imm := 3 }
    (let c := after (.fmt 2 o) (alone (ctxOf []))
     c.pfx = 0xD42 ∧ c.pp = true) ∧
    (after (.fmt 2 o) (alone { ctxOf [] with sr := 1 })).ecause = 0x0B := ⟨⟨rfl, rfl⟩, rfl⟩

/-- 02's worked example of the two classes: the products 1, 2⁻¹¹³, 2⁻¹¹³ and −1 add to +0 one by one, and to 2⁻¹¹² as one group. -/
theorem test_product_classes :
    let ps : List (Option FVal) := [some (.fin false 1 0), some (.fin false 1 (-113)), some (.fin false 1 (-113)), some (.fin true 1 0)] ++
      List.replicate 28 (some (.fin false 0 0))
    accumulate false 0 [ps] = 0 ∧ accumulate true 0 [ps] = 0x3F8F0000000000000000000000000000 := by decide +kernel

/-- 04's worked example of the layout around a fetch-block boundary. -/
theorem test_layout_block_boundary :
    asmLayout [[8], [8], [12], [12], [8], [8]]
      = [.unit [8], .unit [8], .nop, .nop, .unit [12], .unit [12], .unit [8], .unit [8]] := by decide

/-- R105: `mov` of a 64-bit value takes two words, and of a small one a single word. -/
theorem test_alias_mov :
    AsmAlias.emit (.movImm 5 0x123456789ABCDEF0) = [.movl ⟨5, 0, 0, 0x9ABCDEF0⟩, .movh ⟨5, 0, 0, 0x12345678⟩] ∧
      AsmAlias.emit (.movImm 5 3) = [.addImm ⟨5, 0, 0, 3⟩] := by decide

/-- R102: division truncates toward zero, a shift by 64 gives 0, and a remainder by zero is an error. -/
theorem test_assembler_expressions :
    (AsmExpr.bin .div (.neg (.const 7)) (.const 2)).value 0 = some (-3) ∧
      (AsmExpr.bin .shl (.const 1) (.const 64)).value 0 = some 0 ∧
      (AsmExpr.bin .rem (.const 1) (.const 0)).value 0 = none := by decide

/-- R110: pcrel32 counts words, and a distance that is no multiple of 4 is an error. -/
theorem test_relocation : asmReloc 2 0x40 0 0x50 = some 0xFFFFFFFC ∧ asmReloc 2 0x42 0 0x50 = none := by decide

/-! ### Witnesses: states and operands that meet the hypotheses of the statements -/

/-- A state for the scalar statements: sources in x5 and x6, a guard quad whose bit 0 is set (code 1) and one whose bit 0 is not
(code 2). -/
def plain : State := alone { ctxOf [(5, 0x1000), (6, 3), (7, 0x8000000000000000), (8, 0xFFFFFFFFFFFFFFFF), (36, 1), (63, 2)] with pc := 0x1000 }

/-- That state at privilege 1. -/
def super : State := alone { ctxOf [(5, 0x1000), (6, 3)] with pc := 0x1000, sr := 0x400 }

/-- It issues, at privilege 0 and 1. -/
theorem plain_issues : Issues plain ∧ Issues super := ⟨⟨rfl, rfl, rfl⟩, ⟨rfl, rfl, rfl⟩⟩

/-- Every register of it can be read, the first and the last among them. -/
theorem plain_readable : (∀ n < 64, Readable plain n) ∧ ∀ n < 64, Readable super n := by
  unfold Readable
  decide +kernel

/-- Witnesses of `DecodeEncode` and `EncodeDecode`. -/
theorem witness_encoding :
    (∃ (i : Instr) (w : BitVec 128) (n : Nat), i.wf = true ∧ encode i = some (w, n)) ∧ ∃ (w : BitVec 128) (i : Instr), decode w = .instr i :=
  ⟨⟨.addImm { rd := 5, rs1 := 0, rs2 := 0, imm := 3 }, 0x300001424, 8, rfl, rfl⟩, ⟨0x300001424, _, rfl⟩⟩

/-- Witnesses of `UnlistedCodesTrap`: an unlisted function code of a listed major, an unlisted major and length code 11. -/
theorem witness_UnlistedCodesTrap :
    listedCode 0xF0000004 = false ∧ listedCode 0x3FC = false ∧ listedCode 3 = false ∧ plain.mayIssue plain.cur = true ∧
      straddles plain.pc 0xF0000004 = false := ⟨rfl, rfl, rfl, rfl, rfl⟩

/-- Witnesses of `StepRuns`: a context whose next instruction is fetched, and an event. -/
theorem witness_StepRuns :
    (∃ (s t : State) (key : Nat) (rest : List Move) (w : BitVec 128) (i : Instr), s.agenda = .issue key :: rest ∧
      s.mayIssue key = true ∧ fetchWord.run (noteIssue key { s with agenda := rest }) = .ok w t ∧ straddles t.pc w = false ∧
      decode w = .instr i) ∧
    ∃ (s : State) (i : Instr) (rest : List Move), s.agenda = .event i :: rest ∧ i.raw = none :=
  ⟨⟨State.reset.withFetchWord 64 0x300001424, _, _, _, _, _, rfl, rfl, rfl, rfl, rfl⟩,
    ⟨{ State.reset with agenda := [.event .packageReset] }, _, _, rfl, rfl⟩⟩

/-- Guards of the guarded forms: code 0, a code whose quad enables, one whose complement does not, and one that disables. -/
theorem witness_guards :
    GuardReadable plain 0 ∧ GuardReadable plain 1 ∧ GuardReadable plain 9 ∧ GuardReadable plain 2 ∧ guardTrue plain 0 = true ∧
      guardTrue plain 1 = true ∧ guardTrue plain 9 = false ∧ guardTrue plain 2 = false :=
  ⟨fun h => absurd rfl h, fun _ => ⟨rfl, rfl⟩, fun _ => ⟨rfl, rfl⟩, fun _ => ⟨rfl, rfl⟩, rfl, rfl, rfl, rfl⟩

/-- Witnesses of `AluResults`, `CompareSaturateResults`, `UnaryResults` and `FloatResults`: two sources that can be read, the last
function codes, and the element types of `fma`. -/
theorem witness_alu :
    Issues plain ∧ Readable plain 5 ∧ Readable plain 6 ∧ Readable plain 63 ∧ (15#6).toNat < 16 ∧ (13#6).toNat < 14 ∧
      GuardReadable plain 9 ∧ ((1#3) = 1 ∨ (1#3) = 4) ∧ ((4#3) = 1 ∨ (4#3) = 4) :=
  ⟨⟨rfl, rfl, rfl⟩, ⟨rfl, rfl⟩, ⟨rfl, rfl⟩, ⟨rfl, rfl⟩, by decide, by decide, fun _ => ⟨rfl, rfl⟩, by decide, by decide⟩

/-- Witnesses of `DivisionCorners`: a divisor of 0, and the most negative number by −1. -/
theorem witness_DivisionCorners :
    Issues plain ∧ Readable plain 5 ∧ Readable plain 9 ∧ plain.x 9 = 0 ∧ Readable plain 7 ∧ Readable plain 8 ∧
      plain.x 7 = BitVec.intMin 64 ∧ plain.x 8 = BitVec.allOnes 64 :=
  ⟨⟨rfl, rfl, rfl⟩, ⟨rfl, rfl⟩, ⟨rfl, rfl⟩, rfl, ⟨rfl, rfl⟩, ⟨rfl, rfl⟩, rfl, rfl⟩

/-- Witnesses of `BitFields`: fields that end at bit 63, one that begins at bit 0 and one at bit 63; a word whose field reaches
beyond, and one with a set reserved bit. -/
theorem witness_BitFields :
    Issues plain ∧ Readable plain 5 ∧
    (let o : Sh := { rd := 6, rs1 := 5, rs2 := 0, imm := 63 * 64 }
     o.pos.toNat + o.wm1.toNat ≤ 63) ∧
    (let o : Sh := { rd := 6, rs1 := 5, rs2 := 0, imm := 63 }
     o.pos.toNat + o.wm1.toNat ≤ 63) ∧
    (let w : BitVec 128 := 0x0000007F20052C34
     w.toNat % 4 = 0 ∧ w.toNat / 4 % 256 = 0x0D ∧ w.toNat / 2 ^ 28 % 16 < 3 ∧ w.toNat / 2 ^ 32 % 64 + w.toNat / 2 ^ 38 % 64 > 63) ∧
    (let w : BitVec 128 := 0x0000100020052C34
     w.toNat % 4 = 0 ∧ w.toNat / 4 % 256 = 0x0D ∧ w.toNat / 2 ^ 28 % 16 < 3 ∧ w.toNat / 2 ^ 44 % 2 ^ 20 ≠ 0) :=
  ⟨⟨rfl, rfl, rfl⟩, ⟨rfl, rfl⟩, by decide +kernel, by decide +kernel, by decide +kernel, by decide +kernel⟩

/-- Witnesses of `MovesAndWideProducts`, `ZeroRegister` and `RegisterFrame`: readable sources, a readable destination, and x0 as
destination. -/
theorem witness_moves :
    Issues plain ∧ Readable plain 5 ∧ Readable plain 6 ∧ Readable plain 63 ∧ GuardReadable plain 1 ∧ GuardReadable plain 9 ∧
      ({ rd := 0, rs1 := 5, rs2 := 6, imm := 0 } : Sh).rd = 0 :=
  ⟨⟨rfl, rfl, rfl⟩, ⟨rfl, rfl⟩, ⟨rfl, rfl⟩, ⟨rfl, rfl⟩, fun _ => ⟨rfl, rfl⟩, fun _ => ⟨rfl, rfl⟩, rfl⟩

/-- A state with a poisoned x5 (of a line lost with a die) and an x6 that a vector instruction in flight will write. -/
def hazards : State :=
  alone { ctxOf [] with
    grant := 1, xp := [(5, 0x2001), (9, 0x2000)]
    pend := [{ seq := 0, op := .misc 4 (lword 6 1 0 0), pc := 0, w := 0, dra := 0, drb := 0, x := [], pfx := none, priv := 0, queued := false, req := none }] }

/-- Witnesses of `SourceHazards`: marked and awaited registers, behind one that can be read. -/
theorem witness_SourceHazards :
    Issues hazards ∧ (hazards.ctx hazards.cur).awaited 5 = false ∧ (hazards.ctx hazards.cur).mark 5 ≠ 0 ∧
      (hazards.ctx hazards.cur).mark 9 ≠ 0 ∧ (hazards.ctx hazards.cur).awaited 6 = true ∧ Readable hazards 8 ∧
      [8, 6, 5] = [8] ++ 6 :: [5] :=
  ⟨⟨rfl, rfl, rfl⟩, rfl, by decide +kernel, by decide +kernel, rfl, ⟨rfl, rfl⟩, rfl⟩

/-- Witnesses of its conditions on what reads its sources later: nothing in flight, no lanes to spill, privilege 1, a control
context, and guards that enable and disable. -/
theorem witness_SourceHazards_conditions :
    VectorsRetired plain ∧ (plain.ctx plain.cur).mig = false ∧ (plain.ctx plain.cur).spillDue = false ∧
      (super.ctx super.cur).priv ≠ 0 ∧ (plain.ctx plain.cur).standing = .control ∧ guarded plain 1 [5, 6] = [36, 5, 6] ∧
      guarded plain 9 [5, 6] = [36] ∧ shapeOK 0x0000000100000100 5 false = true := by
  unfold VectorsRetired
  decide +kernel

/-- Witnesses of `ZeroAndNanRules`: operands of each kind in binary64; a quiet and a signalling NaN. -/
theorem witness_ZeroAndNanRules :
    f64.decode false 0x3FF0000000000000 = .fin false (2 ^ 52) (-52) ∧ f64.decode false 0xBFF0000000000000 = .fin true (2 ^ 52) (-52) ∧
    f64.decode false 0 = .fin false 0 (-1074) ∧ f64.decode false 0x8000000000000000 = .fin true 0 (-1074) ∧
    f64.decode false 0x7FF8000000000000 = .nan false ∧ f64.decode false 0x7FF0000000000001 = .nan true ∧
    0x7FF0000000000001 < 2 ^ f64.width ∧ ∀ q', f64.decode false 0x3FF0000000000000 ≠ .nan q' := by
  refine ⟨by decide +kernel, by decide +kernel, by decide +kernel, by decide +kernel, by decide +kernel, by decide +kernel, by decide +kernel, ?_⟩
  intro q'
  cases q' <;> decide +kernel

/-- Witnesses of its clauses under `.ftz`: a NaN beside a subnormal, which is flushed. -/
theorem witness_ZeroAndNanRules_ftz :
    f64.decode true 0x7FF8000000000000 = .nan false ∧ (∀ q', f64.decode true 1 ≠ .nan q') ∧ 1 / 2 ^ f64.fbits % 2 ^ f64.ebits = 0 := by
  refine ⟨by decide +kernel, ?_, by decide +kernel⟩
  intro q'
  cases q' <;> decide +kernel

/-- Four binary32 values: 1, 2, −1 and the number 4. -/
theorem fpValue_examples :
    fpValue f32 0x3F800000 = 1 ∧ fpValue f32 0x40000000 = 2 ∧ fpValue f32 0xBF800000 = -1 ∧ fpValue f32 0x40800000 = 4 := by
  refine ⟨?_, ?_, ?_, ?_⟩ <;> norm_num [fpValue, f32, Fmt.bias]

/-- Those patterns are finite. -/
theorem fpFinite_examples : fpFinite f32 0x3F800000 ∧ fpFinite f32 0x40000000 ∧ fpFinite f32 0xBF800000 ∧ fpFinite f32 0x40800000 := by
  unfold fpFinite
  decide +kernel

/-- Witnesses of `RoundedOnce`: operands whose sum, difference, product and fused result are not 0, a root of a positive number, exact
cases of 2^x and log₂ x, a negative operand, and numbers for the conversions. -/
theorem witness_RoundedOnce :
    (let x := fpRead f32 false 0x3F800000
     let y := fpRead f32 false 0x40000000
     let w := fpRead f32 false 0xBF800000
     x + y ≠ 0 ∧ x - y ≠ 0 ∧ x * y ≠ 0 ∧ x ≠ 0 ∧ y ≠ 0 ∧ 0 < x ∧ (if false then -1 else 1) * (x * y) + (if false then -1 else 1) * w ≠ 0 ∧
       x = ((1 : ℤ) : ℝ) ∧ fpRead f32 false 0x40800000 = (2 : ℝ) ^ (2 : ℤ) ∧ w < 0) ∧ f32 ≠ f64 ∧ f32 ∈ floatFormats ∧ f64 ∈ floatFormats ∧
    f32.decode false 0x7FC00000 = .nan false ∧ f32.decode false 0x7F800001 = .nan true := by
  obtain ⟨h1, h2, h3, h4⟩ := fpValue_examples
  refine ⟨?_, by decide, by decide, by decide, by decide +kernel, by decide +kernel⟩
  simp only [fpRead, Bool.false_eq_true, false_and, if_false, h1, h2, h3, h4]
  norm_num

/-- Witnesses of `OverflowRule`: in binary16 the largest finite value has room in every mode, the next representable sum has
none to nearest, and half of that step has room toward zero alone. -/
theorem witness_OverflowRule :
    let top := 2 ^ (f16.bias + 1)
    65504 ≤ (top - 2 ^ (f16.bias - f16.fbits)) * 2 ^ 0 ∧ ¬ 65520 < (top - 2 ^ (f16.bias - f16.fbits - 1)) * 2 ^ 0 ∧
      65519 < (top - 2 ^ (f16.bias - f16.fbits - 1)) * 2 ^ 0 ∧ 65520 < top * 2 ^ 0 ∧ ¬ 65536 < top * 2 ^ 0 ∧
      ¬ 65505 ≤ (top - 2 ^ (f16.bias - f16.fbits)) * 2 ^ 0 := by decide +kernel

/-- Witnesses of `BranchesAndJumps`: an aligned and an unaligned target, and a word whose last byte lies in the next fetch block. -/
theorem witness_BranchesAndJumps :
    Issues plain ∧ Readable plain 5 ∧ Readable plain 6 ∧
    ((plain.x 5 + (4#32).signExtend 64).setWidth 57 : Va).toNat % 4 = 0 ∧ ((plain.x 6 + (4#32).signExtend 64).setWidth 57 : Va).toNat % 4 ≠ 0 ∧
    ((4#128).toNat % 4 ≠ 3 ∧ (alone { ctxOf [] with pc := 0x101C }).pc.toNat % 32 + lengthOf 4 > 32) ∧
    ((5#128).toNat % 4 ≠ 3 ∧ (alone { ctxOf [] with pc := 0x1018 }).pc.toNat % 32 + lengthOf 5 > 32) :=
  ⟨⟨rfl, rfl, rfl⟩, ⟨rfl, rfl⟩, ⟨rfl, rfl⟩, by decide +kernel, by decide +kernel, by decide +kernel, by decide +kernel⟩

/-- Witnesses of `PrefixAndSimpleSystem`: with and without a pending prefix, and a Δ that fits. -/
theorem witness_PrefixAndSimpleSystem :
    Issues plain ∧ (plain.ctx plain.cur).pp = false ∧ (15#32).toNat < 16 ∧
    (let s := alone { ctxOf [] with sr := 1 }
     s.mayIssue s.cur = true ∧ (s.ctx s.cur).pp = true) := ⟨⟨rfl, rfl, rfl⟩, rfl, by decide, rfl, rfl⟩

/-- A context in an update of a level block, of a running level launch. -/
def updating : State :=
  { alone { ctxOf [(5, 0), (6, 0x300000001)] with blk := some 0, inUpdate := true, standing := .level } with
    mem := chainCells 0 0 0
    launches := (chain false 1 0 0 0).launches }

/-- Witnesses of `TrapEntry`: outside an update and inside one. -/
theorem witness_TrapEntry :
    (plain.ctx 0).priv = 0 ∧ plain.teamOf 0 = none ∧ plain.vs 0 = false ∧ (plain.ctx 0).inUpdate = false ∧
    (updating.ctx 0).priv = 0 ∧ updating.teamOf 0 = none ∧ updating.vs 0 = false ∧ (updating.ctx 0).inUpdate = true := by decide +kernel

/-- Witnesses of the clauses of `TrapEntry` at privilege 1: a fatal trap and one that is held. -/
theorem witness_TrapEntry_super :
    (super.ctx 0).priv ≠ 0 ∧ super.teamOf 0 = none ∧
      (let t : Trap := { asyncTrap 1 0 0 with kind := .precise }
       t.kind = .precise ∨ t.kind = .after) ∧
      ((asyncTrap 1 0 0).kind = .imprecise ∨ (asyncTrap 1 0 0).kind = .async) := by decide +kernel

/-- Witnesses of `EretRestores`: privilege 0, an ESR of privilege 0 and of 1, and one of privilege 2. -/
theorem witness_EretRestores :
    (Issues plain ∧ (plain.ctx plain.cur).priv = 0) ∧
    (let s := alone { ctxOf [] with sr := 0x400, esr := 0 }
     Issues s ∧ (s.ctx s.cur).priv ≠ 0 ∧ field (s.ctx s.cur).esr 10 2 ≤ 1 ∧ (s.ctx s.cur).spilled = 0 ∧ (s.ctx s.cur).replay = [] ∧
       s.teamOf s.cur = none) ∧
    (let s := alone { ctxOf [] with sr := 0x400, esr := 0x400 }
     Issues s ∧ (s.ctx s.cur).priv ≠ 0 ∧ field (s.ctx s.cur).esr 10 2 ≤ 1 ∧ (s.ctx s.cur).spilled = 0 ∧ (s.ctx s.cur).replay = [] ∧
       s.teamOf s.cur = none) ∧
    (let s := alone { ctxOf [] with sr := 0x400, esr := 0x800 }
     Issues s ∧ (s.ctx s.cur).priv ≠ 0 ∧ field (s.ctx s.cur).esr 10 2 > 1) := by
  unfold Issues
  decide +kernel

/-- A ring entry that is held, and the context at privilege 1 that selects it. -/
def ringed : State :=
  alone { ctxOf [(5, 0x141), (6, 0x800), (7, 10), (8, 9)] with
    sr := 0x400, dridx := 0x141, drseq := 0x142, ring := [(1, { used := true, seq := 0x141, flt := true })] }

/-- Witnesses of `SpecialRegisterReads`: every register number's range at its ends, at privilege 0 and 1, and a ring entry that is
held and one that is not. -/
theorem witness_SpecialRegisterReads :
    Issues plain ∧ (plain.ctx plain.cur).priv = 0 ∧ VectorsRetired plain ∧ Issues ringed ∧ (ringed.ctx ringed.cur).priv ≠ 0 ∧
      (let e : RingEnt := Tbl.get {} (ringed.ctx 0).ring ((ringed.ctx 0).dridx.toNat % 64)
       (e.used && e.seq == (ringed.ctx 0).dridx) = true) ∧
      (let e : RingEnt := Tbl.get {} (super.ctx 0).ring ((super.ctx 0).dridx.toNat % 64)
       (e.used && e.seq == (super.ctx 0).dridx) = false) := by
  unfold Issues VectorsRetired
  decide +kernel

/-- Witnesses of `SpecialRegisterWrites`: PRIV 0 and 2, FMT 9 and 10, a CACHE within the limit, at it and above it, and a core
whose scratchpad is idle. -/
theorem witness_SpecialRegisterWrites :
    Issues ringed ∧ Readable ringed 5 ∧ VectorsRetired ringed ∧ field (ringed.x 5) 10 2 ≤ 1 ∧ field (ringed.x 6) 10 2 > 1 ∧
      field (ringed.x 8) 0 4 < 10 ∧ field (ringed.x 7) 0 4 ≥ 10 ∧ field (ringed.x 5) 0 4 ≤ 8 ∧ field (ringed.x 8) 0 4 > 8 ∧
      (ringed.core (coreOfKey ringed.cur)).split.toNat ≤ 8 ∧ ringed.scratchBusy (coreOfKey ringed.cur) = false ∧
      (Issues plain ∧ Readable plain 5 ∧ VectorsRetired plain ∧ (plain.ctx plain.cur).priv = 0) := by
  unfold Issues VectorsRetired Readable
  decide +kernel

/-- Witnesses of `IdentityAndGlobalAddress`: an address that is no aperture, one of the core scratchpad, and private ones within
and beyond the launch's window. -/
theorem witness_IdentityAndGlobalAddress :
    let s := { alone (ctxOf [(5, 0x1000), (6, 0x0080000000000000), (7, 0x00B0000000000000), (8, 0x00B0000000001000)]) with
      launches := [(0, { record := recordOf [(0x69, 0x10)] })] }
    Issues s ∧ Readable s 5 ∧ Readable s 6 ∧ Readable s 7 ∧ Readable s 8 ∧ field (s.x 5) 55 2 ≠ 1 ∧
      (field (s.x 6) 55 2 = 1 ∧ field (s.x 6) 52 3 ≠ 3) ∧
      (field (s.x 7) 55 2 = 1 ∧ field (s.x 7) 52 3 = 3 ∧ field (s.x 7) 0 52 < (s.launch 0).psize) ∧
      (field (s.x 8) 55 2 = 1 ∧ field (s.x 8) 52 3 = 3 ∧ field (s.x 8) 0 52 ≥ (s.launch 0).psize) := by
  unfold Issues Readable
  decide +kernel

/-- Witnesses of the clauses of `Helpers` on starts: a free slot, none, and a context that is a helper. -/
theorem witness_Helpers_starts :
    Issues plain ∧ (plain.ctx plain.cur).standing = .control ∧ Readable plain 5 ∧ Released plain 2 ∧
      plain.freeSlot (coreOfKey plain.cur) 1 = some 1 ∧
    (let s := { plain with ctxs := plain.ctxs ++ (List.range 10).map fun i => (i + 1, ctxOf []) }
     Issues s ∧ (s.ctx s.cur).standing = .control ∧ Readable s 5 ∧ s.freeSlot (coreOfKey s.cur) 1 = none) ∧
    (let s := alone { ctxOf [] with standing := .helper }
     Issues s ∧ (s.ctx s.cur).standing ≠ .control) := by
  unfold Issues Readable Released
  decide +kernel

/-- A control context with one helper, number 3, which lives. -/
def withHelper : State :=
  { alone (ctxOf [(5, 3), (6, 4)]) with ctxs := [(0, ctxOf [(5, 3), (6, 4)]), (3, { ctxOf [] with standing := .helper, owner := some 0, number := 3 })] }

/-- Witnesses of the clauses of `Helpers` on ends: a live helper named and all helpers, none named, and contexts that end. -/
theorem witness_Helpers_ends :
    Issues withHelper ∧ (withHelper.ctx 0).standing = .control ∧ Readable withHelper 5 ∧ withHelper.helpersOf withHelper.cur ≠ [] ∧
      (∃ h ∈ withHelper.helpersOf withHelper.cur, h.number = (withHelper.x 5).toNat) ∧
      (¬ ∃ h ∈ withHelper.helpersOf withHelper.cur, h.number = (withHelper.x 6).toNat) ∧
      (withHelper.ctx 0).priv = 0 ∧ (withHelper.ctx 0).pend = [] ∧ (withHelper.ctx 0).due = [] ∧
    (Issues plain ∧ (plain.ctx plain.cur).priv = 0 ∧ (plain.ctx plain.cur).pend = [] ∧ (plain.ctx plain.cur).due = [] ∧
      plain.helpersOf plain.cur = [] ∧ Released plain 2 ∧ (plain.ctx plain.cur).inUpdate = false) ∧
    (Issues super ∧ (super.ctx super.cur).priv ≠ 0) ∧
    (Issues hazards ∧ (hazards.ctx hazards.cur).pend ≠ []) := by
  unfold Issues Readable Released
  decide +kernel

/-- Witnesses of `LaneClaims`. -/
theorem witness_LaneClaims :
    Issues plain ∧ (plain.ctx plain.cur).mig = false ∧ VectorsRetired plain ∧ Readable plain 5 ∧
    (let s := alone { ctxOf [] with sr := 0x200 }
     Issues s ∧ (s.ctx s.cur).mig = true) := by
  unfold Issues Readable VectorsRetired
  decide +kernel

/-- No context waits at an event unit of a package whose clusters stand as reset leaves them. -/
theorem noWaiter_of_reset (s : State) (h : s.clusters = []) : NoWaiter s := by
  intro cl w hw
  simp only [State.cluster, h] at hw
  exact absurd hw List.not_mem_nil

/-- What an evaluation that succeeds answers. -/
theorem ok_of {α : Type} {m : M α} {s : State} {P : α → State → Prop} [∀ a t, Decidable (P a t)]
    (h : (match m.run s with
      | .ok a t => decide (P a t)
      | _ => false) = true) : ∃ a t, m.run s = .ok a t ∧ P a t := by
  split at h
  · next a t heq => exact ⟨a, t, heq, of_decide_eq_true h⟩
  · exact absurd h (by decide)

/-- Whether an evaluation succeeds with an answer and a state that pass a test. -/
def probe {α : Type} (m : M α) (s : State) (P : α → State → Bool) : Bool :=
  match m.run s with
  | .ok a t => P a t
  | .error _ _ => false

/-- One that does so has that answer. -/
theorem probed {α : Type} {m : M α} {s : State} {P : α → State → Bool} (h : probe m s P = true) :
    ∃ a t, m.run s = .ok a t ∧ P a t = true := by
  unfold probe at h
  split at h
  · next a t heq => exact ⟨a, t, heq, h⟩
  · exact absurd h (by decide)

/-- A run of no value, found by evaluation. -/
theorem unit_of {m : M Unit} {s : State} (h : (match m.run s with
    | .ok _ _ => true
    | .error _ _ => false) = true) : ∃ t, m.run s = .ok () t := by
  split at h
  · next t heq => exact ⟨t, heq⟩
  · exact absurd h (by decide)

/-- An access lands where its evaluation says. -/
theorem lands_of {s : State} {va n kind : Nat} {loc : Loc} {t : State}
    (h : (match (resolve (s.envOf s.cur) va n kind).run (clearNotes s) with
      | .ok l u => decide (l = loc ∧ u = t ∧ u.cur = s.cur ∧ u.ctx s.cur = s.ctx s.cur ∧ u.after = none ∧ u.watch = none)
      | _ => false) = true) : Lands s va n kind loc t := by
  unfold Lands
  split at h
  · next heq =>
    simp only [decide_eq_true_eq] at h
    obtain ⟨rfl, rfl, hk⟩ := h
    exact ⟨heq, hk⟩
  · exact absurd h (by decide)

/-- Where `plain` finds the bytes that x5 names, for each kind of access: HBM, from the translation cache. -/
theorem plain_lands :
    Lands plain (effective plain 5 0).toNat 8 accRead (.mem 0x1000 0) (clearNotes plain) ∧
    Lands plain (effective plain 5 0).toNat 8 accWrite (.mem 0x1000 0) (clearNotes plain) ∧
    Lands plain (effective plain 5 0).toNat 8 accAtomic (.mem 0x1000 0) (clearNotes plain) ∧
    Lands plain (effective plain 5 0).toNat 1 accRead (.mem 0x1000 0) (clearNotes plain) :=
  ⟨lands_of (by decide +kernel), lands_of (by decide +kernel), lands_of (by decide +kernel), lands_of (by decide +kernel)⟩

/-- Witnesses of `LoadResults`, `GuardedAccesses` and `StoreResults`: an aligned place of memory that nothing holds. -/
theorem witness_accesses :
    Issues plain ∧ Readable plain 5 ∧ Readable plain 6 ∧ (effective plain 5 0).toNat % 8 = 0 ∧ OrderFree plain false ∧ OrderFree plain true ∧
      loadWaits false (.mem 0x1000 0) 0x1000 (clearNotes plain) = false ∧ storeFree (.mem 0x1000 0) 0x1000 8 (clearNotes plain) ∧
      watchHits (clearNotes plain) plain.cur true false (effective plain 5 0).toNat 8 = [] ∧
      watchHits (clearNotes plain) plain.cur false true (effective plain 5 0).toNat 8 = [] ∧
      watchHits (clearNotes plain) plain.cur true true (effective plain 5 0).toNat 8 = [] ∧ Released plain 0 ∧ Released plain 5 ∧
      loadWaits true (.mem 0x1000 0) 0x1000 (clearNotes plain) = false ∧
      (loadAsks false 0 (.mem 0x1000 0) 0x1000 (clearNotes plain)).gatewayPost plain.cur 0x1000 8 = false ∧
      (loadAsks true 0 (.mem 0x1000 0) 0x1000 (clearNotes plain)).gatewayPost plain.cur 0x1000 8 = false :=
  ⟨⟨rfl, rfl, rfl⟩, ⟨rfl, rfl⟩, ⟨rfl, rfl⟩, rfl, rfl, rfl, rfl, ⟨rfl, fun q h => by simp at h, rfl, rfl, rfl, noWaiter_of_reset _ rfl⟩, rfl,
    rfl, rfl, fun h => absurd rfl h, fun _ => ⟨rfl, rfl⟩, rfl, rfl, rfl⟩

/-- A witness of the clause of `StoreResults` on an earlier posted store: one towards a die of the package. -/
def posted : State :=
  { plain with posts := [{ id := 0, key := 0, core := 0, slot := 0, launch := 0, stream := 0, dest := 2048, seq := 0, st := .sent, va := 0x4000
                           place := 0x4000, bytes := [1], marker := none, copy := none }] }

/-- It is not released, and lands. -/
theorem posted_waits :
    Issues posted ∧ Readable posted 5 ∧ Readable posted 6 ∧ ¬ Released posted 5 ∧ OrderFree posted true ∧
      Lands posted (effective posted 5 0).toNat 8 accWrite (.mem 0x1000 0) (clearNotes posted) ∧
      (clearNotes posted).ownPost posted.cur 0x1000 8 = false ∧ NoWaiter posted :=
  ⟨⟨rfl, rfl, rfl⟩, ⟨rfl, rfl⟩, ⟨rfl, rfl⟩, fun h => by have := h (by decide); revert this; decide +kernel, rfl, lands_of (by decide +kernel), rfl, noWaiter_of_reset _ rfl⟩

/-- A launch with a parameter window of 20 bytes at 0x2000, and a context whose x5 is an offset within, x6 one beyond, and x7 one
that is no multiple of 8. -/
def params : State :=
  { alone (ctxOf [(5, 16), (6, 24), (7, 4)]) with launches := [(0, { params := [(0x2000, 20), (0, 0)] })] }

/-- Witnesses of `ConstantAndParameterLoads`: a constant load of memory; a window that is bound and one that is not, offsets
within it, beyond its end, and misaligned. -/
theorem witness_ConstantAndParameterLoads :
    (Issues params ∧ Readable params 5 ∧ Readable params 6 ∧ Readable params 7 ∧ OrderFree params false) ∧
    (let b := (params.launch 0).params.getD 0 (0, 0)
     b.2 ≠ 0 ∧ (params.x 5).toNat % 8 = 0 ∧ (params.x 5).toNat < b.2 ∧ (params.x 6).toNat ≥ b.2 ∧ (params.x 7).toNat % 8 ≠ 0) ∧
    ((params.launch 0).params.getD 1 (0, 0)).2 = 0 ∧
    watchHits params params.cur true false (2 ^ 55 + 5 * 2 ^ 52 + 0 * 2 ^ 48 + 24) 8 = [] ∧
    (∃ qs t, (paramPlaces (params.envOf params.cur) 0x2000 20 16 8).run (clearNotes params) = .ok qs t ∧ params.Keeps t ∧
      ∃ v, (readLines (.l2 (dieOfCore (coreOfKey params.cur))) 0 ((qs.filter (·.2 != 3)).map fun q => q.1 / 128 * 128).eraseDups).run t =
        .ok () v ∧ touching (qs.map (·.1)) ((t.ctx params.cur).constFloor (qs.map (·.1))) t.wlog = [] ∧
        watchHits v params.cur true false (2 ^ 55 + 5 * 2 ^ 52 + 0 * 2 ^ 48 + 16) 8 = []) := by
  refine ⟨⟨⟨rfl, rfl, rfl⟩, ⟨rfl, rfl⟩, ⟨rfl, rfl⟩, ⟨rfl, rfl⟩, rfl⟩, by decide +kernel, rfl, rfl, ?_⟩
  obtain ⟨qs, t, ht, ⟨hk, hf⟩, hv⟩ := ok_of (m := paramPlaces (params.envOf params.cur) 0x2000 20 16 8) (s := clearNotes params)
    (P := fun qs t => ((t.cur = params.cur ∧ t.ctx params.cur = params.ctx params.cur ∧ t.after = none ∧ t.watch = none) ∧
      touching (qs.map (·.1)) ((t.ctx params.cur).constFloor (qs.map (·.1))) t.wlog = []) ∧
      (match (readLines (.l2 (dieOfCore (coreOfKey params.cur))) 0 ((qs.filter (·.2 != 3)).map fun q => q.1 / 128 * 128).eraseDups).run t with
        | .ok _ v => decide (watchHits v params.cur true false (2 ^ 55 + 5 * 2 ^ 52 + 0 * 2 ^ 48 + 16) 8 = [])
        | .error _ _ => false) = true) (by decide +kernel)
  split at hv
  · next v hr => exact ⟨qs, t, ht, hk, v, hr, hf, of_decide_eq_true hv⟩
  · exact absurd hv (by decide)

/-- Witnesses of `MisalignedAccesses`: an odd address for every size. -/
theorem witness_MisalignedAccesses :
    Issues plain ∧ Readable plain 5 ∧ Readable plain 6 ∧ (effective plain 5 1).toNat % 2 ≠ 0 ∧ (effective plain 5 2).toNat % 4 ≠ 0 ∧
      (effective plain 5 4).toNat % 8 ≠ 0 := ⟨⟨rfl, rfl, rfl⟩, ⟨rfl, rfl⟩, ⟨rfl, rfl⟩, by decide +kernel, by decide +kernel, by decide +kernel⟩

/-- The word of an atomic of a test. -/
def aword : ShM := { rd := 7, rs1 := 5, rs2 := 6, ch := 0, scp := 0, str := 0, off := 0 }

/-- Nothing stands before an atomic on a place of memory. -/
theorem atomicAt_of {s : State} {o : ShM} {n p : Nat} (h1 : Issues s) (h2 : Readable s o.rs1.toNat) (h3 : Readable s o.rs2.toNat)
    (hl : Lands s (effective s o.rs1 o.off).toNat n accAtomic (.mem p 0) (clearNotes s)) (hc : s.clusters = [])
    (h : ((effective s o.rs1 o.off).toNat % n = 0 ∧ OrderFree s true) ∧ (clearNotes s).ownPost s.cur p n = false ∧
      (clearNotes s).gatewayPost s.cur p n = false ∧ o.scp = 0 ∧
      watchHits (clearNotes s) s.cur true true (effective s o.rs1 o.off).toNat n = []) : AtomicAt o n s (clearNotes s) (.mem p 0) p :=
  ⟨h1, h2, h3, h.1.1, h.1.2, hl, rfl, fun q hq => by simp at hq, h.2.1, h.2.2.1, fun hs => absurd (by simp [h.2.2.2.1]) hs,
    noWaiter_of_reset _ hc, h.2.2.2.2⟩

/-- A word that carries a mark. -/
def marked : State := { plain with marks := [(0x1003, 0x2002)] }

/-- Witnesses of `AtomicResults`: nothing stands before an atomic of either width, on a word without a mark and on one with a mark. -/
theorem witness_AtomicAt :
    AtomicAt aword 8 plain (clearNotes plain) (.mem 0x1000 0) 0x1000 ∧ AtomicAt aword 4 plain (clearNotes plain) (.mem 0x1000 0) 0x1000 ∧
    AtomicAt aword 8 marked (clearNotes marked) (.mem 0x1000 0) 0x1000 ∧ (clearNotes marked).firstMark 0x1000 8 ≠ 0 :=
  ⟨atomicAt_of ⟨rfl, rfl, rfl⟩ ⟨rfl, rfl⟩ ⟨rfl, rfl⟩ (lands_of (by decide +kernel)) rfl (by unfold OrderFree; decide +kernel),
    atomicAt_of ⟨rfl, rfl, rfl⟩ ⟨rfl, rfl⟩ ⟨rfl, rfl⟩ (lands_of (by decide +kernel)) rfl (by unfold OrderFree; decide +kernel),
    atomicAt_of ⟨rfl, rfl, rfl⟩ ⟨rfl, rfl⟩ ⟨rfl, rfl⟩ (lands_of (by decide +kernel)) rfl (by unfold OrderFree; decide +kernel),
    by decide +kernel⟩

/-- Witnesses of its clauses: a readable comparand, and what a deterministic launch has recorded. -/
theorem witness_AtomicResults :
    Issues plain ∧ Readable plain 5 ∧ Readable plain 6 ∧ Readable plain 7 ∧ OrderFree plain true ∧ (clearNotes plain).firstMark 0x1000 8 = 0 ∧
      (clearNotes plain).firstMark 0x1000 4 = 0 ∧ (plain.ctx plain.cur).det = false ∧
      Lands plain (effective plain 5 0).toNat 4 accAtomic (.mem 0x1000 0) (clearNotes plain) ∧
      watchHits (clearNotes plain) plain.cur true true (effective plain 5 0).toNat 4 = [] :=
  ⟨⟨rfl, rfl, rfl⟩, ⟨rfl, rfl⟩, ⟨rfl, rfl⟩, ⟨rfl, rfl⟩, rfl, rfl, rfl, rfl, lands_of (by decide +kernel), rfl⟩

/-- A deterministic launch in which the context of slot 1 touched the word at 0x1000 first; x7 is an address in the window, x8 one
of a page of memory type 3, and x9 one of the device registers. -/
def deterministic : State :=
  { alone { ctxOf [(5, 0x1000), (7, 0x0180000000000000), (8, 0x200000), (9, 0x400000)] with sr := 0x100 } with
    cores := [(0, { dtlb := [{ va := 0, size := 21, asid := 0, leaf := 0xDD }, { va := 0x200000, size := 21, asid := 0, leaf := 0x80000000006DD },
      { va := 0x400000, size := 21, asid := 0, leaf := 0xF0000000008DD }] })]
    launches := [(0, { detWords := [(0x200, 2)] })] }

/-- Nothing stands before a float atomic of it. -/
theorem witness_AtomicFaults_at : AtomicAt { aword with rs2 := 0 } 8 deterministic (clearNotes deterministic) (.mem 0x1000 0) 0x1000 :=
  atomicAt_of ⟨rfl, rfl, rfl⟩ ⟨rfl, rfl⟩ ⟨rfl, rfl⟩ (lands_of (by decide +kernel)) rfl (by unfold OrderFree; decide +kernel)

/-- A context whose x5 names its cluster's event unit, and x7 a parameter window. -/
def apertures : State :=
  { alone (ctxOf [(5, 0x00C0000000000000), (7, 0x00D0000000000000)]) with launches := params.launches }

/-- Witnesses of the clauses of `AtomicFaults` on apertures. -/
theorem witness_AtomicFaults_apertures :
    (∃ l t, (resolve (apertures.envOf 0) (effective apertures 5 0).toNat 8 accAtomic).run (clearNotes apertures) = .ok l t ∧
      (match l with | .event _ _ false => true | _ => false) = true) ∧
    ∃ l t, (resolve (apertures.envOf 0) (effective apertures 7 0).toNat 8 accAtomic).run (clearNotes apertures) = .ok l t ∧
      (match l with | .param _ _ => true | _ => false) = true :=
  ⟨ok_of (by decide +kernel), ok_of (by decide +kernel)⟩

/-- Witnesses of `AtomicFaults`. -/
theorem witness_AtomicFaults :
    Issues deterministic ∧ Readable deterministic 5 ∧ (deterministic.ctx 0).det = true ∧
      Tbl.get 0 ((clearNotes deterministic).launch (deterministic.ctx 0).launch).detWords (0x1000 / 8) = 2 ∧
      2 ≠ (deterministic.ctx deterministic.cur).pslot + 1 ∧
      Lands deterministic (effective deterministic 5 0).toNat 8 accAtomic (.mem 0x1000 0) (clearNotes deterministic) ∧
      Lands deterministic (effective deterministic 7 0).toNat 8 accAtomic (.window 0x0180000000000000) (clearNotes deterministic) :=
  ⟨⟨rfl, rfl, rfl⟩, ⟨rfl, rfl⟩, rfl, rfl, by decide +kernel, lands_of (by decide +kernel), lands_of (by decide +kernel)⟩

/-- Witnesses of the pages that refuse atomics. -/
theorem witness_AtomicFaults_pages :
    Lands deterministic (effective deterministic 8 0).toNat 8 accAtomic (.mem 0x8000000000000 3) (clearNotes deterministic) ∧
    Lands deterministic (effective deterministic 9 0).toNat 8 accAtomic (.regs 0) (clearNotes deterministic) :=
  ⟨lands_of (by decide +kernel), lands_of (by decide +kernel)⟩

/-- Witnesses of `PostedStores` and `FencesAndMaintenance`: a home die whose stream has room, an address that no cache holds, and a
context that is released and one that is not. -/
theorem witness_posted_and_fences :
    homeDie 0x1000 = some 1 ∧ (clearNotes plain).streamFull (coreOfKey plain.cur) 0 2049 = false ∧
      (let s := alone (ctxOf [(5, 0x0100000000000000)])
       Issues s ∧ Readable s 5 ∧ (effective s 5 0).toNat / 2 ^ 55 % 4 = 2) ∧ Issues posted ∧ ¬ Released posted 5 :=
  ⟨rfl, rfl, ⟨⟨rfl, rfl, rfl⟩, ⟨rfl, rfl⟩, by decide +kernel⟩, ⟨rfl, rfl, rfl⟩, posted_waits.2.2.2.1⟩

/-- Witnesses of `TranslationChecks`: an access of each kind that a walk or the translation cache lets through. -/
theorem witness_TranslationChecks :
    (∃ t, (translate (plain.envOf 0) 0x1000 accRead).run plain = .ok (0x1000, 0) t) ∧
    (∃ t, (translate (plain.envOf 0) 0x1000 accAtomic).run plain = .ok (0x1000, 0) t) ∧
    (∃ t, (translate (updating.launchEnv 0) 0x1000 accWrite).run updating = .ok (0x1000, 0) t) ∧
    ∃ t, (translate (updating.launchEnv 0) 0x1000 accExec).run updating = .ok (0x1000, 0) t := ⟨⟨_, rfl⟩, ⟨_, rfl⟩, ⟨_, rfl⟩, ⟨_, rfl⟩⟩

/-- Witnesses of `WaitOnWord`: the word equals one register and not another. -/
theorem witness_WaitOnWord :
    let w : Word := BitVec.ofNat 64 (leNat (finds (.mem 0x1000 0) 0x1000 8 (clearNotes plain)))
    Issues plain ∧ Readable plain 5 ∧ Readable plain 9 ∧ w = plain.x 9 ∧ w ≠ plain.x 6 ∧
      loadWaits false (.mem 0x1000 0) 0x1000 (clearNotes plain) = false :=
  ⟨⟨rfl, rfl, rfl⟩, ⟨rfl, rfl⟩, ⟨rfl, rfl⟩, by decide +kernel, by decide +kernel, rfl⟩

/-- A cluster whose event unit has line 0 set, line 63 set, counters 0 and 15, and mutex 15 held by the context; x5 names the unit. -/
def eventful : State :=
  { alone (ctxOf [(5, 0x00C0000000000000), (6, 88), (7, 89)]) with
    clusters := [(0, { lines := [(0, { set := true, payload := 9 }), (63, { set := true, payload := 8 })]
                       counters := [(15, { round := 4, arrived := 1, expect := 2 })], mutexes := [(15, 1)] })] }

/-- Witnesses of `EventUnit`: the first and the last line, counter and mutex, an expected number at its limit and above it, and lines
with and without a waiter. -/
theorem witness_EventUnit :
    Issues eventful ∧ Readable eventful 5 ∧ Readable eventful 6 ∧ Readable eventful 7 ∧ OrderFree eventful false ∧ OrderFree eventful true ∧
    (Tbl.get {} (eventful.cluster 0).lines 0).set = true ∧ (Tbl.get {} (eventful.cluster 0).lines 63).set = true ∧
    (Tbl.get {} (eventful.cluster 0).lines 1).set = false ∧ (Tbl.get {} (eventful.cluster 0).counters 0).expect = 0 ∧
    (let q := Tbl.get {} (eventful.cluster 0).counters 15
     q.expect ≠ 0 ∧ q.arrived + 1 ≥ q.expect) ∧ Tbl.get 0 (eventful.cluster 0).mutexes 0 = 0 ∧
    Tbl.get 0 (eventful.cluster 0).mutexes 15 = eventful.cur + 1 ∧ field (eventful.x 6) 0 8 = 88 ∧ field (eventful.x 7) 0 8 > 88 ∧
    Released eventful 4 ∧ Released eventful 2 ∧ waitersAt 0 (objMutex 15) eventful = [] ∧ waitersAt 0 1 eventful = [] ∧
    watchHits (clearNotes eventful) eventful.cur true false (effective eventful 5 0).toNat 8 = [] ∧ ¬ Released posted 4 := by
  unfold Issues Readable OrderFree Released
  decide +kernel

/-- It has no waiter, and loads and stores of it land at the unit. -/
theorem witness_EventUnit_lands :
    NoWaiter eventful ∧ Lands eventful (effective eventful 5 0).toNat 8 accRead (.event 0 0 false) (clearNotes eventful) ∧
    Lands eventful (effective eventful 5 0x278).toNat 8 accRead (.event 0 0x278 false) (clearNotes eventful) ∧
    Lands eventful (effective eventful 5 0x2F8).toNat 8 accWrite (.event 0 0x2F8 false) (clearNotes eventful) ∧
    Lands eventful (effective eventful 5 0x378).toNat 8 accWrite (.event 0 0x378 false) (clearNotes eventful) := by
  refine ⟨?_, lands_of (by decide +kernel), lands_of (by decide +kernel), lands_of (by decide +kernel), lands_of (by decide +kernel)⟩
  intro cl w hw
  by_cases h : cl = 0
  · subst h; exact absurd hw List.not_mem_nil
  · have : (eventful.cluster cl).waiters = [] := by
      have hf : Tbl.get {} eventful.clusters cl = ({} : Cluster) := by
        simp only [eventful, Tbl.get, if_neg (Ne.symm h)]
      unfold State.cluster
      rw [hf]
    rw [this] at hw
    exact absurd hw List.not_mem_nil

/-- A waiter of a line that is no gate, for the clause of `EventUnit` on firing a line. -/
theorem witness_EventUnit_fire :
    let w : Waiter := { key := 16, obj := 3, rd := 5, next := shortNext, gate := false, watch := none, served := none }
    let u := { plain with clusters := [(0, { waiters := [w] })] }
    waitersAt 0 3 u = [w] ∧ w.gate = false ∧ w.rd ≠ 0 := by decide +kernel

/-- A launch with a group of two roles, on cores 0 and 1, and the context of role 0 with x5 a value, x6 a role, and `barred` as given. -/
def grouped (a0 a1 : Nat) (barred : Option (Nat × Nat)) : State :=
  { alone { ctxOf [(5, 7), (6, 1)] with grp := [3], barred := barred } with
    launches := [(0, {
      st := .running, cores := [0, 1], groups := [{ g := 3, members := [0, 1], rb := false, rcm := 0 }]
      bind := [(6144, 0x8000), (6145, 0x8001)], arrivals := [(6144, a0), (6145, a1)] })]
    ctxs := [(0, { ctxOf [(5, 7), (6, 1)] with grp := [3], barred := barred }), (16, ctxOf [])] }

/-- Witnesses of `GroupBarriers`: a role that may arrive, one that is a phase ahead, and one whose `bar` has arrived. -/
theorem witness_GroupBarriers :
    let gr : Group := { g := 3, members := [0, 1], rb := false, rcm := 0 }
    let ok := fun (s : State) => Issues s ∧ VectorsRetired s ∧ (s.launch 0).group 3 = some gr ∧ (s.ctx s.cur).grp.contains 3 = true ∧
      s.roleOf s.cur gr = some 0 ∧ gr.rb = false ∧ Released s 4
    (ok (grouped 0 0 none) ∧ (grouped 0 0 none).arrivals 0 3 0 ≤ (grouped 0 0 none).phases 0 gr) ∧
    (ok (grouped 1 0 none) ∧ (grouped 1 0 none).phases 0 gr < (grouped 1 0 none).arrivals 0 3 0) ∧
    (ok (grouped 1 1 (some (3, 1))) ∧ 1 ≤ (grouped 1 1 (some (3, 1))).phases 0 gr ∧ ((grouped 1 1 (some (3, 1))).ctx 0).barred = some (3, 1)) := by
  unfold Issues VectorsRetired Released
  decide +kernel

/-- Witnesses of `RolesAndMessages`: a group and none, a role within it, a mailbox with room and a full one, and messages received. -/
theorem witness_RolesAndMessages :
    let s := grouped 0 0 none
    Issues s ∧ Readable s 5 ∧ Readable s 6 ∧ (s.launch 0).group 3 ≠ none ∧ (s.launch 0).group 4 = none ∧ (s.x 6).toNat < 2 ∧ Released s 4 ∧
      (s.launch 0).place 3 1 = some 16 ∧
      (let key := s.mailTarget 16 0
       (s.ctx key).st ≠ .absent ∧ (s.ctx key).st ≠ .migrating ∧ s.parkedFor key = false ∧ (s.ctx key).mail.length < 8) ∧
      (let u := { s with ctxs := [(0, s.ctx 0), (16, { ctxOf [] with mail := [1, 2, 3, 4, 5, 6, 7, 8] })] }
       (u.ctx (u.mailTarget 16 0)).mail.length ≥ 8) ∧ (s.ctx 0).mail = [] ∧
      (let u := alone { ctxOf [] with mail := [4] }
       Issues u ∧ (u.ctx u.cur).mail = 4 :: []) := by
  unfold Issues Readable Released
  decide +kernel

/-- Witnesses of `StreamFences`: a dispatched vector store on stream 3, stores of the context that are posted, none, and all lost; a window address whose device can be
reached. -/
theorem witness_StreamFences :
    let mine := fun (s : State) => s.posts.filter fun p => p.key == s.cur && ({ rd := 5, rs1 := 5, rs2 := 0, imm := 0x0500FFFF } : Sh).streams.getLsbD p.stream &&
      p.copy.isNone && p.marker.isNone && p.dest != hostDest && destWithin s 5 p
    ({ rd := 5, rs1 := 5, rs2 := 0, imm := 0x0500FFFF } : Sh).scope24 = 5 ∧
    (let c := flying (.store 0 { mword 1 4 0 with str := 3 }) 0 0 none []
     (c.pend.any fun p => p.op.stream.any fun n => ({ rd := 5, rs1 := 5, rs2 := 0, imm := 0x0500FFFF } : Sh).streams.getLsbD n) = true) ∧
    (plain.ctx plain.cur).pend = [] ∧ (posted.ctx posted.cur).pend = [] ∧
    (∃ p ∈ mine posted, p.st ≠ .lost) ∧ mine plain = [] ∧
    (let s := { posted with posts := posted.posts.map fun p => { p with st := .lost, dest := 7 } }
     mine s ≠ [] ∧ (∀ p ∈ mine s, p.st = .lost ∧ p.dest < 4096) ∧ peerLost s.cur ((mine s).foldl (fun d p => min d p.dest) 4096) s = none) ∧
    (let s := { alone (ctxOf [(5, 0x0180700000000000)]) with regs := [(0x700000, 0x8000000000000000)] }
     let va := (s.x 5).toNat % 2 ^ 57
     Issues s ∧ Readable s 5 ∧ va / 2 ^ 55 % 4 = 3 ∧ s.unreachable (windowDev va) = false ∧ (s.ctx s.cur).pend = [] ∧
       (∀ t < 16, (s.stream (coreOfKey s.cur) t (windowDev va)).unacked < 64 ∧ s.markPending (coreOfKey s.cur) t (windowDev va) = false)) := by
  unfold Issues Readable
  decide +kernel

/-- A context with one lane group, a pending SH8 prefix where asked, and a free matrix queue. -/
def laned (pp : Bool) : State :=
  alone { ctxOf [(5, 0x0080000000000000), (20, 0x2000)] with grant := 1, sr := if pp then 1 else 0, pfx := if pp then 0x141 else 0 }

/-- The matrix word of a test. -/
def xword : ExM :=
  { d := 0, a := 5, b := 5, c := 0, e := 0, g1 := 0, g2 := 0, ty := 0, ch := 0, yld := 0, dly := 0, acc := 1, slot := 0, mm1 := 127, nm1 := 127
    kg := 0, fmta := 1, aoff := 0 }

/-- A bounded test of readable registers, for `Dispatchable`. -/
theorem dispatchable_of {s : State} {op : VOp}
    (h : (s.mayIssue s.cur && decide ((s.ctx s.cur).fetched = none) && decide (dispatchFault (s.ctx s.cur) s.prefixNow op = none) &&
      (((op.recorded s.prefixNow).1.toList ++ (op.recorded s.prefixNow).2.toList ++ op.unrecorded s.prefixNow).all fun r =>
        !(s.ctx s.cur).awaited r && (s.ctx s.cur).mark r == 0) &&
      !(s.ctx s.cur).ringFull && s.queueRoom s.cur op) = true) : Dispatchable s op := by
  simp only [Bool.and_eq_true, decide_eq_true_eq, List.all_eq_true, List.mem_append, Option.mem_toList, Bool.not_eq_true',
    beq_iff_eq] at h
  obtain ⟨⟨⟨⟨⟨h1, h0⟩, h2⟩, h3⟩, h4⟩, h5⟩ := h
  refine ⟨h1, h0, h2, fun r hr => h3 r ?_, h4, h5⟩
  rcases hr with hr | hr | hr
  · exact Or.inl (Or.inl hr)
  · exact Or.inl (Or.inr hr)
  · exact Or.inr hr

/-- Witnesses of `VectorDispatch`: instructions of every class that can be dispatched, with the prefix that a class asks for, and the
refusals' conditions. -/
theorem witness_VectorDispatch :
    Dispatchable (laned false) (.int 0 (lword 1 2 3 0)) ∧ Dispatchable (laned false) (.float 9 (lword 1 2 3 1)) ∧
    Dispatchable (laned false) (.cmp 0 (lword 1 2 3 0)) ∧ Dispatchable (laned false) (.misc 2 (lword 1 5 0 0)) ∧
    Dispatchable (laned false) (.perm 1 (lword 1 2 5 0)) ∧ Dispatchable (laned false) (.cvt 0 (lword 1 2 0 0)) ∧
    Dispatchable (laned false) (.red 0 (lword 7 2 0 1)) ∧ Dispatchable (laned false) (.load 0 (mword 1 5 0)) ∧
    Dispatchable (laned false) (.store 0 { mword 0 5 0 with e := 1 }) ∧ Dispatchable (laned true) (.quant 0 (mword 0 5 1)) ∧
    Dispatchable (laned true) (.quant 2 (mword 0 5 1)) ∧
    Dispatchable (laned false) (.expr { d := 5, a := 1, b := 0, c := 0, e := 0, g1 := 0, g2 := 0, ty := 1, ch := 0, yld := 0, dly := 0, kbf := 0, tok := 1 }) :=
  ⟨dispatchable_of (by decide +kernel), dispatchable_of (by decide +kernel), dispatchable_of (by decide +kernel), dispatchable_of (by decide +kernel),
    dispatchable_of (by decide +kernel), dispatchable_of (by decide +kernel), dispatchable_of (by decide +kernel), dispatchable_of (by decide +kernel),
    dispatchable_of (by decide +kernel), dispatchable_of (by decide +kernel), dispatchable_of (by decide +kernel), dispatchable_of (by decide +kernel)⟩

/-- Witnesses of its other premises: an address outside the window and in the core scratchpad; a prefix under an instruction that
takes none, no lanes, and 64 in flight. -/
theorem witness_VectorDispatch_refusals :
    (effective (laned false) 5 0).toNat / 2 ^ 55 % 4 ≠ 3 ∧ ((laned false).ctx 0).fetched = none ∧ ((laned true).ctx 0).pfx.toNat % 16 = 1 ∧
      (effective (laned false) 5 0).toNat / 2 ^ 55 % 4 = 1 ∧ (effective (laned false) 5 0).toNat / 2 ^ 52 % 8 = 0 ∧
    ((laned true).mayIssue 0 = true ∧ ((laned true).ctx 0).pp = true) ∧
    (plain.mayIssue plain.cur = true ∧ (plain.ctx plain.cur).pp = false ∧ (plain.ctx plain.cur).grant = 0) ∧
    (let p : Pend := { seq := 0, op := .int 0 (lword 1 2 3 0), pc := 0, w := 0, dra := 0, drb := 0, x := [], pfx := none, priv := 0, queued := false, req := none }
     let s := alone { ctxOf [] with grant := 1, pend := List.replicate 64 p }
     s.mayIssue s.cur = true ∧ (s.ctx s.cur).pp = false ∧ (s.ctx s.cur).grant ≠ 0 ∧ (s.ctx s.cur).ringFull = true) := by decide +kernel

/-- Witnesses of `MatrixDispatch`: every matrix instruction, a pair of prefix and types that `mld` accepts and one that it does not, and
a tile of the core. -/
theorem witness_MatrixDispatch :
    Dispatchable (laned true) (.mld { xword with aoff := 9 }) ∧ mldPair { xword with aoff := 9 } (laned true).prefixNow = true ∧
    mldPair { xword with fmta := 6 } (laned true).prefixNow = false ∧ Dispatchable (laned true) (.wload xword) ∧
    Dispatchable (laned false) (.mma xword) ∧ Dispatchable (laned false) (.mseq xword) ∧ Dispatchable (laned false) (.macrd xword) ∧
    Dispatchable (laned false) (.macwr xword) ∧ Dispatchable (laned false) (.acted true 0 none) ∧
    (let s := { laned false with clusters := [(0, { owner := [(1, 1)] })] }
     Tbl.get 0 (s.cluster (clusterOfCore (coreOfKey s.cur))).owner xword.acc.toNat = coreOfKey s.cur + 1) :=
  ⟨dispatchable_of (by decide +kernel), by decide +kernel, by decide +kernel, dispatchable_of (by decide +kernel),
    dispatchable_of (by decide +kernel), dispatchable_of (by decide +kernel), dispatchable_of (by decide +kernel),
    dispatchable_of (by decide +kernel), dispatchable_of (by decide +kernel), by decide +kernel⟩

/-- An instruction in flight of a test. -/
def inFlight (op : VOp) : Pend :=
  { seq := 0, op := op, pc := 0, w := 0, dra := 0, drb := 0, x := [], pfx := none, priv := 0, queued := false, req := none }

/-- A witness of `VectorIntegerLanes`: the last function code, bytes, v31 as destination, eight lane groups. -/
theorem witness_VectorIntegerLanes :
    let o := lword 31 1 2 5
    let p := { inFlight (.int 22 o) with grant := 8 }
    let s := alone { ctxOf [] with grant := 8, pend := [p] }
    let c := s.ctx 0
    c.pend = p :: [] ∧ p.op = .int 22 o ∧ 22 < 23 ∧ o.ty ∈ [0#3, 5#3, 6#3] ∧ p.grant ≤ 8 ∧ p.req = none ∧ c.live = true ∧ c.st ≠ .migrating ∧
      (∀ i, laneActive p o.g1 i → c.vmark o.a.toNat i = 0 ∧ c.vmark o.b.toNat i = 0) ∧ ∀ q ∈ ([] : List Pend), q.seq ≠ p.seq :=
  ⟨rfl, rfl, by decide, by decide, by decide, rfl, rfl, by decide +kernel, fun _ _ => ⟨rfl, rfl⟩, fun _ h => absurd h List.not_mem_nil⟩

/-- A witness of `VectorFaultsAreImprecise`: a poisoned lane of the first source, the last of its lane group, with a later instruction in
flight. -/
theorem witness_VectorFaultsAreImprecise :
    let o := lword 3 1 2 0
    let p := { inFlight (.int 14 o) with grant := 1 }
    let s := alone { ctxOf [] with grant := 1, pend := [p, inFlight (.int 0 o)], vp := [(256 + 31, 0x2000)] }
    let c := s.ctx 0
    c.pend = p :: [inFlight (.int 0 o)] ∧ p.op = .int 14 o ∧ p.req = none ∧ c.live = true ∧ c.st ≠ .migrating ∧
      c.laneMark [o.a.toNat, o.b.toNat] ((List.range (32 * p.grant)).filter fun i => maskBit p.xv o.g1 i) ≠ 0 ∧ 14 < 15 := by decide +kernel

/-- A context with one instruction in flight, dispatched with one lane group. -/
def oldest (p : Pend) : State := alone { ctxOf [] with grant := 1, pend := [p] }

/-- Such an instruction, with what was recorded. -/
def flew (op : VOp) (a b : Word) (pfx : Option Word) : Pend := { inFlight op with grant := 1, dra := a, drb := b, pfx := pfx }

/-- It is the oldest, and it can retire. -/
theorem oldest_of (p : Pend) (h : p.req = none ∧ p.grant ≤ 8) : Oldest 0 (oldest p) p [] :=
  ⟨rfl, h.1, rfl, nofun, h.2, fun _ hq => absurd hq List.not_mem_nil⟩

/-- No lane of it carries a mark. -/
theorem unmarked_of (p : Pend) (regs : List Nat) (act : Nat → Prop) : Unmarked ((oldest p).ctx 0) regs act := fun _ _ _ _ => rfl

/-- Witnesses of `VectorResults`: an instruction of each major, with types at the ends of their ranges, the lanes of a guard, a
position of a packed lane, and the tokens of an expression. -/
theorem witness_VectorResults :
    (∀ op ∈ [VOp.float 16 (lword 2 4 6 4), .cmp 9 (lword 1 2 3 6), .cmp 5 (lword 1 2 4 4), .misc 0 (lword 1 2 3 0), .misc 1 (lword 1 5 0 0),
        .misc 2 (lword 2 0 0 4), .misc 3 (lword 2 4 0 4), .misc 4 (lword 5 2 6 1), .misc 5 (lword 2 5 6 4), .misc 6 (lword 5 1 0 0),
        .perm 3 (lword 1 2 3 0), .cvt 8 (lword 1 2 3 0), .red 7 (lword 5 1 0 5), .red 10 (lword 2 4 0 4)],
      Oldest 0 (oldest (flew op 31 31 none)) (flew op 31 31 none) []) ∧
    tokensOK 0x00B59321 = true ∧ (∀ i, decide (i < 32) = true ↔ laneActive (flew (.red 0 (lword 5 1 0 0)) 0 0 none) 0 i) ∧
    laneActive (flew (.misc 4 (lword 5 2 6 1)) 0 31 none) 0 31 ∧ ¬ laneActive (flew (.misc 4 (lword 5 2 6 1)) 0 32 none) 0 32 := by
  refine ⟨fun op _ => oldest_of _ ⟨rfl, by simp [flew, inFlight]⟩, by decide +kernel, fun i => ?_, ?_, ?_⟩ <;>
    simp [laneActive, flew, inFlight]

/-- Witnesses of the slices of `VectorMemoryResults`: an offset at the end of a slice, one beyond it, and one that is misaligned. -/
theorem witness_VectorMemoryResults_slices :
    let o := { mword 3 0 1 with ty := 4, g1 := 0 }
    let p := flew (.load 4 o) 2040 0 none
    let off := fun (a : Word) => (r182 4 o (flew (.load 4 o) a 0 none) ((oldest p).ctx 0) 0).toNat
    Oldest 0 (oldest p) p [] ∧ (∀ i, laneActive p o.g1 i → (r182 4 o p ((oldest p).ctx 0) i).toNat % elemSize o.ty = 0 ∧
      (r182 4 o p ((oldest p).ctx 0) i).toNat + elemSize o.ty ≤ 2048) ∧ laneActive p o.g1 0 ∧ off 2048 % 8 = 0 ∧ 2048 < off 2048 + 8 ∧
      off 2041 % 8 ≠ 0 := by
  refine ⟨oldest_of _ ⟨rfl, by simp [flew, inFlight]⟩, fun i _ => ?_, by simp [laneActive, flew, inFlight], by decide +kernel, by decide +kernel, by decide +kernel⟩
  rw [show (r182 4 _ _ _ i).toNat = 2040 from rfl]
  decide

/-- The lanes of such an instruction without a guard. -/
def wholeGroup : List Nat := List.range 32

/-- A plane of SH8 and one of E4M3 at 0x1000, their scales at 0x2000. -/
def planes (op : VOp) (fmt : Nat) : State :=
  { oldest (flew op 0x1000 0x2000 (some (BitVec.ofNat 64 fmt))) with mem := [(0x1000, 0x7F), (0x2000, 0x7F), (0x2001, 0x79)] }

/-- Witnesses of the loads, stores and quantising instructions of `VectorMemoryResults`: their bytes can be read, and written. -/
theorem witness_VectorMemoryResults :
    (let o := mword 3 0 0
     let p := flew (.load 0 o) 0x1000 0 none
     ∃ s, (windowStage 0 p (wholeGroup.map fun i => ((r182 0 o p ((oldest p).ctx 0) i).toNat, 4))).run (clearNotes (oldest p)) =
         .ok false s ∧ ∃ got t, (fetch 0 p 0 (wholeGroup.map fun i => ((r182 0 o p ((oldest p).ctx 0) i).toNat, 4))).run s = .ok got t) ∧
    (let o := { mword 3 0 0 with ty := 2 }
     let s0 := planes (.load 3 o) 5
     let p := flew (.load 3 o) 0x1000 0x2000 (some 5)
     pfxFmt p.pfx = 5 ∧ ∃ s, (windowStage 0 p (widePieces o p wholeGroup)).run (clearNotes s0) = .ok false s ∧
       ∃ got t, (fetch 0 p 0 (widePieces o p wholeGroup)).run s = .ok got t) ∧
    (let o := mword 0 0 0
     let p := flew (.store 0 o) 0x1000 0 none
     ∃ u, (vecWrite 0 p ((clearNotes (oldest p)).sourceOf 0) 0 false (wholeGroup.map fun i =>
       ((r182 0 o p ((oldest p).ctx 0) i).toNat, leBytes 4 (vecElem ((oldest p).ctx 0) 0 0 i 0)))).run (clearNotes (oldest p)) = .ok () u) ∧
    (let o := mword 3 0 1
     let p := flew (.quant 2 o) 0x1000 0x2000 (some 1)
     let reads := [0].flatMap (blockPieces 1 0x1000 0x2000)
     ∃ s, (do translateFirst 0 p reads; windowStage 0 p reads : M Bool).run (clearNotes (planes p.op 1)) = .ok false s ∧
       ∃ got t, (fetch 0 p 0 reads).run s = .ok got t ∧ (∀ q ∈ reads, gotClean got q ∧ gotArrived got q) ∧
       ∃ t', (noteVec 0 true false reads).run t = .ok () t' ∧ ∃ u, (vecWrite 0 p (t'.sourceOf 0) 0 true
         ([0].flatMap fun j => byteplan (blockPieces 1 0x1000 0x2000 j) (List.replicate 34 0))).run t' = .ok () u) := by
  have two : ∀ (a : M Bool) (s0 : State) (b : M (List Got)), (probe a s0 fun x s => !x && probe b s fun _ _ => true) = true →
      ∃ s, a.run s0 = .ok false s ∧ ∃ got t, b.run s = .ok got t := by
    intro a s0 b h
    obtain ⟨x, s, hs, hx⟩ := probed h
    rw [Bool.and_eq_true, Bool.not_eq_true'] at hx
    obtain ⟨rfl, hx⟩ := hx
    obtain ⟨got, t, ht, _⟩ := probed hx
    exact ⟨s, hs, got, t, ht⟩
  refine ⟨two _ _ _ (by decide +kernel), ⟨rfl, two _ _ _ (by decide +kernel)⟩, unit_of (by decide +kernel), ?_⟩
  intro o p reads
  obtain ⟨x, s, hs, hx⟩ := probed (m := (do translateFirst 0 p reads; windowStage 0 p reads : M Bool)) (s := clearNotes (planes p.op 1))
    (P := fun x s => !x && probe (fetch 0 p 0 reads) s fun got t =>
      (reads.all fun q => decide ((gotAt got q.1 q.2).mark = 0) && decide ((gotAt got q.1 q.2).bytes ≠ none)) &&
      probe (noteVec 0 true false reads) t fun _ t' => probe (vecWrite 0 p (t'.sourceOf 0) 0 true
        ([0].flatMap fun j => byteplan (blockPieces 1 0x1000 0x2000 j) (List.replicate 34 0))) t' fun _ _ => true) (by decide +kernel)
  rw [Bool.and_eq_true, Bool.not_eq_true'] at hx
  obtain ⟨rfl, hx⟩ := hx
  obtain ⟨got, t, ht, hg⟩ := probed hx
  rw [Bool.and_eq_true] at hg
  obtain ⟨hq, hn⟩ := hg
  obtain ⟨_, t', hn', hw⟩ := probed hn
  obtain ⟨_, u, hu, _⟩ := probed hw
  exact ⟨s, hs, got, t, ht, fun q hq' => by simpa [gotClean, gotArrived] using List.all_eq_true.1 hq q hq', t', hn', u, hu⟩

/-- The extended word of a test, with its tail. -/
def tword (tail : BitVec 64) : ExT :=
  { d := 5, a := 5, b := 0, c := 0, e := 0, g1 := 0, g2 := 0, ty := 0, ch := 0, yld := 0, dly := 0, tail := tail }

/-- A copy word of a test: destination in x5, source in x6, shape in x7. -/
def cword : ExC :=
  { d := 9, a := 5, b := 6, c := 7, e := 0, g1 := 0, g2 := 0, ty := 0, ch := 0, yld := 0, dly := 0, val := 0, cw := 0, bar := 0, be := 0, fe := 0
    fol := 0, str := 0, ast := 0, pool := 5, ring := 5, bsz := 0 }

/-- A context that can issue copies: shapes of one dimension, of two with pitches in x11, with DIMS 3 and of no rows, and an address of a
completion word that is aligned and one that is not. -/
def copier : State :=
  alone (ctxOf [(5, 0x1000), (6, 0x2000), (7, 256), (10, 0x4000000001000080), (11, 0x10000000100), (12, 0xC000000000000000),
    (13, 0x4000000000000080), (14, 0x3000), (15, 0x3004)])

/-- Witnesses of `CopyIssue`: a copy of one dimension and one of two; every refused shape; a full engine; and the registers' bounds. -/
theorem witness_CopyIssue :
    Issues copier ∧ (∀ r < 16, Readable copier r) ∧ OrderFree copier true ∧ copier.postsOut copier.cur = false ∧ copier.copiesOf 0 < 1024 ∧
    (let w := copier.x 7
     field w 62 2 = 0 ∧ field w 56 6 = 0 ∧ field w 40 16 = 0 ∧ (7#6).toNat + 0 ≤ 63) ∧
    (let w := copier.x 10
     field w 62 2 = 1 ∧ field w 56 6 = 0 ∧ field w 40 16 = 0 ∧ field w 24 16 ≠ 0 ∧ (10#6).toNat + 1 ≤ 63) ∧
    field (copier.x 12) 62 2 = 3 ∧ (field (copier.x 13) 62 2 = 1 ∧ field (copier.x 13) 24 16 = 0) ∧ 63 < (63#6).toNat + 1 ∧
    copier.x 9 = 0 ∧ (copier.x 14).toNat % 8 = 0 ∧ (copier.x 15).toNat % 8 ≠ 0 ∧ (copier.x 5).toNat % 128 = 0 ∧
    (let y : Copy := { id := 0, launch := 0, key := none, core := 0, slot := 0, cl := 0, tag := 1, env := copier.envOf 0, x := 256, rows := 1, planes := 1
                       sr := 0, dr := 0, sp := 0, dp := 0, src := 0, dst := 0, table := 0, astage := false, fmt := 0, scale := 0, stream := 0, mode := 0
                       pool := 0, ring := 0, bsz := 0, follow := none, done := none, bar := none, next := 0, total := 0, landed := 0, cow := []
                       wrote := [], req := none, stopped := false, faulted := false, queueEntry := none, node := none }
     copier.overlap y (copier.destSpans y) = none ∧
     (let s := { copier with copies := List.replicate 1024 y }
      Issues s ∧ s.copiesOf (coreOfKey s.cur) ≥ 1024)) := by
  unfold Issues Readable OrderFree
  decide +kernel

/-- The memory word of a tile of a test. -/
def tileWord (a b c : BitVec 6) : LgM := { mword 0 a b with c := c }

/-- A context with a tile of two rows of 16 bytes, an empty one, one of 33 lines, and one whose far side spans two devices. -/
def tiler : State :=
  alone (ctxOf [(5, 0x0080000000000000), (6, 0x1000), (7, 0x10000100002), (8, 0), (9, 0x8000010021), (10, 0x01800FFFFFFFFFF0), (11, 0x1000000010002), (12, 0x0180000000000000)])

/-- A tile's sides, found by evaluation. -/
theorem tileSides_of {split store : Bool} {near n : Nat} {ps : List (Nat × Nat)} {place : Nat} {locs : List (Nat × Nat × Loc)}
    {s t : State} (h : (match (tileLocal near n).run s with
      | .ok a s1 => match (tileFar split store ps).run s1 with
        | .ok l u => decide (a = place ∧ l = locs ∧ u = t)
        | .error _ _ => false
      | .error _ _ => false) = true) :
    ∃ s1, (tileLocal near n).run s = .ok place s1 ∧ (tileFar split store ps).run s1 = .ok locs t := by
  split at h
  · next heq =>
    split at h
    · next hl =>
      simp only [decide_eq_true_eq] at h
      obtain ⟨rfl, rfl, rfl⟩ := h
      exact ⟨_, heq, hl⟩
    · exact absurd h (by decide)
  · exact absurd h (by decide)

/-- The rows of the test's tile. -/
def tileLocs : List (Nat × Nat × Loc) := [(0x1000, 16, .mem 0x1000 0), (0x1100, 16, .mem 0x1100 0)]

/-- Witnesses of the premises of `TilesAndSums` on a tile within the package that all four forms share: `tld` and `tst`, whole and split,
whose far side starts at `x6`. -/
theorem witness_tileAt :
    TileAt false false (tileWord 5 6 7) tiler (clearNotes tiler) (placeCore 0 0) tileLocs ∧
    TileAt true false (tileWord 5 6 7) tiler (clearNotes tiler) (placeCore 0 0) tileLocs ∧
    TileAt false true (tileWord 6 5 7) tiler (clearNotes tiler) (placeCore 0 0) tileLocs ∧
    TileAt true true (tileWord 6 5 7) tiler (clearNotes tiler) (placeCore 0 0) tileLocs := by
  have go : ∀ (o : LgM) (split store : Bool), Readable tiler o.a.toNat → Readable tiler o.b.toNat → o.c = 7 →
      ((tiler.x (if store then o.a else o.b)).toNat % 2 ^ 57 = 0x1000 ∧
        (tiler.x (if store then o.b else o.a)).toNat % 2 ^ 57 = 0x0080000000000000) →
      TileAt split store o tiler (clearNotes tiler) (placeCore 0 0) tileLocs := by
    intro o split store ha hb hc h
    have hn : (tileShape (tiler.x 7)).rows * (tileShape (tiler.x 7)).rb = 32 := by decide +kernel
    have hp : (tileShape (tiler.x 7)).pieces 0x1000 = [(0x1000, 16), (0x1100, 16)] := by decide +kernel
    refine ⟨⟨rfl, rfl, rfl⟩, ha, hb, by rw [hc]; exact ⟨rfl, rfl⟩, rfl, ?_⟩
    cases store <;> simp only [Bool.false_eq_true, if_true, if_false] at h <;> obtain ⟨hf, hl⟩ := h <;>
      simp only [Bool.false_eq_true, if_true, if_false, hc, hf, hl, hn, hp] <;>
      refine ⟨by decide, by decide +kernel, ⟨rfl, rfl, rfl, rfl⟩, noWaiter_of_reset _ rfl, ?_, by decide +kernel, by decide +kernel⟩ <;>
      cases split <;> exact tileSides_of (by decide +kernel)
  exact ⟨go _ _ _ ⟨rfl, rfl⟩ ⟨rfl, rfl⟩ rfl (by decide +kernel), go _ _ _ ⟨rfl, rfl⟩ ⟨rfl, rfl⟩ rfl (by decide +kernel),
    go _ _ _ ⟨rfl, rfl⟩ ⟨rfl, rfl⟩ rfl (by decide +kernel), go _ _ _ ⟨rfl, rfl⟩ ⟨rfl, rfl⟩ rfl (by decide +kernel)⟩

/-- Witnesses of the premises on its lines: nothing holds them, so that a load reads them and a store owns and writes them. -/
theorem witness_tileLines :
    (∀ l ∈ tileLocs, l.2.2.place?.isSome ∧ ∀ q, l.2.2 ≠ .mem q 3) ∧
    (∃ v, TileReads false (clearNotes tiler) tileLocs v) ∧ (∃ v, TileReads true (clearNotes tiler) tileLocs v) ∧
    (let rows := packedRows (clearNotes tiler) (placeCore 0 0) tileLocs
     let ws := (tileLocs.zip rows).map fun x => (placeOf x.1, x.2.2.2)
     (clearNotes tiler).firstMark (placeCore 0 0) 32 = 0 ∧ (∀ w ∈ ws, (clearNotes tiler).ownPost 0 w.1 w.2.length = false) ∧
       TileWrites false (clearNotes tiler) ws ∧ TileWrites true (clearNotes tiler) ws) := by
  refine ⟨?_, ?_, ?_, by decide +kernel, by decide +kernel, ?_, ?_⟩
  · intro l hl
    simp only [tileLocs, List.mem_cons, List.not_mem_nil, or_false] at hl
    rcases hl with rfl | rfl <;> exact ⟨rfl, by intro q h; simp at h⟩
  · obtain ⟨v, hv⟩ := unit_of (m := takeLines 0 false [0x1000, 0x1100]) (s := clearNotes tiler) (by decide +kernel)
    exact ⟨v, fun u hu => absurd hu List.not_mem_nil, by decide +kernel, hv⟩
  · exact unit_of (m := readLines (.mx 0) 0 [0x1000, 0x1100]) (s := clearNotes tiler) (by decide +kernel)
  · refine ⟨fun u hu => absurd hu List.not_mem_nil, by decide +kernel, ?_⟩
    obtain ⟨_, v, hv, hw⟩ := ok_of (m := takeLines 0 true [0x1000, 0x1100]) (s := clearNotes tiler)
      (P := fun _ v => (match (writeLines 0 0 { (clearNotes tiler).sourceOf 0 with via := .held }
          [(List.range 16).map fun i => (0x1000 + i, 0), (List.range 16).map fun i => (0x1100 + i, 0)]).run v with
        | .ok _ _ => true
        | .error _ _ => false) = true) (by decide +kernel)
    obtain ⟨v', hw⟩ := unit_of hw
    exact ⟨v, v', hv, hw⟩
  · exact unit_of (m := writeLines 0 0 { (clearNotes tiler).sourceOf 0 with via := .mx 0 }
      [(List.range 16).map fun i => (0x1000 + i, 0), (List.range 16).map fun i => (0x1100 + i, 0)]) (by decide +kernel)

/-- Witnesses of its other clauses: the empty tile, the tile of 33 lines, and the gather-sum of no device, of too many, and of two of
which none, or both, can be reached. -/
theorem witness_TilesAndSums :
    Issues tiler ∧ Readable tiler 5 ∧ Readable tiler 8 ∧ OrderFree tiler false ∧ OrderFree tiler true ∧
    (tileShape (tiler.x 8)).rows * (tileShape (tiler.x 8)).rb = 0 ∧
    (let sh := tileShape (tiler.x 9)
     sh.rows * sh.rb ≠ 0 ∧ (ascending ((sh.pieces 0x1000).map fun q => q.1 / 128)).length = 33) ∧
    (let sh := tileShape (tiler.x 7)
     sh.rows * sh.rb ≠ 0 ∧ ((sh.pieces 0x01800FFFFFFFFFF0).map fun q => if inWindow q.1 then windowDev q.1 else 4096).eraseDups.length > 1) ∧
    (tiler.x 8).toNat = 0 ∧ 256 < (257 : Nat) ∧ 2048 < 2047 + (2 : Nat) ∧
    (let va := (tiler.x 12).toNat
     inWindow va = true ∧ va / 2 ^ 42 % 4 = 0 ∧ va % 8 = 0) ∧
    (∀ d ∈ [0, 1], tiler.lineAwaited 0 (0x0180000000000000 + d * 2 ^ 44) = false ∧ tiler.ownWindow 0 (0x0180000000000000 + d * 2 ^ 44) 8 = [] ∧
      tiler.unreachable d = true) ∧ peerLost 0 0 tiler = none ∧
    { tiler with regs := [(0x700000, 0x8000000000000000)] }.unreachable 1 = false := by
  unfold Issues Readable OrderFree
  decide +kernel

/-- Witnesses of `levels`: outside an update, and inside one with an operand of each kind; a block with and without the neighbour named. -/
theorem witness_levels :
    Issues plain ∧ (plain.ctx plain.cur).blk = none ∧ Issues updating ∧ (updating.ctx 0).blk = some 0 ∧ (updating.ctx 0).inUpdate = true ∧
      Readable updating 5 ∧ Readable updating 6 ∧ Released updating 5 ∧ ¬ Released { updating with posts := posted.posts } 5 ∧
      ((clearNotes updating).neighbours 0 0).length = 1 ∧
      (∀ n ∈ (clearNotes updating).neighbours 0 0, ¬ 2 ^ 30 ≤ ((0 : BitVec 32) - ((clearNotes updating).neighbour 0 n).1).toInt.natAbs) ∧
      ((updating.x 6).toNat / 2 ^ 34 = 0 ∧ (updating.x 6).getLsbD 32 = true ∧ (updating.x 6).toNat % 2 ^ 32 = 1) ∧
      (0x100000000#64).getLsbD 32 = true ∧ (0x100000000#64).toNat % 2 ^ 32 = 0 ∧ (0x400000000#64).toNat / 2 ^ 34 ≠ 0 ∧ (7#64).toNat % 256 > 6 := by
  unfold Issues Readable Released
  decide +kernel

/-- A gateway core with two ready blocks, in an ordinary and in a deterministic launch. -/
def gateway (det : Bool) : State :=
  { State.reset with
    cur := 112
    ctxs := [(112, { ctxOf [(5, 9), (6, 0)] with sr := if det then 0x100 else 0 })]
    cores := [(7, { gwrx := 0x400000000, gready := [(0, 6), (1, 4)], gqueue := [1, 0], gnext := 0 })] }

/-- Witnesses of `gateways`: a core that is a gateway and one that is not, with a block to take in either mode, and with none. -/
theorem witness_gateways :
    Issues plain ∧ gatewayCore (coreOfKey plain.cur) = false ∧
    (∀ det : Bool, Issues (gateway det) ∧ gatewayCore (coreOfKey (gateway det).cur) = true ∧ Readable (gateway det) 5 ∧ Readable (gateway det) 6 ∧
      ((gateway det).ctx (gateway det).cur).wait = .none ∧ (gateway det).x 6 = 0 ∧ (gateway det).x 5 ≠ 0) ∧
    (let k := (gateway false).core 7
     k.gqueue.head? = some 1 ∧ Tbl.get 0 k.gready k.gnext ≠ 0) := by
  unfold Issues Readable
  decide +kernel

/-- Witnesses of `levelEvents`: a table with one runnable block, a notice for a launch, a stalled die, and a stalled launch. -/
theorem witness_levelEvents :
    (let s := chain true 2 1 0 1
     (s.launch 0).dispatches = true ∧ s.runnable 0 0 = (true, none) ∧ s.blockCore 0 0 = some 0 ∧ s.freeSlot 0 0 = some 0 ∧
       s.levelCtxs 0 0 < (s.launch 0).f 0x3A 1 / 16 % 16 ∧ (s.launch 0).lvlT = true ∧ (s.launch 0).active = true) ∧
    (let s := { chain true 2 1 0 1 with regs := [(0x700000, 0x8000000000000000)], lost := [(0, 8)] }
     s.domEn = true ∧ s.isLost 3 = true ∧ s.isLost 2047 = false ∧ s.launches = [(0, s.launch 0)]) ∧
    ({ st := .frozen, stalled := true } : Launch).stalled = true := by decide +kernel

/-- Witnesses of `RegisterWrites`: offsets that the tables list, first and last of their ranges; queues in every state; an invalidation of
each kind; and a migration that runs, one refused and one of no leaf. -/
theorem witness_RegisterWrites :
    (∀ off ∈ [0x008, 0x058, 0x700020, 0x500008], off % 8 = 0 ∧ off < 0x800000 ∧ registerAfter off 0 5 ≠ none) ∧ 4 % 8 ≠ 0 ∧
    (({ State.reset with queues := [(63, { st := .switchedOut })] } : State).queue 63).st = .switchedOut ∧
    ((0x0001#64).getLsbD 0 = true ∧ (0x0001#64).toNat / 2 % 4 = 0) ∧ ((0x7#64).getLsbD 0 = true ∧ (0x7#64).toNat / 2 % 4 = 3) ∧
    (let s := { State.reset with mem := smallTable, engines := [(0, { pte := 0x13000, dst := 0x200000 }), (1, { busy := true, pte := 0x13000, dst := 0x200000, ctl := 2 })] }
     let e := Tbl.get { pte := 0 } s.engines 0
     let leaf := BitVec.ofNat 64 (leNat (s.bytes e.pte.toNat 8))
     e.busy = false ∧ migrateOK (3#64 &&& 0x1E#64) e.dst = true ∧ migrateOK (0x1E#64 &&& 0x1E#64) e.dst = false ∧ leaf.getLsbD 0 = true ∧ leaf.getLsbD 1 = false ∧
       leaf.getLsbD 60 = false ∧ leaf.toNat / 2 ^ 9 % 8 ≤ 1 ∧ (Tbl.get { pte := 0 } s.engines 1).busy = true ∧ Memory.wf s.mem = true ∧ s.tiles = [] ∧ s.posts = [] ∧
       e.pte.toNat + 8 ≤ e.dst.toNat) := by decide +kernel

/-- Witnesses of the unit registers' clauses of `RegisterWrites`. -/
theorem witness_unitWrites :
    (255 < 256 ∧ 3 < 4 ∧ 7 < 8 ∧ 15 < 16 ∧ 2 < 3 ∧ 2047 < 2048 ∧ 31 < 32 ∧ 23 < 24) ∧ gatewayCore 7 = true ∧
    (let o := (0x0001000100000080#64).toNat % 2 ^ 26
     (0x0001000100000080#64).toNat / 2 ^ 48 % 16 ≤ 13 ∧ o % 2 ^ ((0x0001000100000080#64).toNat / 2 ^ 48 % 16 + 7) ≠ 0) ∧
    (∀ p ∈ State.reset.cores, p.1 = 7 ∨ p.1 / 512 ≠ 7 / 512) ∧ (∀ r ∈ State.reset.wreqs, ∀ p ∈ r.parts, p.1 / 64 ≠ 0) ∧
    unitRetirable 0x10000000 = true ∧ unitRetirable 0x100001FF = true ∧ unitRetirable 0x50000000 = false ∧ State.reset.repair.length < 1024 ∧
    (homeDie 0x4000 = some 0 ∧ physKind 0x4000 = some 0) := by decide +kernel

/-- Witnesses of `ContextEvents`, `trapEvents`: a trap that is due and none, and the order of those due. -/
theorem witness_trapEvents :
    plain.trapDue 0 = false ∧
    (let a := { asyncTrap 6 1 0 with kind := .imprecise }
     let b := { asyncTrap 21 0 7 with kind := .after }
     let s := alone { ctxOf [] with due := [a, b] }
     s.trapDue 0 = true ∧ (s.ctx 0).due.find? (·.kind == .after) = some b) ∧
    (let s := alone { ctxOf [] with due := [asyncTrap 6 1 0] }
     s.trapDue 0 = true ∧ (∀ t ∈ (s.ctx 0).due, t.kind ≠ .after) ∧ (s.ctx 0).due.head? = some (asyncTrap 6 1 0)) := by decide +kernel

/-- A rollback team of one member, on core 0, with a checkpoint and one undo entry, whose trap is due. -/
def team : State :=
  let f : Trap := { asyncTrap 5 0 0x1234 with kind := .imprecise }
  { State.reset with
    ctxs := [(0, { ctxOf [(5, 9)] with rolling := true, wait := .unit, due := [f], rollDue := true, check := some { pc := 0x40, x := [(5, 8)], xp := [], sr := 0, pfx := 0, arrivals := 0 } })]
    clusters := [(0, { undo := [{ launch := 0, team := 3, place := placeCore 0 0x100, bytes := [1, 2, 3, 4, 5, 6, 7, 8], marks := [0, 0, 0, 0, 0, 0, 0, 0] }] })]
    launches := [(0, { st := .running, cores := [0], groups := [{ g := 3, members := [0], rb := true, rcm := 0 }], bind := [(6144, 0x8000)] })] }

/-- A witness of the rollback clause of `trapEvents`. -/
theorem witness_rollback :
    let g : Group := { g := 3, members := [0], rb := true, rcm := 0 }
    let ms := team.teamMembers 0 g
    team.teamOf 0 = some g ∧ (team.ctx 0).due.length = 1 ∧ (team.ctx 0).rolling = true ∧ (team.ctx 0).rollDue = true ∧ ms = [0] ∧
    g.g ∉ (team.launch 0).uncovered ∧ (∀ k ∈ ms, (team.die (dieOfCore (coreOfKey k))).dead = false) ∧
    (∀ p ∈ team.clusters, (0, g.g) ∉ p.2.ovf) ∧ (team.ctx 0).grant = 0 ∧ ((team.ctx 0).check).isSome ∧
    (∀ u ∈ (team.cluster 0).undo, u.place % 8 = 0 ∧ u.bytes.length = 8) := by decide +kernel

/-- 18's rollback in that state: the registers are the checkpoint's, the logged bytes are back, and EPC is the checkpoint's pc. -/
theorem test_rollback :
    let t := next (exec (.rollback 0) team)
    let c := t.ctx 0
    c.xr 5 = 8 ∧ c.epc = 0x40 ∧ c.etval = 0x1234 ∧ t.bytes (placeCore 0 0x100) 8 = [1, 2, 3, 4, 5, 6, 7, 8] := by decide +kernel

/-- Witnesses of `hintEvents`: every hint, and a take of a gateway queue before and at its clock. -/
theorem witness_hintEvents :
    (∀ w ∈ [Wait.hint true 0, .hint true 3, .hint false 3], ((alone { ctxOf [] with wait := w }).ctx 0).wait = w) ∧
    (∀ y m, (plain.ctx 0).wait ≠ .hint y m) ∧
    (let s := alone { ctxOf [] with st := .held, wait := .gateway 5 10 false 0 }
     (s.ctx 0).wait = .gateway 5 10 false 0 ∧ (s.ctx 0).live = true ∧ s.clock < 10 ∧ 10 ≤ { s with clock := 10 }.clock) :=
  ⟨by decide +kernel, by intro y m h; simp [plain, alone, ctxOf, State.ctx, Tbl.get] at h, by decide +kernel⟩

/-- Witnesses of `moveEvents`: a core with three ready helpers that may move, and one with none; a helper that arrives. -/
theorem witness_moveEvents :
    (let h := { ctxOf [] with standing := .helper, sr := 0x200, lastIssue := 5 }
     let s := { State.reset with clock := 4096, ctxs := [(0, ctxOf []), (1, h), (2, h)] }
     s.freeSlot (s.lightest 0) 0 = some 0 ∧ s.readyCount 0 ≥ s.readyCount (s.lightest 0) + 2 ∧ s.leastRecent (s.movable 0) = some 1) ∧
    (plain.leastRecent (plain.movable 0) = none) ∧
    (let s := alone { ctxOf [] with st := .migrating, moving := some 17 }
     (s.ctx 0).moving = some 17 ∧ (s.ctx 0).st = .migrating ∧ 17 ≠ 0 ∧ ∀ p ∈ s.posts, p.key = 0 → p.st = .lost) := by decide +kernel

/-- A sleeping `wait.eq` of the word at 0x1000 for 7. -/
def sleeper (va : Va) : State := alone { ctxOf [] with st := .sleeping, wait := .word va 7 false 4 }

/-- Witnesses of `waitEvents`: waits on a word of this package and of a device, a gating load that has been served, a deferred arrival
whose copies are over, and a tile that takes a line from none, from a younger and not from an older holder. -/
theorem witness_waitEvents :
    (let s := sleeper 0x1000
     (s.ctx 0).wait = .word 0x1000 7 false 4 ∧ (s.ctx 0).st = .sleeping) ∧
    (let s := { sleeper 0x0180000000000000 with regs := [(0x700000, 0x8000000000000001)] }
     (0x0180000000000000#57).toNat / 2 ^ 55 % 4 = 3 ∧ s.unreachable (windowDev 0x0180000000000000) = false ∧ s.lineAwaited 0 0x0180000000000000 = false) ∧
    (let w : Waiter := { key := 0, obj := 64, rd := 5, next := shortNext, gate := true, watch := none, served := some 3 }
     let s := { plain with clusters := [(0, { waiters := [w] })] }
     (s.clusters.findSome? fun p => (p.2.waiters.find? fun w => w.gate && w.served.isSome && coreOfKey w.key == 0).map fun w => (p.1, w)) = some (0, w) ∧
       w.served = some 3 ∧ (s.ctx w.key).st ≠ .free) ∧
    (let b : Bard := { id := 4, launch := 0, group := 3, role := 0, key := 0, copies := [2] }
     let s := { plain with bards := [b] }
     s.bards.find? (·.id == 4) = some b ∧ (∀ c ∈ s.copies, c.id ∈ b.copies → c.faulted = true) ∧ (∀ p ∈ s.posts, p.key ≠ b.key) ∧ (s.ctx b.key).pend = []) ∧
    (let u : Tile := { key := 0, store := true, age := 3, lines := [0x1000, 0x1080], got := 0 }
     let young : Tile := { key := 16, store := true, age := 5, lines := [0x1000, 0x2000], got := 1 }
     let s := { plain with tiles := [u, young] }
     s.tiles.find? (·.key == 0) = some u ∧ u.lines[u.got]? = some 0x1000 ∧ s.hostHolds 0x1000 = false ∧
       (s.tiles.filter fun h => h.key != 0 && (h.lines.take h.got).contains 0x1000) = [young] ∧ u.older young = true ∧ young.got < young.lines.length ∧
       young.older u = false) := by decide +kernel

/-- The word of a sleeping `wait` is found, and no watchpoint matches it. -/
theorem witness_waitEvents_word :
    ∃ loc t, (resolve ((sleeper 0x1000).envOf 0) 0x1000 8 accRead).run { sleeper 0x1000 with cur := 0 } = .ok loc t ∧
      (loc = .mem 0x1000 0 ∧ t.readWaits (.l1 0) 0x1000 = false ∧ watchHits t 0 true false 0x1000 8 = []) := ok_of (by decide +kernel)

/-- A posted store of a test towards a destination. -/
def postTo (dest : Nat) (st : PostState) : Post :=
  { id := 3, key := 0, core := 0, slot := 0, launch := 0, stream := 0, dest := dest, seq := 0, st := st, va := 0x4000, place := 0x4000, bytes := [1, 2, 3, 4]
    marker := none, copy := none }

/-- The package with that store. -/
def withPost (dest : Nat) (st : PostState) : State :=
  { plain with posts := [postTo dest st], regs := [(0x700000, 0x8000000000000001)], lost := [(0, 8)] }

/-- Witnesses of `StreamEvents`, `sends`, `commits` and `acknowledgements`: a stream with room, one with 64 unacknowledged, a store that
is expected, one for another device, one for host memory, and a peer that is lost and one that is not. -/
theorem witness_posts :
    (let s := withPost 2048 .waiting
     s.posts.find? (·.id == 3) = some (postTo 2048 .waiting) ∧ (s.stream 0 0 2048).unacked < 64 ∧
       ¬ ∃ q ∈ s.posts, q.core = 0 ∧ q.stream = 0 ∧ q.dest = 2048 ∧ q.st = .waiting ∧ q.order < (postTo 2048 .waiting).order) ∧
    64 ≤ (({ plain with cores := [(0, { streams := [(2048, { unacked := 64 })] })] } : State).stream 0 0 2048).unacked ∧
    (let s := withPost 2048 .sent
     let p := postTo 2048 .sent
     s.posts.find? (·.id == 3) = some p ∧ p.tile = none ∧ p.marks = [] ∧ p.skip = [] ∧ p.seq = s.expected (windowKey 2048 p.core p.stream (p.dest - 2048)) ∧
       s.marksLet 2048 p.core p.stream (p.dest - 2048) = true ∧ s.writeWaits .home p.place = false) ∧
    ((withPost 7 .sent).posts = [postTo 7 .sent] ∧ 7 ≠ (withPost 7 .sent).devId) ∧ (postTo 4096 .sent).dest = 4096 ∧
    (let s := withPost 7 .committed
     s.domEn = true ∧ s.isLost 3 = true ∧ s.isLost 2 = false ∧ s.peerPosts = [] ∧ 0 = s.expected (windowKey 2 2047 15 0) ∧ s.marksLet 2 2047 15 0 = true) := by
  decide +kernel

/-- A window request of a test. -/
def wantOne (kind : ReqKind) (parts : List (Nat × Va × Nat)) : WReq :=
  { id := 4, key := 0, kind := kind, va := 0x0180700000000000, parts := parts, answers := [], lost := [], refused := [], returned := [] }

/-- Witnesses of `responses`, `losses` and `gatewayBlocks`: a scalar load and a sum that wait for a device, a timeout, a lost route, and a
block of a gateway area that is whole and one that is not. -/
theorem witness_responses :
    (let r := wantOne (.load 0 5 shortNext false 0) [(7, 0x0180700000000000, 8)]
     let s := { alone { ctxOf [] with st := .held, wait := .unit } with wreqs := [r] }
     s.wreqs.find? (·.id == 4) = some r ∧ 7 ≠ s.devId ∧ (s.ctx r.key).st = .held ∧ watchHits s r.key true false 0x0180700000000000 8 = [] ∧
       s.isLost 7 = false ∧ (s.launch (s.ctx r.key).launch).plt = false ∧ s.posts = []) ∧
    (let r := { wantOne (.ldsum 0 0 5 7 2 shortNext) [(7, 0x0180700000000000, 8), (8, 0x0180800000000000, 8)] with answers := [(1, [0, 0, 0, 0, 0, 0, 0, 1])], returned := [8] }
     r.parts = (List.range 2).map (fun i => (7 + i, BitVec.ofNat 57 (0x0180700000000000 + i * 2 ^ 44), 8)) ∧ Tbl.get [] r.answers (7 - 7) = [] ∧ 7 ∉ r.returned ∧
       ∀ i < 2, 7 + i ≠ 7 → 7 + i ∈ r.returned) ∧
    ((∃ p ∈ (withPost 7 .sent).posts, p.dest = 7 ∧ p.st ≠ .lost) ∧ (withPost 7 .sent).isLost 7 = false ∧ ∀ r ∈ (withPost 7 .sent).wreqs, ∀ p ∈ r.parts, p.1 ≠ 7) ∧
    (let s := withPost 7 .sent
     Tbl.get 0 s.routes 7 < 24 ∧ s.domEn = true ∧ s.portUp (Tbl.get 0 s.routes 7) = false) ∧
    (let k : Core := { gwrx := 0x200000000, gcount := [(0, 2 * 2048 + 5), (1, 128 * 2048 + 5)] }
     gatewayCore 7 = true ∧ Tbl.get 0 k.gcount 0 / 2048 < 2 ^ (field k.gwrx 48 4 + 7) ∧ 2 ^ (field k.gwrx 48 4 + 7) ≤ Tbl.get 0 k.gcount 1 / 2048 ∧
       Tbl.get 0 k.gready 1 = 0 ∧ 1 < field k.gwrx 32 16 ∧ 5 = Tbl.get 0 k.gcount 1 % 2048) := by decide +kernel

/-- An access of device 0 to the scratchpad of core 0 here, which the export table lets it reach (R382): a read, a write and an atomic. -/
theorem witness_targets :
    let s := { plain with
      regs := [(0x700000, 0x8000000000000000), (0x700010, 0x60000), (0x700018, 1)], mem := [(0x60000, 0x3B), (0x60011, 0x10)] }
    (∃ loc t, (targetLoc 0 0x0180040000000000 8 3).run s = .ok loc t ∧
      (loc.place? = some (placeCore 0 0) ∧ t.readWaits .home (placeCore 0 0) = false)) ∧
    (∃ loc t, (targetLoc 0 0x0180040000000FF8 8 4).run s = .ok loc t ∧
      (loc.place? = some (placeCore 0 0xFF8) ∧ t.writeWaits .home (placeCore 0 0xFF8) = false)) ∧
    ∃ loc t, (targetLoc 0 0x0180040000000000 8 5).run s = .ok loc t ∧ (loc.place? = some (placeCore 0 0) ∧ t.wreqs = s.wreqs) :=
  ⟨ok_of (by decide +kernel), ok_of (by decide +kernel), ok_of (by decide +kernel)⟩

/-- R382: an access that the entry does not cover, whose last byte lies beyond it, is rejected. -/
theorem test_export_bound :
    let s := { plain with
      regs := [(0x700000, 0x8000000000000000), (0x700010, 0x60000), (0x700018, 1)], mem := [(0x60000, 0x3B), (0x60011, 0x10)] }
    (match (targetLoc 0 0x0180040000000FF9 8 4).run s with
      | .ok _ _ => false
      | .error _ _ => true) = true := by decide +kernel

/-- Witnesses of `CoherenceEvents`, `requests`: lines that nobody holds, that an owner holds, and that sharers hold. -/
theorem witness_requests :
    (let s := { State.reset with dir := [(ln, { owner := some 0, sharers := [2] })], dies := [(0, { lines := [(ln, 3)] }), (2, { lines := [(ln, 1)] })] }
     3 < 4 ∧ ln % 128 = 0 ∧ homeDie ln = some 1 ∧ (s.die 3).dead = false ∧ s.lostPhys ln = false ∧ s.lineBusy ln = false ∧ Tbl.get 0 (s.die 3).wbuf ln = 0 ∧
       s.linkUp 3 1 = true ∧ s.filterFull ln = false ∧ s.dieLine 3 ln = 0 ∧ 3 ∉ (s.dirOf ln).holders ∧ (s.dirOf ln).host = .none ∧ s.lineWatched ln = false ∧
       (s.dirOf ln).owner = some 0 ∧ s.dieLine 2 ln = 1 ∧ 2 ∈ (s.dirOf ln).holders) ∧
    (State.reset.lineBusy ln = false ∧ State.reset.filterFull ln = false ∧ (State.reset.dirOf ln).holders = [] ∧ (State.reset.dirOf ln).owner = none) := by
  decide +kernel

/-- Witnesses of `messages` and `answers`: a message of every kind, the answers of a request's last holder, and a write-back with and
without another die's request under way. -/
theorem witness_messages :
    (∀ k ∈ [0, 1, 2, 4, 5], let m : Msg := { kind := k, die := 3, line := ln, dirty := false }
     let s := { State.reset with dies := [(3, { lines := [(ln, 4)] })], msgs := [m], reqs := [{ die := 2, line := ln, kind := 0, acks := [3], kept := none, data := true }] }
     (s.msgs.find? fun q => q.kind == k && q.die == 3 && q.line == ln) = some m ∧ s.linkUp ((homeDie ln).getD 3) 3 = true ∧ s.tileHolds ln = false ∧
       (s.die 3).dead = false ∧ Tbl.get 0 (s.die 3).wbuf ln = 0 ∧ (s.reqs.find? (·.line == ln)).isSome) ∧
    (let r : Req := { die := 2, line := ln, kind := 1, acks := [3], kept := none, data := true }
     r.acks = [3] ∧ r.kind = 1 ∧ r.data = true ∧ { r with data := false }.data = false ∧ { r with kind := 3, data := false }.kind = 3) ∧
    (let s := { State.reset with dies := [(3, { lines := [(ln, 4)] })] }
     s.tileHolds ln = false ∧ s.dieLine 3 ln ≠ 0 ∧ s.lineBusy ln = false ∧ s.linkUp 3 ((homeDie ln).getD 3) = true ∧ Tbl.get 0 (s.die 3).wbuf ln = 0) := by decide +kernel

/-- Witnesses of `links` and `hostMessages`: a link in every state, a snoop without an answer, an idle link, lines that the host holds
and does not, and a port that is down. -/
theorem witness_links :
    (∀ st < 4, let s := { State.reset with dies := [(0, { links := [(1, { st := st, retry := 2 })] })], msgs := [{ kind := 0, die := 1, line := 0x4000, dirty := false }] }
     (s.link 0 1).st = st ∧ (s.link 0 1).retry = 2 ∧ (s.link 0 1).idle ≠ 0 ∧ (s.die 0).dead = false ∧ homeDie 0x4000 = some 0) ∧
    (∀ m ∈ State.reset.msgs, m.die ≠ 1 ∧ m.die ≠ 0) ∧ (State.reset.launch 0).active = false ∧
    physKind 0x4000 = some 0 ∧ physKind 0x8000000000000 = some 2 ∧ State.reset.tileHolds 0x4000 = false ∧ State.reset.hostOwns 0x4000 = false ∧
    (State.reset.dirOf 0x4000).host = .none ∧ (({ State.reset with dir := [(0x4000, { host := .owned })] } : State).dirOf 0x4000).host = .owned ∧
    State.reset.portUp 0 = false ∧ ∀ r ∈ State.reset.repair, laneOfPort 0 r.unit = false := by decide +kernel

/-- A record of 128 bytes as a queue entry in memory at 0x40000. -/
def entryCells (bs : List (Nat × Byte)) : List Host.Cell := bs.map fun p => (0x40000 + p.1, p.2)

/-- The record of a kernel launch of one core: the grid group is group 0 at 0x30000, the parameter table at 0x31000, and the private
regions are 0x90000 bytes. -/
def kernelRecord : List (Nat × Byte) :=
  [(0, 1), (0x0A, 1), (0x12, 5), (0x18, 1), (0x1A, 1), (0x1C, 1), (0x1E, 1), (0x20, 1), (0x24, 1), (0x28, 1), (0x2C, 1), (0x32, 3), (0x39, 1),
    (0x59, 0x10), (0x5A, 3), (0x6A, 9)]

/-- A queue that may start the entry given. -/
def queueOf (bs : List (Nat × Byte)) : State :=
  { State.reset with
    mem := smallTable ++ [(0x30002, 1)] ++ entryCells bs
    queues := [(5, { en := true, st := .idle, base := 0x40000, tail := 1, rbase := 0x50000, sz := 4, eprio := 3, prio := 3 })] }

/-- Witnesses of `queueStarts`: an entry that starts and one that is refused, a queue that waits for a promotion, and one that does
not. -/
theorem witness_queueStarts :
    (let s := queueOf kernelRecord
     let u := s.queue 5
     let entry := s.bytes (u.base.toNat + 128 * (u.head.toNat % 2 ^ u.sz)) 128
     u.en = true ∧ u.st = .idle ∧ u.head ≠ u.tail ∧ s.canStart 5 = true ∧ u.eprio ≤ 3 ∧ Tbl.get 63 s.lastQueue u.eprio < 64 ∧
       (∀ p < 64, p ≠ 5 → s.waiting p = false) ∧ entryOK u.ctlq entry = true ∧ entryNat entry 0 1 = 1 ∧ (s.reg 8).toNat % 2 ^ 32 ≠ 0 ∧ 0 < u.eprio) ∧
    (let s := queueOf [(0, 9)]
     s.canStart 5 = true ∧ entryOK false (s.bytes 0x40000 128) = false ∧ (s.queue 5).paddr = 0) := by decide +kernel

/-- A queue that performs the entry given. -/
def performing (bs : List (Nat × Byte)) : State :=
  { State.reset with
    mem := smallTable ++ [(0x20000, 7)] ++ [(0x30002, 1)]
    queues := [(5, { en := true, st := .running, entry := recordOf bs, rbase := 0x50000 }), (6, { en := true, st := .running }), (7, { en := true, st := .switchedOut })]
    launches := [(6, { st := .running, q := 6, record := recordOf [(0x0A, 1)] }), (7, { st := .switched, q := 7, record := recordOf [(0x0A, 1)] })] }

/-- Witnesses of `queueEntries`: a COPY entry, an EVENT entry that signals and ones whose comparison holds and does not. -/
theorem witness_queueEntries :
    (let s := performing [(0, 3), (0x20, 1)]
     let b := (s.queue 5).entry
     (s.queue 5).st = .running ∧ (s.queue 5).started = false ∧ entryNat b 0 1 = 3 ∧ shapeOK (BitVec.ofNat 64 (entryNat b 0x20 8)) 0 false = true ∧
       entryNat b 0x38 8 % 8 = 0 ∧ (s.die (dieOfCluster 0)).dead = false ∧ s.engineFull 0 = false ∧ (s.queue 5).closing = false ∧ (s.queue 5).en = true) ∧
    (let b := ((performing [(0, 4), (1, 1), (0x0A, 1), (0x12, 2)]).queue 5).entry
     entryNat b 0 1 = 4 ∧ entryNat b 0x10 8 % 8 = 0 ∧ entryNat b 0x10 8 / 2 ^ 55 % 4 ≠ 1 ∧ entryNat b 0x10 8 / 2 ^ 55 % 4 ≠ 3 ∧ entryNat b 1 1 % 2 = 1) := by decide +kernel

/-- The words of those entries are found. -/
theorem witness_queueEntries_word :
    (let s := performing [(0, 4), (1, 1), (0x0A, 1), (0x12, 2)]
     ∃ loc t, (resolve (entryEnv 0 (s.queue 5).entry (copyLaunch 5)) 0x20000 8 accWrite).run s = .ok loc t ∧
       (loc = .mem 0x20000 0 ∧ t.writeWaits .home 0x20000 = false)) ∧
    (let s := performing [(0, 4), (1, 4), (0x0A, 1), (0x12, 2), (0x18, 7)]
     ∃ loc t, (resolve (entryEnv 0 (s.queue 5).entry (copyLaunch 5)) 0x20000 8 accRead).run s = .ok loc t ∧
       (loc = .mem 0x20000 0 ∧ t.readWaits .home 0x20000 = false ∧ leNat (t.bytes 0x20000 8) = 7)) := ⟨ok_of (by decide +kernel), ok_of (by decide +kernel)⟩

/-- Witnesses of `launches`: a record that is accepted and one that is refused, and a launch with nothing left to run, quiet and not. -/
theorem witness_launches :
    (let s := { queueOf kernelRecord with launches := [(5, { st := .loading, q := 5, record := recordOf kernelRecord })] }
     (s.launch 5).st = .loading ∧ (match (loadTables 5).run s with
       | .ok (gs, _, params) s0 => decide (namedCores gs = [0] ∧ params.length = 16 ∧ s0.coreFree 0 = true ∧ (s0.core 0).gate = none)
       | .error _ _ => false) = true ∧ (s.queue 5).st ≠ .switchingOut ∧ (s.die 0).dead = false) ∧
    (let s := { queueOf kernelRecord with launches := [(5, { st := .loading, q := 5, record := recordOf [(0, 1)] })] }
     (match (loadTables 5).run s with
       | .ok _ _ => false
       | .error r _ => decide (r = 1 ∧ r ≠ recHeld)) = true) ∧
    (let s := { State.reset with launches := [(5, { st := .running, q := 5, record := recordOf [(0, 1)] })] }
     (s.launch 5).isGraph = false ∧ s.launchDone 5 = true ∧ s.launchQuiet 5 = true ∧ (s.launch 5).node = none ∧
       { s with posts := [{ postTo 7 .sent with launch := 5 }] }.launchQuiet 5 = false) := by decide +kernel

/-- A graph of two nodes at 0x40000: a wait node on the word at 0x20000, and the node given. -/
def graphed (started : Bool) (kind : Byte) : State :=
  { State.reset with
    mem := smallTable ++ [(0x20000, 7), (0x40000, 0x14), (0x4000A, 2), (0x40010, 7), (0x40020, 1), (0x40040, kind), (0x4004A, 2)]
    queues := [(5, { en := true, st := .running, started := started, entry := recordOf [(0, 2), (0x0A, 1), (0x12, 4), (0x18, 1)] })]
    launches := if started then [(5, { st := .running, q := 5, record := recordOf [(0, 2), (0x0A, 1), (0x12, 4), (0x18, 1)], graph := [(0, (0, 1)), (1, (0, 1))] })] else [] }

/-- Witnesses of `graphs`: nodes that are accepted and ones that cannot be read, and wait, conditional and switch nodes that are ready. -/
theorem witness_graphs :
    (let s := graphed false 1
     let s1 := s.modQueue 5 fun u => { u with started := true }
     let s2 := s1.modLaunch 5 fun _ => { st := .running, q := 5, record := (s.queue 5).entry }
     (s.queue 5).st = .running ∧ (s.queue 5).started = false ∧ entryNat (s.queue 5).entry 0 1 = 2 ∧ (s2.launch 5).nodeCount = 2 ∧
       (match (checkNodes 5 2 2).run s2 with
         | .ok _ _ => true
         | .error _ _ => false) = true ∧
       (match (checkNodes 5 2 2).run { s2 with mem := [] } with
         | .ok _ _ => false
         | .error r _ => decide (r = 7)) = true) ∧
    (let s := graphed true 5
     (s.launch 5).isGraph = true ∧ (s.launch 5).nodeCount = 2 ∧ s.nodeSt 5 0 = 1 ∧ s.nodeKind 5 0 = 4 ∧ s.node 5 0 0x10 8 = 7 ∧ s.nodeKind 5 1 = 5 ∧ s.nodeSt 5 1 = 1 ∧
       (graphed true 7).nodeKind 5 1 = 7 ∧ ((graphed true 7).succs 5 1).length ≤ 7) := by decide +kernel

/-- The words of those nodes can be read. -/
theorem witness_graphs_word :
    (∃ w t, (nodeWord 5 0).run (graphed true 5) = .ok w t ∧ w = 7) ∧ (∃ w t, (nodeWord 5 1).run (graphed true 7) = .ok w t ∧ w = 7) :=
  ⟨ok_of (P := fun w _ => w = 7) (by decide +kernel), ok_of (P := fun w _ => w = 7) (by decide +kernel)⟩

/-- Witnesses of `preemption`: a switch-out of a queue that runs and one that does not, a switch-in of a queue that is Switched out, and
vacates that are refused. -/
theorem witness_preemption :
    (let s := performing [(0, 6), (0x10, 6)]
     let b := (s.queue 5).entry
     entryNat b 0x10 8 ≠ 5 ∧ entryNat b 0 1 = 6 ∧ entryNat b 1 1 = 0 ∧ (s.queue 6).st = .running ∧ s.queueLaunches 6 = [6] ∧ s.targets 6 = [6] ∧
       s.rollingIn 6 = false ∧ s.launchCtxs 6 = [] ∧ s.drained [] [] = true ∧ (s.launch 6).st ≠ .loading ∧ (s.queue 9).st ≠ .running) ∧
    (let s := performing [(0, 6), (1, 1), (0x10, 7)]
     let b := (s.queue 5).entry
     entryNat b 1 1 = 1 ∧ (s.queue 7).st = .switchedOut ∧ s.switchReady 7 = true ∧ s.switchedOf 7 = [7] ∧ (s.launch 7).isGraph = false ∧ (s.queue 6).st ≠ .switchedOut) ∧
    (let s := performing [(0, 5), (0x0A, 1), (0x10, 9), (0x1A, 2), (0x20, 1)]
     entryNat (s.queue 5).entry 0 1 = 5 ∧ (match (vacateList 5).run s with
         | .ok list s0 => decide (list = [7]) && (vacateRefusal s0 9 [7]).isSome
         | .error _ _ => false) = true ∧
       (vacateRefusal { s with launches := [(6, { st := .running, q := 6, cores := [7, 6], record := recordOf [(0x0A, 1)] })] } 6 [7]) = none) := by decide +kernel

/-- The save of a launch without cores runs, and so does its return. -/
theorem witness_preemption_save :
    (∃ a t, ([6].forM saveArea).run (performing [(0, 6), (0x10, 6)]) = .ok a t ∧ t.clock = 0) ∧
    ∃ a t, ([7].forM restoreLaunch).run ((performing [(0, 6), (1, 1), (0x10, 7)]).modQueue 7 fun u => { u with st := .switchingIn }) = .ok a t ∧ t.clock = 0 :=
  ⟨ok_of (P := fun _ t => t.clock = 0) (by decide +kernel), ok_of (P := fun _ t => t.clock = 0) (by decide +kernel)⟩

/-- A cluster whose queue holds one instruction of the context in slot 0 of core 0, which claims tile 1; `step` steps of it have issued, and
slot 0 is full. -/
def engine (op : VOp) (step : Nat) : State :=
  let p : Pend := { inFlight op with dra := if (match op with | .mseq _ => true | _ => false) then 0x1000 else 0, queued := true }
  { alone { ctxOf [] with pend := [p] } with
    mem := [(0x1002, 1), (0x100A, 2), (0x1012, 3), (0x1028, 1)]
    clusters := [(0, { queue := [{ key := 0, seq := 0, core := 0, slot := 0, cmd := none }], owner := [(1, 1)]
                       slots := [(0, { full := true, fmt := 1, k := 32, n := 128 })]
                       seqr := some { key := 0, seq := 0, step := step, stalled := false } })] }

/-- Witnesses of `EngineEvents`, `matrixEntries`: a `macz`, and an `mma` before and after its last step. -/
theorem witness_matrixEntries :
    (let s := engine (.macz (tword 1)) 0
     let m : MEnt := { key := 0, seq := 0, core := 0, slot := 0, cmd := none }
     (s.cluster 0).queue = [m] ∧ ((s.entryPend m).map (·.op)) = some (.macz (tword 1)) ∧ Tbl.get 0 (s.cluster 0).owner ((tword 1).tail.toNat % 4) = m.core + 1) ∧
    (let s := engine (.mma xword) 1
     let m : MEnt := { key := 0, seq := 0, core := 0, slot := 0, cmd := none }
     let w := Tbl.get ({ full := false } : Slot) (s.cluster 0).slots 0
     (s.headMma m).isSome ∧ xword.kg.toNat + 1 ≤ ((s.cluster 0).progress m).step ∧ Tbl.get 0 (s.cluster 0).owner xword.acc.toNat = m.core + 1 ∧ w.full = true ∧
       32 * (xword.kg.toNat + 1) ≤ w.k ∧ xword.nm1.toNat + 1 ≤ w.n ∧ aSize xword.fmta.toNat (xword.mm1.toNat + 1) 32 ≤ 0x40000 ∧
       (((engine (.mma xword) 0).cluster 0).progress m).step < xword.kg.toNat + 1) := by decide +kernel

/-- Witnesses of `matrixSteps`: a step within the governor's budget, and a budget that is spent, once counted and once not. -/
theorem witness_matrixSteps :
    (let c := (engine (.mma xword) 0).cluster 0
     (c.steps.filter fun t => decide (0 < t + c.mgov.toNat / 2 ^ 16 % 2 ^ 10)).length < c.mgov.toNat % 2 ^ 10) ∧
    (let c : Cluster := { mgov := 0x100001, steps := [0] }
     c.mgov.toNat % 2 ^ 10 ≤ (c.steps.filter fun t => decide (0 < t + c.mgov.toNat / 2 ^ 16 % 2 ^ 10)).length) := by decide +kernel

/-- A step of an `mseq` is governed and performed: its pieces lie in memory of the package. -/
theorem witness_mseqStep :
    let m : MEnt := { key := 0, seq := 0, core := 0, slot := 0, cmd := none }
    let s := engine (.mseq xword) 0
    let p : Pend := { inFlight (.mseq xword) with dra := 0x1000, queued := true }
    s.entryPend m = some p ∧ (∃ ps s1, (matrixPieces 0 0 p).run (clearNotes s) = .ok ps s1 ∧ ∀ x ∈ ps, inWindow x.1 = false) ∧
    (∃ ok s2, (govern 0 m).run (clearNotes s) = .ok ok s2 ∧ ok = true) ∧
    ∃ r s3, (seqPerform 0 0 0 xword p).run (clearNotes s) = .ok r s3 ∧ r = (1, 1) :=
  ⟨by decide +kernel, ok_of (by decide +kernel), ok_of (P := fun ok _ => ok = true) (by decide +kernel), ok_of (P := fun r _ => r = (1, 1)) (by decide +kernel)⟩

/-- A copy of two lines from 0x1000 to 0x2000, of which `n` have moved and landed. -/
def copying (n : Nat) (done : Option (Nat × Word)) (queueEntry : Option Nat) : Copy :=
  { id := 6, launch := 0, key := none, core := 0, slot := 0, cl := 0, tag := 1, env := plain.envOf 0, x := 256, rows := 1, planes := 1
    sr := 0, dr := 0, sp := 0, dp := 0, src := 0x1000, dst := 0x2000, table := 0, astage := false, fmt := 0, scale := 0, stream := 0, mode := 0
    pool := 0, ring := 0, bsz := 0, follow := none, done := done, bar := none, next := n, total := 2, landed := n, cow := []
    wrote := [], req := none, stopped := false, faulted := false, queueEntry := queueEntry, node := none }

/-- Witnesses of `copyMoves`: a copy with a line to move, one that is over, with and without a completion word, and a line that faults. -/
theorem witness_copyMoves :
    (let c := copying 0 none none
     let s := { plain with copies := [c] }
     s.copies.find? (fun x => x.id == 6) = some c ∧ c.stopped = false ∧ c.next < c.total ∧ s.copyBehind c = false) ∧
    (let c := copying 2 none none
     let s := { plain with copies := [c] }
     c.total ≤ c.next ∧ c.total ≤ c.landed ∧ s.copyBehind c = false ∧ c.done = none ∧ c.follow = none) := by decide +kernel

/-- Its line moves, its completion word is written, and a line of an address without a translation faults. -/
theorem witness_copyMoves_runs :
    (∃ a t, (moveLine (copying 0 none none)).run { plain with copies := [copying 0 none none] } = .ok a t ∧ t.clock = 0) ∧
    (∃ a t, (completionWrite (copying 2 (some (0x3000, 5)) (some 5)) 0x3000 5).run { plain with copies := [copying 2 (some (0x3000, 5)) (some 5)] } = .ok a t ∧ t.clock = 0) ∧
    (match (moveLine { copying 0 none none with src := 0x1000000 }).run plain with
      | .error (.trap f) _ => f.code == 5
      | _ => false) = true :=
  ⟨ok_of (P := fun _ t => t.clock = 0) (by decide +kernel), ok_of (P := fun _ t => t.clock = 0) (by decide +kernel), by decide +kernel⟩

/-- A corrected error of core 0's unit, after sixteen in its window. -/
def errors (count : Nat) : State := { State.reset with ecc := [(0x10000000, { total := 16, count := count, start := 5 })] }

/-- Witnesses of `ControllerEvents`: buffers that commands may and may not use, units of the table and not, and a unit that is retired. -/
theorem witness_ControllerEvents :
    State.reset.lmBufOK = true ∧ ({ State.reset with regs := [(0xC8, 4)] } : State).lmBufOK = false ∧ (0#64).toNat % 256 = 0 ∧ 4 < (5#64).toNat % 256 ∧
    unitListed 0x10000000 = true ∧ unitListed 0x100001FF = true ∧ unitListed 0x10000200 = false ∧
    (let s := { State.reset with repair := [{ unit := 0x10000000, cause := 1, act := false }] }
     (∃ r ∈ s.repair, r.unit = 0x10000000 ∧ r.act = false) ∧ s.retireReady 0x10000000 = true ∧
       { s with ctxs := [(0, ctxOf [])] }.retireReady 0x10000000 = false) := by decide +kernel

/-- 18's example: with the defaults the 17th corrected error within the window retires the unit, and the 16th does not; one after the
window begins it anew (R403). -/
theorem test_soft_errors :
    (next (exec (.eccCorrected 0x10000000 0 86404) (errors 16))).repair = [{ unit := 0x10000000, cause := 1, act := false }] ∧
    (next (exec (.eccCorrected 0x10000000 0 86404) (errors 15))).repair = [] ∧
    ((next (exec (.eccCorrected 0x10000000 0 86405) (errors 16))).eccOf 0x10000000).count = 1 := by decide +kernel

/-- Witnesses of `StepKeepsMemory`: memories in canonical form, empty and not, one that is not, and a step that answers. -/
theorem witness_StepKeepsMemory :
    Memory.wf State.reset.mem = true ∧ Memory.wf smallTable = true ∧ Memory.wf [(4, 1), (3, 1)] = false ∧ Memory.wf [(4, 0)] = false ∧
    ∃ t, step (State.reset.withFetchWord 64 0x300001424) = .next t := ⟨rfl, rfl, rfl, rfl, ⟨_, rfl⟩⟩

/-- A word placed by `withFetchWord` is the next instruction: `mov x5, 3` writes x5 and the pc moves on. -/
theorem test_step :
    let t := next (step (State.reset.withFetchWord 64 0x300001424))
    (t.ctx t.cur).xr 5 = 3 := rfl

/-- R361, R362: a launch in Loading starts its core's control context with its place in the grid, and binds its role. -/
theorem test_launch :
    let s := { queueOf kernelRecord with launches := [(5, { st := .loading, q := 5, record := recordOf kernelRecord })] }
    let t := next (exec (.launch 5) s)
    (t.launch 5).st = .running ∧ (t.ctx 0).st = .ready ∧ (t.ctx 0).pc = 0x50000 ∧ (t.ctx 0).xr 31 = 0xB0000000090000 ∧ (t.launch 5).place 0 0 = some 0 := by
  decide +kernel

/-- R409: a die boots its staged image at a reset, and its floor rises to the image's version; memory stays. -/
theorem test_reset :
    let s := { State.reset with mem := [(3, 1)], firmware := [(2, { floor := 4, staged := some (7, [1]) })] }
    let t := next (exec .packageReset s)
    t.mem = [(3, 1)] ∧ (Tbl.get { version := 0 } t.firmware 2).version = 7 ∧ (Tbl.get { version := 0 } t.firmware 2).floor = 7 := by decide +kernel

/-- Witnesses of the aperture clauses of `MisalignedAccesses`: x5 lies in a bound parameter window at an offset that is no multiple
of 8, x6 in one that is not bound; and an address outside the aperture. -/
theorem witness_MisalignedAccesses_aperture :
    let s := { alone (ctxOf [(5, 0x00D0000000000004), (6, 0x00D1000000000000)]) with launches := params.launches }
    Issues s ∧ OrderFree s false ∧ paramAperture (effective s 5 0).toNat = true ∧ paramAperture (effective s 6 0).toNat = true ∧
      ((s.launch 0).params.getD ((effective s 5 0).toNat % 2 ^ 52 / 2 ^ 48) (0, 0)).2 = 20 ∧
      (effective s 5 0).toNat % 2 ^ 48 % 8 ≠ 0 ∧
      ((s.launch 0).params.getD ((effective s 6 0).toNat % 2 ^ 52 / 2 ^ 48) (0, 0)).2 = 0 ∧
      paramAperture (effective plain 5 1).toNat = false := by
  unfold Issues OrderFree
  decide +kernel

/-- Witnesses of the clauses of `AtomicResults` and `AtomicFaults` on lines: neither the home nor the core's L1 makes the word wait. -/
theorem witness_AtomicResults_line :
    (clearNotes plain).writeWaits .home 0x1000 = false ∧ (clearNotes plain).writeWaits (.l1 (coreOfKey plain.cur)) 0x1000 = false ∧
    (clearNotes deterministic).ownPost 0 0x1000 8 = false ∧
    (clearNotes deterministic).writeWaits (.l1 (coreOfKey deterministic.cur)) 0x1000 = false := by decide +kernel

/-- Witnesses of the clauses of `PostedStores` on another stream: an earlier store of the context to the same line goes out on
stream 0, and none on stream 3. -/
theorem witness_PostedStores_streams :
    let s := { plain with posts := posted.posts.map fun p => { p with dest := 2049, place := 0x1000 } }
    Lands s (effective s 5 0).toNat 8 accWrite (.mem 0x1000 0) (clearNotes s) ∧
      (clearNotes s).otherStream s.cur 3 2049 0x1000 0x1000 = true ∧ (clearNotes s).otherStream s.cur 0 2049 0x1000 0x1000 = false ∧
      (clearNotes plain).otherStream plain.cur 3 2049 0x1000 0x1000 = false :=
  ⟨lands_of (by decide +kernel), by decide +kernel, by decide +kernel, by decide +kernel⟩

/-- A line that core 0's L1 and die 0 hold dirty, free or held by a tile. -/
def cached (held : Bool) : State :=
  { plain with
    cores := [(0, { dtlb := [{ va := 0, size := 21, asid := 0, leaf := 0xDD }], l1 := [(0x1000, 4)] })]
    dies := [(0, { lines := [(0x1000, 4)] })]
    tiles := if held then [{ key := 16, store := true, age := 1, lines := [0x1000], got := 1 }] else [] }

/-- Witnesses of the clauses of `maintenance` on a line that a cache holds. -/
theorem witness_maintenance :
    (∀ held, Lands (cached held) (effective (cached held) 5 0).toNat 1 accRead (.mem 0x1000 0) (clearNotes (cached held))) ∧
    (4 ≤ (clearNotes (cached true)).l1 0 0x1000 ∧ 3 ≤ (clearNotes (cached true)).dieLine 0 0x1000) ∧
    ((clearNotes (cached true)).tileHolds 0x1000 || !(clearNotes (cached true)).homeOpen [] 0x1000 false) = true ∧
    ((clearNotes (cached false)).tileHolds 0x1000 || !(clearNotes (cached false)).homeOpen [] 0x1000 false) = false ∧
    ((clearNotes plain).l1 0 0x1000 = 0 ∧ ∀ d < 4, (clearNotes plain).dieLine d 0x1000 = 0) := by
  refine ⟨?_, by decide +kernel, by decide +kernel, by decide +kernel, by decide +kernel⟩
  intro held
  cases held <;> exact lands_of (by decide +kernel)

/-- A witness of the counter clause of `EventUnit` that waits: a vector load is in flight, which a release at `.cl` waits for and a
load does not. -/
theorem witness_EventUnit_release :
    let s := { eventful with
      ctxs := [(0, { eventful.ctx 0 with grant := 1, pend := [inFlight (.load 0 (mword 1 4 0))] })] }
    Issues s ∧ OrderFree s false ∧ ¬ Released s 2 ∧ Released eventful 2 := by
  unfold Issues OrderFree Released
  decide +kernel

/-- Witnesses of the clauses of `GroupBarriers` on a phase that `barw` has noted, before and after that phase. -/
theorem witness_GroupBarriers_noted :
    let gr : Group := { g := 3, members := [0, 1], rb := false, rcm := 0 }
    let s := fun (a0 a1 : Nat) => (grouped a0 a1 none).modCtx 0 fun c => { c with barw := [(0, 0, 3, 1)] }
    ((((s 1 0).ctx 0).barw.find? fun b => b.1 == ((s 1 0).ctx 0).priv && b.2.1 == ((s 1 0).ctx 0).pc && b.2.2.1 == gr.g) =
      some (0, 0, 3, 1)) ∧ (s 1 0).phases 0 gr < 1 ∧ 1 ≤ (s 1 1).phases 0 gr ∧ ((s 1 1).ctx 0).spillDue = false ∧
      (((grouped 1 1 none).ctx 0).barw.find? fun b => b.2.2.1 == gr.g) = none := by decide +kernel

/-- A context that issues a copy under KV4 into the A-stage, with a barrier object in its cluster's memory and a follow-on
command; the word of that copy, and the copy that it enters. -/
def copierMore : State :=
  { alone { ctxOf [(5, 0), (6, 0x2000), (7, 256), (16, 0x0090000000000000), (17, 0x3000)] with sr := 1, pfx := 0x115 } with
    cores := [(0, { dtlb := [{ va := 0, size := 21, asid := 0, leaf := 0xDD }], follow := [(3, some { o := xword, off := 0 })] })] }

/-- The copy of `copyEnters` for that word. -/
def copyMore : Copy :=
  { id := 0, launch := 0, key := some 0, core := 0, slot := 0, cl := 0, tag := 1, env := copierMore.envOf 0, x := 256, rows := 1, planes := 1
    sr := 0, dr := 0, sp := 0, dp := 0, src := 0x2000, dst := 0, table := 0x2000, astage := true, fmt := 5, scale := 0x3000, stream := 0, mode := 0
    pool := 0, ring := 0, bsz := 0, follow := some { o := xword, off := 0 }, done := none, bar := some (placeCluster 0 0), next := 0, total := 0
    landed := 0, cow := [], wrote := [], req := none, stopped := false, faulted := false, queueEntry := none, node := none }

/-- Witnesses of the clauses of `CopyIssue` on a barrier object, a follow-on command and the prefix of KV4. -/
theorem witness_CopyIssue_more :
    (copierMore.mayIssue copierMore.cur = true ∧ (copierMore.ctx 0).fetched = none ∧ (copierMore.ctx 0).pp = true ∧
      field (copierMore.ctx 0).pfx 0 4 = 5 ∧ field (copierMore.ctx 0).pfx 4 6 = 17 ∧ Readable copierMore 17) ∧
    Lands copierMore 0x0090000000000000 8 accWrite (.bank (placeCluster 0 0)) (clearNotes copierMore) ∧
    Tbl.get none (copierMore.core 0).follow 3 = some { o := xword, off := 0 } ∧ kv4Rows copyMore = true ∧ stageFits copyMore = true := by
  refine ⟨?_, lands_of (by decide +kernel), rfl, by decide +kernel, by decide +kernel⟩
  unfold Readable
  decide +kernel

/-- Witnesses of the clauses of `CopyIssue` on an overlap in a deterministic launch: a copy on stream 1 is in flight to the second line
of the new one's destination; one on the same stream overlaps nothing. -/
theorem witness_CopyIssue_overlap :
    let y : Copy := { copyMore with astage := false, fmt := 0, dst := 0x1000, bar := none, follow := none, table := 0, scale := 0 }
    let s := { copier with
      ctxs := [(0, { copier.ctx 0 with sr := 0x100 })], launches := [(0, { record := recordOf [(1, 1)] })]
      copies := [{ y with id := 1, stream := 1, dst := 0x1080, spans := [(0x1080, 256)] }] }
    (s.launch 0).det = true ∧ s.overlap y (s.destSpans y) = some 0x1080 ∧
      s.overlap { y with stream := 1 } (s.destSpans y) = none := by decide +kernel

/-- A run that waits, found by evaluation. -/
theorem hold_of {α : Type} {m : M α} {s : State} (h : (match m.run s with
    | .error (.hold _ _) _ => true
    | _ => false) = true) : ∃ w z u, m.run s = .error (.hold w z) u := by
  split at h
  · next w z u heq => exact ⟨w, z, u, heq⟩
  · exact absurd h (by decide)

/-- Witnesses of the clauses of `levels` on the use of its tables: one that waits, and one that is whole, with the block's descriptor. -/
theorem witness_levels_use :
    (∃ w z u, (useTable 0).run (clearNotes { updating with late := [{ place := 0, bytes := [1], marks := [0] }] }) = .error (.hold w z) u) ∧
    ∃ u, (useTable 0).run (clearNotes updating) = .ok () u ∧ updating.Keeps u ∧
      ∃ v, (useDesc 0 0).run u = .ok () v ∧ updating.Keeps v ∧
        (∃ n ∈ u.neighbours 0 0, ¬ 2 ^ 30 ≤ ((0 : BitVec 32) - (u.neighbour 0 n).1).toInt.natAbs) ∧ (u.neighbours 0 0).length ≤ 7 := by
  constructor
  · exact hold_of (by decide +kernel)
  · obtain ⟨⟨⟩, u, hu, ⟨h1, h2, h3, h4⟩, hv, hn⟩ := ok_of (m := useTable 0) (s := clearNotes updating)
      (P := fun _ u => (u.cur = updating.cur ∧ u.ctx updating.cur = updating.ctx updating.cur ∧ u.after = none ∧ u.watch = none) ∧
        (match (useDesc 0 0).run u with
          | .ok _ v => decide (v.cur = updating.cur ∧ v.ctx updating.cur = updating.ctx updating.cur ∧ v.after = none ∧ v.watch = none)
          | .error _ _ => false) = true ∧
        (∃ n ∈ u.neighbours 0 0, ¬ 2 ^ 30 ≤ ((0 : BitVec 32) - (u.neighbour 0 n).1).toInt.natAbs) ∧ (u.neighbours 0 0).length ≤ 7)
      (by decide +kernel)
    split at hv
    · next v hr =>
      have hk := of_decide_eq_true hv
      exact ⟨u, hu, ⟨h1, h2, h3, h4⟩, v, hr, hk, hn⟩
    · exact absurd hv (by decide)

/-- A witness of the clause of `levels` on a neighbour too far away: its level is 2³⁰. -/
theorem witness_levels_wide :
    let s := { updating with mem := smallTable ++ [(0x20004, 1), (0x20009, 1), (0x20019, 0x10), (0x2001A, 0x02), (0x20043, 0x41),
      (0x20044, 2), (0x20049, 2), (0x2004C, 1), (0x20058, 0x04), (0x20059, 0x10), (0x2005A, 0x02), (0x21000, 1)] }
    ∃ n ∈ s.neighbours 0 0, 2 ^ 30 ≤ (BitVec.ofNat 32 (s.desc 0 0 0 4 + s.desc 0 0 4 4) - (s.neighbour 0 n).1).toInt.natAbs := by
  decide +kernel

/-- Witnesses of the clauses of `gateways` where no block is ready: in either mode, with and without a time to wait. -/
theorem witness_gateways_none :
    (∀ det : Bool, let s := { gateway det with cores := [(7, { gwrx := 0x400000000 })] }
      Issues s ∧ (s.core 7).gqueue.head? = none ∧ Tbl.get 0 (s.core 7).gready (s.core 7).gnext = 0 ∧ s.x 6 = 0 ∧ s.x 5 ≠ 0) ∧
    ∀ r n y d, ((gateway true).ctx (gateway true).cur).wait ≠ .gateway r n y d := by
  refine ⟨?_, fun r n y d h => by simp [gateway, ctxOf, State.ctx, Tbl.get] at h⟩
  unfold Issues
  decide +kernel

/-- Witnesses of the clauses of `RegisterWrites` on queues whose EN is cleared, in every state, with M0 in service. -/
theorem witness_queueWrites :
    (({ State.reset with dies := [(4, { dead := true })] } : State).die 4).dead = true ∧ (State.reset.die 4).dead = false ∧
    (0x80#64).getLsbD 0 = false ∧ (1#64).getLsbD 0 = true ∧
    (∀ st ∈ [QState.disabled, .idle, .error, .running, .switchedOut],
      (({ State.reset with queues := [(5, { st := st })] } : State).queue 5).st = st ∧
      (({ State.reset with queues := [(5, { st := st })] } : State).queue 5).closing = false) ∧
    (({ State.reset with queues := [(5, { st := .running, closing := true })] } : State).queue 5).closing = true := by decide +kernel

/-- Witnesses of the clauses of `RegisterWrites` on invalidations: an invalidation in progress whose posted store is acknowledged, and
one whose store is sent. -/
theorem witness_invalidations :
    (let s := { withPost 2048 .committed with tlbiBusy := true, tlbiPosts := [3] }
     s.tlbiBusy = true ∧ (∀ p ∈ s.posts, p.id ∈ s.tlbiPosts → p.st ≠ .waiting ∧ p.st ≠ .sent) ∧ ∀ u ∈ s.tiles, u.key ∉ s.tlbiTiles) ∧
    (let s := { withPost 2048 .sent with tlbiBusy := true, tlbiPosts := [3] }
     (∃ p ∈ s.posts, p.id ∈ s.tlbiPosts ∧ p.st = .sent) ∧ (s.posts.filter (s.postUsed 0 0 0)).map (·.id) = [3]) := by decide +kernel

/-- Witnesses of the clauses of `RegisterWrites` on migrations: an entry whose line is free, and frames that nothing holds. -/
theorem witness_migrations :
    let s := { State.reset with mem := smallTable, engines := [(0, { pte := 0x13000, dst := 0x200000, ctl := 2 }), (1, { busy := true, pte := 0x13000, dst := 0x200000, ctl := 2 })] }
    s.lineWaits .home 0x13000 = false ∧ s.writeWaits .home 0x13000 = false ∧ s.framesFree 0 0x200000 0x200000 = true ∧ s.late = [] ∧
      (Tbl.get { pte := 0 } s.engines 1).busy = true ∧ Memory.wf s.mem = true := by decide +kernel

/-- Witnesses of the clause of `RegisterWrites` on LWCTL: a line at its home die, with no owner, and one that die 2 owns. -/
theorem witness_lwctl :
    let s := { State.reset with dies := [(0, { lwaddr := [(3, 0x4000)] }), (2, { lines := [(0x4000, 4)] })], dir := [(0x4000, { owner := some 2 })] }
    (Tbl.get 0 (s.die 0).lwaddr 3).toNat / 128 % 2 ^ 45 * 128 = 0x4000 ∧ homeDie 0x4000 = some 0 ∧ physKind 0x4000 = some 0 ∧
      s.tileHolds 0x4000 = false ∧ s.lineBusy 0x4000 = false ∧ 2 ≤ s.dieLine 2 0x4000 := by decide +kernel

/-- A witness of the rollback clause of `trapEvents` with a member beside the one that trapped, which can be stopped. -/
theorem witness_rollback_member :
    let s := { team with
      ctxs := team.ctxs ++ [(16, { ctxOf [(5, 3)] with check := some { pc := 0x80, x := [(5, 4)], xp := [], sr := 0, pfx := 0, arrivals := 0 } })]
      launches := [(0, { st := .running, cores := [0, 1], groups := [{ g := 3, members := [0, 1], rb := true, rcm := 0 }]
                         bind := [(6144, 0x8000), (6145, 0x8001)] })] }
    let g : Group := { g := 3, members := [0, 1], rb := true, rcm := 0 }
    s.teamOf 0 = some g ∧ s.teamMembers 0 g = [0, 16] ∧ (s.ctx 16).priv = 0 ∧ (s.ctx 16).rolling = false ∧ s.accessWaits 16 = false ∧
      (s.ctx 16).st ≠ .absent ∧ ((s.ctx 16).check).isSome := by decide +kernel

/-- Witnesses of the clauses of `waitEvents` on reading the word: from memory through the L1, and at another core's scratchpad through
its bank. -/
theorem witness_waitEvents_reads :
    (∃ loc t, (resolve ((sleeper 0x1000).envOf 0) 0x1000 8 accRead).run { sleeper 0x1000 with cur := 0 } = .ok loc t ∧
      (loc = .mem 0x1000 0 ∧ loadWaits false loc 0x1000 t = false ∧ watchHits t 0 true false 0x1000 8 = [] ∧ (t.ctx 0).fetched = none)) ∧
    (∃ loc t, (resolve ((sleeper 0x0100000000000000).envOf 0) 0x0100000000000000 8 accRead).run { sleeper 0x0100000000000000 with cur := 0 } = .ok loc t ∧
      (loc = .bank (placeCore 0 0) ∧ loadWaits false loc (placeCore 0 0) t = false ∧ (t.ctx 0).fetched = none)) ∧
    (0x0100000000000000#57).toNat / 2 ^ 55 % 4 = 2 ∧ (0x1000#57).toNat / 2 ^ 55 % 4 < 2 :=
  ⟨ok_of (by decide +kernel), ok_of (by decide +kernel), by decide, by decide⟩

/-- Witnesses of the clauses of `waitEvents` on a line that a tile may and may not take: one that is free, and one whose bank a change
of CSPLIT holds. -/
theorem witness_waitEvents_tile :
    (plain.tileStuck 0 true 0x1000 = false ∧ plain.pinnedSet 0x1000 = []) ∧
    { plain with reqs := [{ die := 2, line := 0x1000, kind := 0, acks := [3], kept := none, data := true }] }.tileStuck 0 true 0x1000 = true := by
  decide +kernel

/-- Witnesses of the clause of `sends` on markers: a copy issued earlier whose remaining line goes to another die, and none. -/
theorem witness_sends_marker :
    (let c := copying 1 none none
     let s := { withPost 2048 .waiting with copies := [{ c with key := some 0 }], posts := [{ postTo 2048 .waiting with id := 9, marker := some 2 }] }
     let p := { postTo 2048 .waiting with id := 9, marker := some 2 }
     (s.posts.find? fun q => q.marker == some 2 && q.stream == 0 && q.st == .waiting) = some p ∧ s.posts.find? (·.id == p.id) = some p ∧
       s.copySends { c with key := some 0 } 2048 = false ∧ (s.stream 0 0 2048).unacked < 64) ∧
    (∃ q ∈ (withPost 2048 .waiting).posts, q.st = .waiting ∧ q.order < 9) := by decide +kernel

/-- Witnesses of `acknowledgements`: a committed store of this package, and one to the host's uncached memory that is sent. -/
theorem witness_acknowledgements :
    (let s := withPost 2048 .committed
     s.posts.find? (·.id == 3) = some (postTo 2048 .committed) ∧ (postTo 2048 .committed).copy = none) ∧
    (let s := withPost 4096 .sent
     s.posts.find? (·.id == 3) = some (postTo 4096 .sent) ∧ (s.die 4).dead = false ∧ (postTo 4096 .sent).skip = [] ∧ (postTo 4096 .sent).marks = []) := by
  decide +kernel

/-- The package with an export table that lets device 1, and this device 0, reach the scratchpad of core 0. -/
def exporting : State :=
  { plain with
    regs := [(0x700000, 0x8000000000000001), (0x700010, 0x60000), (0x700018, 2)]
    mem := [(0x60000, 0x3B), (0x60011, 0x10), (0x60020, 0x3B), (0x60022, 1), (0x60024, 1), (0x60031, 0x10)] }

/-- Witnesses of `targets` on requests that this device addressed to itself: a read and a `ramo`. -/
theorem witness_targets_own :
    let r := fun (k : ReqKind) => ({ wantOne k [(1, 0x0180140000000000, 8)] with va := 0x0180140000000000 } : WReq)
    exporting.devId = 1 ∧
    (∃ loc t, (targetLoc 1 0x0180140000000000 8 3).run { exporting with wreqs := [r (.load 0 5 shortNext false 0)] } = .ok loc t ∧
      (loc.place? = some (placeCore 0 0) ∧ t.readWaits .home (lineOf (placeCore 0 0)) = false ∧ t.wreqs = [r (.load 0 5 shortNext false 0)])) ∧
    (∃ loc t, (targetLoc 1 0x0180140000000000 8 5).run { exporting with wreqs := [r (.ramo 0 7 5 0)] } = .ok loc t ∧
      (loc.place? = some (placeCore 0 0) ∧ t.writeWaits .home (placeCore 0 0) = false ∧ t.wreqs = [r (.ramo 0 7 5 0)])) ∧
    ((ReqKind.load 0 5 shortNext false 0).op 8 = .read 8) :=
  ⟨by decide +kernel, ok_of (by decide +kernel), ok_of (by decide +kernel), by decide +kernel⟩

/-- A run that traps, found by evaluation. -/
theorem trap_of {α : Type} {m : M α} {s : State} (h : (match m.run s with
    | .error (.trap _) _ => true
    | _ => false) = true) : ∃ f t, m.run s = .error (.trap f) t := by
  split at h
  · next f t heq => exact ⟨f, t, heq⟩
  · exact absurd h (by decide)

/-- Witnesses of the clauses of `targets`, `commits` and `responses` on the domain: enabled and not, with a peer that is lost; and of one
that the table refuses. -/
theorem witness_domain :
    ((withPost 7 .sent).domEn = true ∧ plain.domEn = false ∧ (withPost 7 .sent).isLost 3 = true) ∧
    (∃ f t, (targetLoc 2 0x0180040000000000 8 3).run { exporting with regs := [(0x700000, 0x8000000000000000), (0x700010, 0x60000)] } = .error (.trap f) t) ∧
    (([] : List Nat) = [] ∨ ([] : List Nat).length = 8) ∧ ([0, 0, 0, 0, 0, 0, 0, 0x2000] : List Nat).length = 8 := by
  refine ⟨by decide +kernel, trap_of (by decide +kernel), by decide, by decide⟩

/-- Witnesses of `gatewayBlocks`: a block whose bytes are complete and which is the first, one that is not; and a write that completes
a block and one that does not. -/
theorem witness_gatewayBlocks :
    let k : Core := { gwrx := 0x200000000, gdone := [(1, 5)], gcount := [(0, 2 * 2048 + 5)] }
    let s := { State.reset with cores := [(7, k)] }
    gatewayCore 7 = true ∧ (s.core 7).gdone.head? = some (1, 5) ∧ (s.core 7).gdone.head? ≠ some (0, 5) ∧
      (s.cores.filter (·.1 == 7)).length = 1 ∧ 0 < field k.gwrx 32 16 ∧ 2 ^ (field k.gwrx 48 4 + 7) = 128 ∧ 0 / 128 = 0 ∧ 0 + 8 ≤ field k.gwrx 32 16 * 128 ∧
      Tbl.get 0 k.gready 0 = 0 ∧ (∀ d ∈ k.gdone, d.1 ≠ 0) ∧ 128 ≤ Tbl.get 0 k.gcount 0 / 2048 + 126 ∧ Tbl.get 0 k.gcount 0 / 2048 + 8 < 128 := by decide +kernel

/-- Sixteen lines of one set of the snoop filter, which dies hold, and another of that set. -/
def fullSet : State :=
  let lines := ((List.range 20000).map fun i => ln + 0x200000 * (i + 1)).filter fun l => State.reset.filterSet l == State.reset.filterSet ln
  { State.reset with dir := (lines.take 16).map fun l => (l, { owner := some 2 }) }

/-- Witnesses of the clause of `requests` on a full set: its victim has a holder, and its entry may go. -/
theorem witness_requests_full :
    fullSet.filterFull ln = true ∧ (match fullSet.filterVictim ln with
      | some v => decide ((fullSet.dirOf v).holders ≠ []) && !fullSet.lineBusy v
      | none => false) = true ∧ (∀ r ∈ fullSet.reqs, r.kind ≠ 3) ∧ fullSet.dieLine 3 ln = 0 ∧ (fullSet.dirOf ln).hostOwned = false ∧
      fullSet.slotsUsed 1 (fullSet.slice ln) < 16 ∧ fullSet.slotsUsed 3 (fullSet.sliceAt 3 ln) < 16 := by decide +kernel

/-- Witnesses of `requests` for ownership of a shared line, and of `answers`: a read whose owner answers, with and without a dirty copy,
and a back-invalidation's last answer. -/
theorem witness_answers :
    (let s := { State.reset with
      dir := [(ln, { owner := some 3 })], dies := [(3, { lines := [(ln, 3)] })]
      reqs := [{ die := 2, line := ln, kind := 0, acks := [3], kept := none, data := false }]
      msgs := [{ kind := 3, die := 3, line := ln, dirty := true }] }
     (s.msgs.find? fun q => q.kind == 3 && q.die == 3 && q.line == ln) = some { kind := 3, die := 3, line := ln, dirty := true } ∧
       (s.dirOf ln).owner = some 3 ∧ (s.dirOf ln).sharers = []) ∧
    (let m : Msg := { kind := 6, die := 3, line := ln, dirty := true, data := List.replicate 128 7 }
     let s := { State.reset with reqs := [{ die := 3, line := ln, kind := 3, acks := [3], kept := none, data := false }], msgs := [m] }
     (s.msgs.find? fun q => q.kind == 6 && q.die == 3 && q.line == ln) = some m ∧ m.data ≠ []) ∧
    (let s := { State.reset with dir := [(ln, { owner := some 3 })], dies := [(3, { lines := [(ln, 4)] })] }
     3 ∈ (s.dirOf ln).holders ∧ 3 ≤ s.dieLine 3 ln ∧ s.slotsUsed ((homeDie ln).getD 3) (s.slice ln) < 16 ∧ s.lineBusy ln = false) ∧
    (let r : Req := { die := 2, line := ln, kind := 0, acks := [3], kept := none, data := true }
     let s := { State.reset with reqs := [r], dies := [(3, { lines := [(ln, 4)] })] }
     s.reqs.find? (·.line == ln) = some r ∧ r.die ≠ 3 ∧ Tbl.get 0 (s.die 3).wbuf ln = 0 ∧ s.dieLine 3 ln ≠ 0) := by decide +kernel

/-- Witnesses of `hostMessages`: requests of the host that may be performed, of a line that a die holds in each state and that a line-watch
unit watches; lines that the host holds by halves. -/
theorem witness_hostMessages :
    (∀ st ∈ [1, 2, 3, 4], let s := { State.reset with dies := [(2, { lines := [(0x4000, st)] })], dir := [(0x4000, { owner := some 2 })] }
     (s.die 4).dead = false ∧ s.hostMay 0x4040 true = true ∧ s.hostMay 0x4040 false = true ∧ (s.dirOf 0x4000).hostAt 0x4040 ≠ .owned) ∧
    (let s := { State.reset with dies := [(0, { lwaddr := [(0, 0x4000)], lwctl := [(0, 1)] })] }
     s.lineWatched 0x4000 = true ∧ s.hostMay 0x4000 true = true) ∧
    (let s := { State.reset with dir := [(0x4000, { upper := .owned })] }
     (s.dirOf 0x4000).hostAt 0x4040 = .owned ∧ (s.dirOf 0x4000).hostAt 0x4000 = .none ∧ s.lineBusy 0x4040 = false ∧ s.late = []) ∧
    (State.reset.die 4).dead = false ∧ physKind 0x8000000000000 = some 2 ∧ State.reset.lineBusy 0x8000000000000 = false ∧
    (({ State.reset with regs := [(0x700100, 0x10000)] } : State).portUp 0 = true ∨ State.reset.portUp 0 = false) := by decide +kernel

/-- Witnesses of what `QueueEvents` asks of the package around a queue's entry: nothing hinders its writes, and nothing of its work is
unacknowledged; and where something is, the entry stays open. -/
theorem witness_Quiet : Quiet 5 State.reset ∧ Quiet 5 (queueOf kernelRecord) ∧
    ({ State.reset with posts := [{ postTo 7 .sent with launch := 5 }] } : State).settled 5 = false := by
  have go : ∀ s : State, s.late = [] → s.tiles = [] → s.reqs = [] → s.misses = [] → s.dir = [] → s.posts = [] → s.dies = [] → Quiet 5 s := by
    intro s h1 h2 h3 hm h4 h5 h6
    refine ⟨⟨h1, h2, h3, hm, ?_, ?_⟩, ?_⟩
    · intro e he; rw [h4] at he; exact absurd he List.not_mem_nil
    · intro d n
      simp only [State.linkStuck, State.link, State.die, h6]
      exact Bool.and_eq_false_iff.2 (Or.inr rfl)
    · intro p hp; rw [h5] at hp; exact absurd hp List.not_mem_nil
  exact ⟨go _ rfl rfl rfl rfl rfl rfl rfl, go _ rfl rfl rfl rfl rfl rfl rfl, by decide +kernel⟩

/-- A reading of tables that succeeds has an answer. -/
theorem answer_of {α : Type} {m : Rec α} {s : State} {P : α → State → Prop} [∀ a t, Decidable (P a t)]
    (h : (match m.run s with
      | .ok a t => decide (P a t)
      | .error _ _ => false) = true) : ∃ a t, m.run s = .ok a t ∧ P a t := by
  split at h
  · next a t heq => exact ⟨a, t, heq, of_decide_eq_true h⟩
  · exact absurd h (by decide)

/-- Witnesses of the clauses of `launches` on its records: they can be used; and one whose page is migrated cannot be read. -/
theorem witness_launches_records :
    (let s := { queueOf kernelRecord with launches := [(5, { st := .loading, q := 5, record := recordOf kernelRecord })] }
     ∃ x s0, (loadTables 5).run s = .ok x s0 ∧ (x.1 = [{ g := 0, members := [0], rb := false, rcm := 0 }] ∧ x.2.1 = [] ∧
       (∀ k ∈ namedCores x.1, s0.coreFree k = true ∧ (s0.die (dieOfCore k)).dead = false) ∧
       (match (useRecords 5).run s0 with
         | .ok _ s1 => decide (∀ k ∈ namedCores x.1, (s1.core k).gate = none)
         | .error _ _ => false) = true)) ∧
    (let s := { queueOf kernelRecord with
       mem := (queueOf kernelRecord).mem.map fun c => if c.1 = 0x13000 then (0x13000, 0xDD) else c
       launches := [(5, { st := .loading, q := 5, record := recordOf kernelRecord })]
       dir := [(0x30000, { host := .owned })] }
     (match (loadTables 5).run s with
       | .error r _ => decide (r = recHeld)
       | .ok _ _ => false) = true) :=
  ⟨answer_of (m := loadTables 5) (P := fun x s0 => x.1 = [{ g := 0, members := [0], rb := false, rcm := 0 }] ∧ x.2.1 = [] ∧
    (∀ k ∈ namedCores x.1, s0.coreFree k = true ∧ (s0.die (dieOfCore k)).dead = false) ∧
    (match (useRecords 5).run s0 with
      | .ok _ s1 => decide (∀ k ∈ namedCores x.1, (s1.core k).gate = none)
      | .error _ _ => false) = true) (by decide +kernel), by decide +kernel⟩

/-- Witnesses of the clauses of `graphs` on the use of the nodes and of their words. -/
theorem witness_graphs_use :
    (∃ u, (useGraph 5).run (graphed true 5) = .ok () u) ∧
    (∃ w t, (do useGraph 5
                nodeWord 5 0 : M Word).run (graphed true 5) = .ok w t ∧ w = 7) ∧
    (let s := graphed false 1
     let s1 := s.modQueue 5 fun u => { u with started := true }
     let s2 := s1.modLaunch 5 fun _ => { st := .running, q := 5, record := (s.queue 5).entry }
     (s.queue 5).closing = false ∧ ∃ a s3, (checkNodes 5 2 2).run s2 = .ok a s3 ∧ ∃ u, (useGraph 5).run s3 = .ok () u) := by
  refine ⟨unit_of (by decide +kernel), ok_of (P := fun w _ => w = 7) (by decide +kernel), by decide +kernel, ?_⟩
  obtain ⟨a, s3, h, hu⟩ := answer_of (m := checkNodes 5 2 2)
    (s := ((graphed false 1).modQueue 5 fun u => { u with started := true }).modLaunch 5 fun _ =>
      { st := .running, q := 5, record := ((graphed false 1).queue 5).entry })
    (P := fun _ s3 => (match (useGraph 5).run s3 with
      | .ok _ _ => true
      | .error _ _ => false) = true) (by decide +kernel)
  exact ⟨a, s3, h, unit_of hu⟩

/-- A graph's queue that is Switched out, with its graph alone, and the SWITCH entry that brings it back. -/
def switchedGraph : State :=
  let s := performing [(0, 6), (1, 1), (0x10, 7)]
  { s with launches := [(6, { st := .running, q := 6, record := recordOf [(0x0A, 1)] }), (7, { st := .switched, q := 7, record := recordOf [(0, 2), (0x0A, 1)] })] }

/-- Witnesses of the clauses of `preemption` whose target is gone, whose switch is begun and drained, and of a graph alone. -/
theorem witness_preemption_more :
    (let s := (performing [(0, 6), (0x10, 9)])
     (s.queue 9).st ≠ .running ∧ (s.queue 5).closing = false ∧ (s.queue 5).started = false) ∧
    (let s := (performing [(0, 6), (0x10, 6)]).modQueue 5 fun u => { u with started := true }
     (s.queue 5).started = true ∧ (s.queue 6).st ≠ .switchingOut ∧
       (let u := s.modQueue 6 fun u => { u with st := .switchingOut }
        (u.queue 6).st = .switchingOut ∧ (u.queue 6).closing = false ∧ (∀ k ∈ (u.targets 6).flatMap u.launchCtxs, u.atBoundary k = false) ∧
          u.drained ((u.targets 6).flatMap u.launchCtxs) ((u.targets 6).flatMap fun l => (u.launch l).cores) = true ∧
          ∀ l ∈ u.targets 6, (u.launch l).st ≠ .loading)) ∧
    (let s := switchedGraph
     (s.queue 7).st = .switchedOut ∧ s.switchReady 7 = true ∧ s.switchedOf 7 = [7] ∧ ∀ l ∈ s.switchedOf 7, (s.launch l).isGraph = true) ∧
    (let s := { performing [(0, 5), (0x0A, 1), (0x10, 6), (0x1A, 2), (0x20, 1)] with
        launches := [(6, { st := .running, q := 6, cores := [7, 6], record := recordOf [(0x0A, 1)] })] }
     (match (vacateList 5).run s with
       | .ok list s0 => decide (list = [7] ∧ vacateRefusal s0 6 [7] = none ∧ (s0.core 7).gate = none)
       | .error _ _ => false) = true ∧ (∀ l ∈ s.targets 6, s.rollingIn l = false) ∧
       (let u := s.modQueue 5 fun q => { q with started := true }
        s.targets 6 ≠ [] ∧ u.drained [] [7] = true ∧ u.arriving [7] = false ∧ u.vacateFits (u.targets 6) [7] = true ∧ (u.queue 6).st = .running ∧ ∀ l ∈ u.targets 6, (u.launch l).st ≠ .loading)) := by
  decide +kernel

/-- The image of a vacated core that holds nothing is saved. -/
theorem witness_preemption_image :
    let s := { performing [(0, 5), (0x0A, 1), (0x10, 6), (0x1A, 2), (0x20, 1)] with
        launches := [(6, { st := .running, q := 6, cores := [6], record := recordOf [(0x0A, 1)] })] }
    ∃ t, ([7].forM (imageCore [6])).run (dropRequests [] s) = .ok () t := unit_of (by decide +kernel)

/-- A table of three blocks of which two are done, and one that is stalled: its block 1 is in flight in no context. -/
def oneLeft : State := ((chain true 2 1 0 1).setBytes 0x20088 [0x10]).setBytes 0x20048 [0x10]

/-- That table. -/
def stuck : State := (chain false 2 5 0 5).setBytes 0x20048 [8]

/-- Whether no line-watch unit of a compute die has been written. -/
def noUnits (s : State) : Bool := (List.range 4).all fun d => (List.range 8).all fun u => Tbl.get 0 (s.die d).lwctl u == 0

/-- Where none has been written, none is armed. -/
theorem unwatched_of {s : State} (h : noUnits s = true) : Unwatched s := fun line => by
  unfold State.lineWatched
  cases hd : homeDie line with
  | none => rfl
  | some d =>
    have hx : line / 4096 % 4 ^^^ line / 0x100000 % 4 < 2 ^ 2 := Nat.xor_lt_two_pow (by omega) (by omega)
    have hlt : d < 4 := by
      unfold homeDie at hd
      dsimp only at hd
      split at hd
      · cases hd; exact hx
      · cases hd; exact hx
      · cases hd; repeat' split
        all_goals decide
      · cases hd
    refine List.any_eq_false.2 fun u hu => ?_
    rw [eq_of_beq (List.all_eq_true.1 (List.all_eq_true.1 h d (List.mem_range.2 hlt)) u hu)]
    exact Bool.not_eq_true _ |>.mpr rfl

/-- Witnesses of the clauses of `levelEvents` on the use of the tables. -/
theorem witness_levelEvents_use :
    (∃ u, (useTable 0).run oneLeft = .ok () u ∧ ((u.launch 0).dispatches = true ∧ u.candidates 0 0 = [0] ∧ u.runnable 0 0 = (true, none) ∧
      u.blockCore 0 0 = some 0 ∧ u.freeSlot 0 0 = some 0 ∧ u.levelCtxs 0 0 < (u.launch 0).f 0x3A 1 / 16 % 16) ∧
      ∃ a v, (useDesc 0 0).run u = .ok a v ∧ (v.core 0).gate = none ∧ Unwatched v) ∧
    (∃ u, (useSnapshot 0 0).run stuck = .ok () u ∧ u.dieStalled 0 0 = true ∧ (snapshot 0 (u.dieBlocks 0 0) u).2 = none) := by
  constructor
  · obtain ⟨⟨⟩, u, hu, hp, hv⟩ := ok_of (m := useTable 0) (s := oneLeft)
      (P := fun _ u => ((u.launch 0).dispatches = true ∧ u.candidates 0 0 = [0] ∧ u.runnable 0 0 = (true, none) ∧
        u.blockCore 0 0 = some 0 ∧ u.freeSlot 0 0 = some 0 ∧ u.levelCtxs 0 0 < (u.launch 0).f 0x3A 1 / 16 % 16) ∧
        probe (useDesc 0 0) u (fun _ v => (v.core 0).gate.isNone && noUnits v) = true) (by decide +kernel)
    obtain ⟨a, v, hv, hx⟩ := probed hv
    rw [Bool.and_eq_true, Option.isNone_iff_eq_none] at hx
    exact ⟨u, hu, hp, a, v, hv, hx.1, unwatched_of hx.2⟩
  · obtain ⟨⟨⟩, u, hu, h1, h2⟩ := ok_of (m := useSnapshot 0 0) (s := stuck)
      (P := fun _ u => u.dieStalled 0 0 = true ∧ (snapshot 0 (u.dieBlocks 0 0) u).2 = none) (by decide +kernel)
    exact ⟨u, hu, h1, h2⟩

/-- A word of the sequencer's descriptor at 0x1000 in a test: A at 0x10000, B at 0x20000, scales at 0x30000, the result at 0x40000
with rows of 0x200 bytes, format 1. -/
def sequencer : State :=
  { engine (.mseq { xword with ty := 1, mm1 := 1, nm1 := 1 }) 0 with
    mem := [(0x1002, 1), (0x100A, 2), (0x1012, 3), (0x101A, 4), (0x1021, 2), (0x1028, 1), (0x10000, 0x38), (0x20000, 1), (0x20080, 0x38)] }

/-- Its entry. -/
def sequencerPend : Pend := { inFlight (.mseq { xword with ty := 1, mm1 := 1, nm1 := 1 }) with dra := 0x1000, queued := true }

/-- The result's rows that its step writes, once its spans have been read. -/
def sequencerRows (ab bm blocks scales : List Byte) (s5 : State) : List (Nat × List Byte) :=
  let w := slotOf 1 128 32 (bitmapBits 128 32 bm) blocks scales
  let a := aValue (s5.setBytes (placeStage 0 0) ab) 0 0 1 128 32
  let new := fun (i j : Nat) => accumulate (narrowClass 1 w) 0 (productGroups a w i j 0 1) % 2 ^ 128
  (List.range 2).flatMap fun i =>
    let row := (List.range 2).flatMap fun j => leBytes 4 (accOut 1 0 (new i j))
    byteplan (span ((0x40000 + i * 0x200) % 2 ^ 57) row.length) row

/-- Witnesses of `sequencerStep`: the spans of its only step can be read, and its rows and NEXT written. -/
theorem witness_sequencerStep :
    let p := sequencerPend
    let m : MEnt := { key := 0, seq := 0, core := 0, slot := 0, cmd := none }
    p.dra.toNat % 64 = 0 ∧ p.drb.toNat % 128 = 0 ∧ p.drb.toNat + 2 * aSize 1 128 32 ≤ 0x40000 ∧
    (sequencer.cluster 0).queue = [m] ∧ sequencer.entryPend m = some p ∧
    (∃ ps s1, (matrixPieces 0 0 p).run (clearNotes sequencer) = .ok ps s1 ∧ ∀ x ∈ ps, inWindow x.1 = false) ∧
    ∃ s, (govern 0 m).run (clearNotes sequencer) = .ok true s ∧
    ∃ words s1, (readSpan 0 p 0x1000 64).run s = .ok words s1 ∧
      ((let word := fun (i : Nat) => leNat ((words.drop (8 * i)).take 8)
        word 0 = 0x10000 ∧ word 1 = 0x20000 ∧ word 2 = 0x30000 ∧ word 3 = 0x40000 ∧ word 4 = 0x200 ∧ word 5 = 1 ∧ word 6 = 0 ∧ word 7 = 0) ∧
      Tbl.get 0 (s1.cluster 0).owner 1 = 0 + 1) ∧
      ∃ ab s2, (readSpan 0 p 0x10000 (aSize 1 128 32)).run s1 = .ok ab s2 ∧
      ∃ bm s3, (readSpan 0 p 0x20000 8).run s2 = .ok bm s3 ∧ ((bitmapBits 128 32 bm).filter id).length * imageBlock 1 = 64 ∧
      ∃ blocks s4, (readSpan 0 p 0x20080 64).run s3 = .ok blocks s4 ∧
      ∃ scales s5, (readSpan 0 p 0x30000 256).run s4 = .ok scales s5 ∧
      ∃ s6, (vecWrite 0 p (seqSource s5 0) 0 false (sequencerRows ab bm blocks scales s5 ++ [(0x102C, leBytes 4 1)])).run s5 = .ok () s6 := by
  intro p m
  refine ⟨by decide +kernel, by decide +kernel, by decide +kernel, by decide +kernel, by decide +kernel, ok_of (by decide +kernel), ?_⟩
  obtain ⟨b, s, h0, k0⟩ := probed (m := govern 0 m) (s := clearNotes sequencer) (P := fun b s => b &&
   probe (readSpan 0 p 0x1000 64) s fun words s1 =>
    decide ((let word := fun (i : Nat) => leNat ((words.drop (8 * i)).take 8)
      word 0 = 0x10000 ∧ word 1 = 0x20000 ∧ word 2 = 0x30000 ∧ word 3 = 0x40000 ∧ word 4 = 0x200 ∧ word 5 = 1 ∧ word 6 = 0 ∧ word 7 = 0) ∧
      Tbl.get 0 (s1.cluster 0).owner 1 = 0 + 1) &&
    probe (readSpan 0 p 0x10000 (aSize 1 128 32)) s1 fun ab s2 => probe (readSpan 0 p 0x20000 8) s2 fun bm s3 =>
      decide (((bitmapBits 128 32 bm).filter id).length * imageBlock 1 = 64) &&
      probe (readSpan 0 p 0x20080 64) s3 fun blocks s4 => probe (readSpan 0 p 0x30000 256) s4 fun scales s5 =>
        probe (vecWrite 0 p (seqSource s5 0) 0 false (sequencerRows ab bm blocks scales s5 ++ [(0x102C, leBytes 4 1)])) s5
          fun _ _ => true) (by decide +kernel)
  rw [Bool.and_eq_true] at k0
  obtain ⟨rfl, k0⟩ := k0
  obtain ⟨words, s1, h1, k1⟩ := probed k0
  rw [Bool.and_eq_true, decide_eq_true_eq] at k1
  obtain ⟨kw, k2⟩ := k1
  obtain ⟨ab, s2, h2, k3⟩ := probed k2
  obtain ⟨bm, s3, h3, k4⟩ := probed k3
  rw [Bool.and_eq_true, decide_eq_true_eq] at k4
  obtain ⟨kb, k5⟩ := k4
  obtain ⟨blocks, s4, h4, k6⟩ := probed k5
  obtain ⟨scales, s5, h5, k7⟩ := probed k6
  obtain ⟨_, s6, h6, _⟩ := probed k7
  exact ⟨s, h0, words, s1, h1, kw, ab, s2, h2, bm, s3, h3, kb, blocks, s4, h4, scales, s5, h5, s6, h6⟩

/-- A witness of `spanReads`: eight bytes of memory that no byte marks. -/
theorem witness_spanReads :
    sequencer.pendReq sequencerPend = none ∧ inWindow 0x10000 = false ∧ (0x10000 % 128 + 8 ≤ 128) ∧
    ∃ loc s1, (vecLoc (sequencer.pendEnv 0 sequencerPend) 0x10000 8 accRead).run sequencer = .ok loc s1 ∧ loc.place? = some 0x10000 ∧
      ∃ s2, (readLines (.mx 0) 0 (pieceLines [(0x10000, 8, loc)])).run s1 = .ok () s2 ∧ ∀ i < 8, s2.byteMark (0x10000 + i) = 0 := by
  refine ⟨rfl, rfl, by decide, ?_⟩
  obtain ⟨loc, s1, h1, k1⟩ := probed (m := vecLoc (sequencer.pendEnv 0 sequencerPend) 0x10000 8 accRead) (s := sequencer)
    (P := fun loc s1 => decide (loc.place? = some 0x10000) &&
      probe (readLines (.mx 0) 0 (pieceLines [(0x10000, 8, loc)])) s1 fun _ s2 => (List.range 8).all fun i => s2.byteMark (0x10000 + i) == 0)
    (by decide +kernel)
  rw [Bool.and_eq_true, decide_eq_true_eq] at k1
  obtain ⟨_, s2, h2, k2⟩ := probed k1.2
  exact ⟨loc, s1, h1, k1.1, s2, h2, fun i hi => by simpa using List.all_eq_true.1 k2 i (List.mem_range.2 hi)⟩

/-- Witnesses of `copyLines`: the second line of a copy, whose bytes can be read; one into the A-stage; and its store. -/
theorem witness_copyLines :
    let c := copying 1 none none
    let s := { plain with copies := [c] }
    s.copies.find? (fun x => x.id == 6) = some c ∧ c.stopped = false ∧ c.next < c.total ∧ s.copyBehind c = false ∧ c.mode = 0 ∧ c.fmt = 0 ∧ c.req = none ∧
    ∃ locs s1, (vecLocs c.env accRead (linePieces 3 ((c.src + 128) % 2 ^ 57) 128)).run s = .ok locs s1 ∧
      ((∀ l ∈ locs, inWindow l.1 = false ∧ l.2.2.place?.isSome = true)) ∧
      ∃ s2, (readLines (.l2 0) 0 (pieceLines locs)).run s1 = .ok () s2 ∧ (∀ p ∈ s2.posts, p.key ≠ engineKey) ∧
        (∀ i < 128, s2.byteMark (0x1080 + i) = 0) ∧
        ∃ loc v, (vecLoc c.env 0x2080 128 accWrite).run { s2 with copies := s2.copies.map fun y =>
            if y.id = 6 then { y with next := y.next + 1, req := none, entries := [] } else y } = .ok loc v ∧
          loc = .mem 0x2080 0 ∧ v.copyRoom c (2048 + (homeDie 0x2080).getD 0) = true ∧ (v.launch c.launch).det = false := by
  intro c s
  refine ⟨rfl, rfl, by decide, by decide +kernel, rfl, rfl, rfl, ?_⟩
  obtain ⟨locs, s1, h1, k1⟩ := probed (m := vecLocs c.env accRead (linePieces 3 ((c.src + 128) % 2 ^ 57) 128)) (s := s)
    (P := fun locs s1 => decide (∀ l ∈ locs, inWindow l.1 = false ∧ l.2.2.place?.isSome = true) &&
      probe (readLines (.l2 0) 0 (pieceLines locs)) s1 fun _ s2 =>
        decide (∀ p ∈ s2.posts, p.key ≠ engineKey) && ((List.range 128).all fun i => s2.byteMark (0x1080 + i) == 0) &&
        probe (vecLoc c.env 0x2080 128 accWrite) { s2 with copies := s2.copies.map fun y =>
            if y.id = 6 then { y with next := y.next + 1, req := none, entries := [] } else y } fun loc v =>
          decide (loc = .mem 0x2080 0 ∧ v.copyRoom c (2048 + (homeDie 0x2080).getD 0) = true ∧ (v.launch c.launch).det = false))
    (by decide +kernel)
  rw [Bool.and_eq_true, decide_eq_true_eq] at k1
  obtain ⟨_, s2, h2, k2⟩ := probed k1.2
  rw [Bool.and_eq_true, Bool.and_eq_true, decide_eq_true_eq] at k2
  obtain ⟨loc, v, h3, k3⟩ := probed k2.2
  exact ⟨locs, s1, h1, k1.1, s2, h2, k2.1.1, fun i hi => by simpa using List.all_eq_true.1 k2.1.2 i (List.mem_range.2 hi),
    loc, v, h3, of_decide_eq_true k3⟩

/-- Witnesses of `mailboxCommands`: a command under way, whose buffer can and cannot be used, and an idle mailbox. -/
theorem witness_mailbox :
    (let s := { State.reset with lmCmd := some 2 }
     s.lmCmd.isSome = true ∧ s.lmBufOK = true ∧ (2#64).toNat % 256 = 2 ∧ Unhindered s) ∧
    ({ State.reset with lmCmd := some 3, regs := [(0xC8, 4)] } : State).lmBufOK = false ∧ State.reset.lmCmd = none ∧
    ∀ v ∈ [0#64, 1#64, 3#64, 4#64, 5#64], (v.toNat % 256 = 0 ∨ 4 < v.toNat % 256 ∨ v.toNat % 256 ∈ [1, 3, 4]) := by
  refine ⟨⟨rfl, by decide +kernel, rfl, rfl, rfl, rfl, rfl, fun e he => absurd he List.not_mem_nil, fun d n => ?_⟩, by decide +kernel, rfl, ?_⟩
  · simp only [State.linkStuck, State.link, State.die, State.reset]
    exact Bool.and_eq_false_iff.2 (Or.inr rfl)
  · intro v hv
    simp only [List.mem_cons, List.not_mem_nil, or_false] at hv
    rcases hv with rfl | rfl | rfl | rfl | rfl <;> decide

/-- Witnesses of `repairEvents`: errors in bytes of memory, in a register of a live context and in a lane of one. -/
theorem witness_eccUncorrectable :
    let s := alone { ctxOf [] with grant := 1 }
    0x1000 + 8 ≤ 2 ^ 58 ∧ (s.ctx 0).live = true ∧ 31 < (s.ctx 0).vl ∧ (63 : Nat) < 64 ∧ (2 ^ 58 + 0 * 2 ^ 16 + 63 = 2 ^ 58 + 63) ∧
      unitListed 0x10000000 = true ∧ (∀ r ∈ s.repair, r.unit ≠ 0x10000000) := by decide +kernel

/-- Witnesses of `claimGrants` and `renewGrants`: a context with nothing to spill whose claim is met, and one whose claim stays short. -/
theorem witness_LaneClaims_grants :
    (plain.ctx plain.cur).spillDue = false ∧ min (plain.poolSize 0) (((3#64).toNat + 31) / 32) = 1 ∧
    (let c := { ctxOf [] with request := 1 }
     1 - c.grant ≤ c.reserved + ((plain.modCtx 0 fun c => { c with request := 1, reserved := 0 }).claimable 0 - c.reserved)) ∧
    (let s := alone { ctxOf [(5, 256)] with request := 8 }
     let u := { s with ctxs := s.ctxs ++ [(16, { ctxOf [] with grant := 8 })] }
     (u.modCtx 0 fun c => { c with request := 8, reserved := 0 }).claimable 0 < 8 ∧ ¬ 8 < (u.ctx 0).request) ∧
    (hazards.ctx hazards.cur).mig = false ∧ ((hazards.ctx hazards.cur).pend.any fun p => !p.op.isMatrix) = true := by decide +kernel

/-- Witnesses of the clauses of `SpecialRegisterWrites` on CSPLIT: a scratchpad with a posted store under way, and none. -/
theorem witness_carveOut :
    (let s := { ringed with posts := [{ postTo 2048 .sent with place := placeCore 0 0 }] }
     s.scratchBusy 0 = true ∧ 1 ≤ 8 ∧ 1 ≠ (s.core 0).split.toNat) ∧ ringed.scratchBusy 0 = false := by decide +kernel

/-- A witness of the clause of `Helpers` on a level update that is discarded: its tables can be used. -/
theorem witness_Helpers_update :
    (updating.ctx 0).inUpdate = true ∧ (updating.ctx 0).priv = 0 ∧ (updating.ctx 0).pend = [] ∧ (updating.ctx 0).due = [] ∧
      (updating.ctx 0).standing ≠ .control ∧ ∃ a u, useUpdate.run (clearNotes updating) = .ok a u ∧ u.cur = updating.cur :=
  ⟨rfl, by decide +kernel, rfl, rfl, by decide +kernel, ok_of (by decide +kernel)⟩

/-! ### Witnesses of the clauses on what waits, stops or is refused -/

/-- Witnesses of `WaitOnWord` and of `eventUnitAccesses`: no posted store of the context's own device hides the word, and the link to
a cluster of another die is open. -/
theorem witness_waits_and_links :
    plain.gatewayPost 0 0x1000 8 = false ∧ (plain.ctx 0).origins = [] ∧ plain.linksOpen 0 [dieOfCluster 0xC0] = true := by decide +kernel

/-- A witness of the clause of `levels` on tables whose memory is lost: their use faults. -/
theorem witness_levels_lost :
    (match (useTable 0).run (clearNotes { updating with dies := [(0, { dead := true }), (1, { dead := true }), (2, { dead := true }), (3, { dead := true })] }) with
      | .error (.trap _) _ => true
      | _ => false) = true := by decide +kernel

/-- Witnesses of the clauses of `migrations` on what hinders the write of MIG: a line that the host holds, one of a lost die, an entry
that is no leaf, and M0 lost. -/
theorem witness_migrations_hindered :
    (let s := { State.reset with mem := smallTable, dir := [(0x13000, { host := .owned })] }
     homed 0x13000 = true ∧ s.lineWaits .home 0x13000 = true ∧ s.lostPhys 0x13000 = false) ∧
    ({ State.reset with dies := [((homeDie 0x13000).getD 0, { dead := true })] } : State).lostPhys 0x13000 = true ∧
    (BitVec.ofNat 64 (leNat (State.reset.bytes 0x13000 8))).getLsbD 0 = false ∧
    (({ State.reset with dies := [(4, { dead := true })] } : State).die 4).dead = true := by decide +kernel

/-- Witnesses of the clauses of `trapEvents` on a rollback that waits and on a fault after one: a launch that is being switched out, a
member on a vacated core, and a member whose trap has been entered. -/
theorem witness_rollback_waits :
    let g : Group := { g := 3, members := [0], rb := true, rcm := 0 }
    team.preempted 0 = false ∧ (∀ k ∈ team.teamMembers 0 g, (team.ctx k).st ≠ .absent) ∧
    (let s := { team with queues := [(0, { st := .switchingOut })] }
     s.teamOf 0 = some g ∧ s.preempted 0 = true) ∧
    (let s := team.modCtx 0 fun c => { c with st := .absent }
     ∃ k ∈ s.teamMembers 0 g, (s.ctx k).st = .absent) ∧
    (let s := team.modCtx 0 fun c => { c with rolled := true, rolling := false, rollDue := false, sr := 0x400 }
     s.teamOf 0 = some g ∧ s.rollAhead 0 = false ∧ (∃ k ∈ s.teamMembers 0 g, (s.ctx k).rolled = true) ∧ (s.ctx 0).priv ≠ 0) := by decide +kernel

/-- Witnesses of the clause of `hintEvents` on a take of a gateway queue with a block, or a completed block, to be taken first. -/
theorem witness_take_block :
    (let k : Core := { gqueue := [5] }
     k.gqueue ≠ []) ∧ (let k : Core := { gready := [(0, 5)] }
     Tbl.get 0 k.gready k.gnext ≠ 0) ∧ (let k : Core := { gdone := [(0, 5)] }
     k.gdone ≠ []) := by decide +kernel

/-- Witnesses of the clauses of `waitEvents` on the retest: a write made to the line since the test, and none. -/
theorem witness_retest :
    ({ sleeper 0x1000 with wlog := [{ n := 1, place := 0x1040, old := [0] }] } : State).lineRewritten 0 0x1000 = true ∧
    (sleeper 0x1000).lineRewritten 0 0x1000 = false ∧ (∀ w ∈ (sleeper 0x1000).wlog, ((sleeper 0x1000).ctx 0).tested < w.n → False) := by
  refine ⟨by decide +kernel, by decide +kernel, fun w hw => absurd hw List.not_mem_nil⟩

/-- Witnesses of the clauses of `waitEvents` on tiles: an older one that wants the same line, a younger one that gives a line up and
leaves it free, and one that keeps it because it has all its lines. -/
theorem witness_tile_order :
    let u : Tile := { key := 0, store := true, age := 3, lines := [0x1000, 0x1080], got := 0 }
    let old : Tile := { key := 16, store := true, age := 2, lines := [0x1000], got := 0 }
    let young : Tile := { key := 32, store := true, age := 5, lines := [0x1000, 0x2000], got := 1 }
    (old.older u = true ∧ old.lines[old.got]? = some 0x1000) ∧
    (u.older young = true ∧ young.got < young.lines.length ∧ 0x1000 ∈ young.lines.take young.got) ∧
    (let v := { plain with tiles := [u, { young with got := 0 }] }
     v.tileStuck 0 true 0x1000 = false ∧ ∀ h ∈ v.tiles, h.key ≠ 0 → 0x1000 ∉ h.lines.take h.got) ∧
    (let whole := { young with lines := [0x1000] }
     ¬ whole.got < whole.lines.length ∧ 0x1000 ∈ whole.lines.take whole.got) := by decide +kernel

/-- Witnesses of the clauses of `commits`, `acknowledgements` and `responses`: a domain that is not enabled; a line that the host holds;
stores before one of its stream towards another device, and a marker before a copy line. -/
theorem witness_commits_hindered :
    plain.domEn = false ∧
    (let s := { withPost 2048 .sent with dir := [(0x4000, { host := .owned })] }
     s.lineWaits ((postTo 2048 .sent).source s).via 0x4000 = true ∧ (withPost 2048 .sent).lineWaits ((postTo 2048 .sent).source plain).via 0x4000 = false) ∧
    (let p := { postTo 7 .sent with seq := 4 }
     let q := { postTo 7 .sent with id := 9, seq := 3 }
     q.st = .sent ∧ q.id ≠ p.id ∧ (p.seq - q.seq).toNat < 2048 ∧ ¬ (q.seq - p.seq).toNat < 2048) ∧
    (let m := { postTo 7 .waiting with id := 8, marker := some 2 }
     (∃ k, m.marker = some k ∧ k < (postTo 7 .sent).copy.getD (postTo 7 .sent).id) ∧ m.st = .waiting) := by decide +kernel

/-- Witnesses of the clauses of `targets` on peers: a line that a tile of this device holds, and a tile of a peer that is older. -/
theorem witness_targets_waits :
    let s := { plain with
      regs := [(0x700000, 0x8000000000000000), (0x700010, 0x60000), (0x700018, 1)]
      mem := [(0x60000, 0x3B), (0x60011, 0x10)]
      tiles := [{ key := 0, store := true, age := 9, lines := [placeCore 0 0, placeCore 0 128], got := 1 }] }
    (∃ loc t, (targetLoc 0 0x0180040000000000 8 3).run s = .ok loc t ∧
      (loc.place? = some (placeCore 0 0) ∧ t.readWaits .home (lineOf (placeCore 0 0)) = true)) ∧
    (∃ u ∈ s.tiles, 5 < u.age ∧ u.got < u.lines.length ∧ lineOf (placeCore 0 0) ∈ u.lines.take u.got) ∧
    ∃ loc t, (targetLoc 0 0x0180040000000000 8 3).run { s with tiles := s.tiles.map fun u => { u with got := 0 } } = .ok loc t ∧
      t.readWaits .home (lineOf (placeCore 0 0)) = false :=
  ⟨ok_of (by decide +kernel), by decide +kernel, ok_of (P := fun _ t => t.readWaits .home (lineOf (placeCore 0 0)) = false) (by decide +kernel)⟩

/-- Witnesses of the clauses on the host: a full set whose victim the host holds, a BISnp that is outstanding and none, a host line at
a home with room, and a launch to resume with M0 lost. -/
theorem witness_host_more :
    (match fullSet.filterVictim ln with
      | some v =>
        let s := { fullSet with dir := fullSet.dir.map fun (e : Nat × Dir) => if e.1 = v then (e.1, { host := .shared }) else e }
        decide ((s.dirOf v).hosted = true ∧ (s.dirOf v).hostAt v = .shared) && !s.lineBusy v
      | none => false) = true ∧
    (let s := { State.reset with snoops := [0x4000], dir := [(0x4000, { host := .owned })] }
     0x4000 ∈ s.snoops ∧ (s.dirOf 0x4000).hostAt 0x4000 = .owned ∧ s.queuesOpen none 0x4000 = true) ∧
    0x4000 ∉ State.reset.snoops ∧ Unwatched State.reset := by
  exact ⟨by decide +kernel, by decide +kernel, by decide +kernel, unwatched_of (by decide +kernel)⟩

/-- Witnesses of the clauses of `queueEntries`, `launches` and `preemption` on memory of the host, on a core of a lost die, and on a
list of cores that cannot be read yet. -/
theorem witness_queues_hindered :
    (∃ loc t, (resolve (entryEnv 0 (recordOf [(0, 4), (1, 1), (0x0A, 1)]) (copyLaunch 5)) 0x20000 8 accWrite).run
      { State.reset with mem := smallTable.flatMap fun c => if c.1 = 0x13000 then [c, (0x13001, 6), (0x13006, 8)] else [c] } = .ok loc t ∧ loc = .mem 0x8000000020000 3) ∧
    (let gs : List Group := [{ g := 0, members := [0], rb := false, rcm := 0 }]
     deadDie { State.reset with dies := [(0, { dead := true })] } gs = some 0 ∧ deadDie State.reset gs = none) ∧
    (let s := { performing [(0, 5), (0x0A, 1), (0x10, 6), (0x1A, 2), (0x20, 1)] with dir := [(0x20000, { host := .owned })] }
     (match (vacateList 5).run s with
       | .error r _ => decide (r = recHeld)
       | .ok _ _ => false) = true) :=
  ⟨ok_of (by decide +kernel), by decide +kernel, by decide +kernel⟩

/-- Witnesses of the clauses of `copyMoves` on a line that must wait, and on a tag of a core that has been vacated. -/
theorem witness_copies_hindered :
    (∃ w z u, (moveLine (copying 0 none none)).run
      { plain with copies := [copying 0 none none], dir := [(0x1000, { host := .owned })] } = .error (.hold w z) u) ∧
    ({ copying 2 none none with origin := some 4 } : Copy).origin = some 4 := ⟨hold_of (by decide +kernel), rfl⟩

/-- A context whose scale plane lies in the window, its element plane not, with a stream there that has room or none. -/
def scales (full : Bool) : State :=
  { alone { ctxOf [(5, 0x0080000000000000), (20, 0x0180000000000000)] with grant := 1, sr := 1, pfx := 0x141 } with
    posts := if full then [postTo 0 .waiting] else [], regs := [(0x700000, 0x8000000000000001)] }

/-- Witnesses of the clauses of `VectorDispatch` on room for a quantising store. -/
theorem witness_VectorDispatch_room :
    Dispatchable (scales true) (.quant 0 (mword 0 5 1)) ∧ Dispatchable (scales false) (.quant 0 (mword 0 5 1)) ∧
    ¬ StreamOpen (scales true) (mword 0 5 1) (.quant 0 (mword 0 5 1)) ∧ StreamOpen (scales false) (mword 0 5 1) (.quant 0 (mword 0 5 1)) := by
  refine ⟨dispatchable_of (by decide +kernel), dispatchable_of (by decide +kernel), ?_, ?_⟩
  · unfold StreamOpen RoomAt
    decide +kernel
  · unfold StreamOpen RoomAt
    decide +kernel

end Sys2Proof.Tests
end

section
/-!
PROOFS. Division corners (R45): the values of the four divisions at the two borderline cases, and what the completion of an
instruction leaves of SR.
-/

namespace Sys2Proof.Machine

open Sys2Proof

/-! ### The values -/

theorem divS_zero (a : Word) : divS a 0 = BitVec.allOnes 64 := if_pos rfl

theorem divU_zero (a : Word) : divU a 0 = BitVec.allOnes 64 := if_pos rfl

theorem remS_zero (a : Word) : remS a 0 = a := if_pos rfl

theorem remU_zero (a : Word) : remU a 0 = a := if_pos rfl

theorem divS_intMin_allOnes : divS (BitVec.intMin 64) (BitVec.allOnes 64) = BitVec.intMin 64 := by decide

theorem remS_intMin_allOnes : remS (BitVec.intMin 64) (BitVec.allOnes 64) = 0 := by decide

/-! ### Completion leaves SR -/

@[simp] theorem rest_sr (c : Ctx) (y : Bool) (d : Nat) : (c.rest y d).sr = c.sr := by
  unfold Ctx.rest
  split
  · rfl
  · split
    · rfl
    · split <;> rfl

@[simp] theorem setX_sr (c : Ctx) (n : Nat) (v : Word) : (c.setX n v).sr = c.sr := by
  rw [setX_rest]

/-- Completing an instruction leaves SR as its effect on the current context made it. -/
theorem ends_sr (s : State) (len : Nat) (y : Bool) (d : Nat) (f : Ctx → Ctx) :
    ((s.ends len y d f).ctx s.cur).sr = (f (s.ctx s.cur)).sr := by
  unfold State.ends complete
  simp only [modCtx_cur, clearNotes_cur, modCtx_ctx_self, clearNotes_ctx]
  split
  · rw [rest_sr]; rfl
  · rfl

/-! ### The instructions -/

section
variable {o : Sh} {s : State} (hi : Issues s) (h1 : Readable s o.rs1.toNat) (h2 : Readable s o.rs2.toNat)
include hi h1 h2

theorem exec_div : exec (.div o) s = .next (s.ends 8 false 0 (·.setX o.rd.toNat (divS (s.x o.rs1) (s.x o.rs2)))) :=
  regForm_ends hi h1 h2

theorem exec_divu : exec (.divu o) s = .next (s.ends 8 false 0 (·.setX o.rd.toNat (divU (s.x o.rs1) (s.x o.rs2)))) :=
  regForm_ends hi h1 h2

theorem exec_rem : exec (.rem o) s = .next (s.ends 8 false 0 (·.setX o.rd.toNat (remS (s.x o.rs1) (s.x o.rs2)))) :=
  regForm_ends hi h1 h2

theorem exec_remu : exec (.remu o) s = .next (s.ends 8 false 0 (·.setX o.rd.toNat (remU (s.x o.rs1) (s.x o.rs2)))) :=
  regForm_ends hi h1 h2

end

/-- Settles O9: each division completes with the value of its operation (`exec_div` and the three like it), whose corners are
evaluated above; `ends_sr` says that completion leaves SR alone. -/
theorem divisionCorners : Obligations.DivisionCorners := by
  intro o s hi h1 h2 gives
  refine ⟨fun hb => ⟨?_, ?_, ?_, ?_⟩, fun ha hb => ⟨?_, ?_⟩, fun v => ?_⟩
  · exact (exec_div hi h1 h2).trans (by rw [hb, divS_zero])
  · exact (exec_divu hi h1 h2).trans (by rw [hb, divU_zero])
  · exact (exec_rem hi h1 h2).trans (by rw [hb, remS_zero])
  · exact (exec_remu hi h1 h2).trans (by rw [hb, remU_zero])
  · exact (exec_div hi h1 h2).trans (by rw [ha, hb, divS_intMin_allOnes])
  · exact (exec_rem hi h1 h2).trans (by rw [ha, hb, remS_intMin_allOnes])
  · exact (ends_sr ..).trans (setX_sr ..)

end Sys2Proof.Machine
end

section
/-!
PROOFS. Zeros and NaNs in sums, minimum, maximum and comparisons (R48): how a pattern decodes, then one lemma for each
operation and kind of operand.
-/

namespace Sys2Proof.Machine

open Sys2Proof

theorem ebits_ne_zero {f : Fmt} (hf : f ∈ floatFormats) : f.ebits ≠ 0 := by
  revert f
  decide

/-! ### Decoding -/

/-- The exponent field of a pattern (R46). -/
def Fmt.expField (f : Fmt) (b : Nat) : Nat := b / 2 ^ f.fbits % 2 ^ f.ebits

/-- The sign bit of a pattern (R46). -/
def Fmt.signBit (f : Fmt) (b : Nat) : Bool := b / 2 ^ (f.ebits + f.fbits) % 2 == 1

/-- A zero exponent field decodes to a subnormal or a zero, flushed under `.ftz`. -/
theorem decode_of_expField_zero {f : Fmt} {z : Bool} {b : Nat} (hE : f.ebits ≠ 0) (h : f.expField b = 0) :
    f.decode z b = .fin (f.signBit b) (if z then 0 else b % 2 ^ f.fbits) (1 - (f.bias : Int) - f.fbits) := by
  have hmax : (0 : Nat) ≠ 2 ^ f.ebits - 1 := (Nat.sub_pos_of_lt (Nat.one_lt_two_pow hE)).ne
  unfold Fmt.expField at h
  simp only [Fmt.decode, h, if_neg hmax, if_true]
  rfl

/-- Only a zero exponent field decodes to a zero. -/
theorem expField_of_decode_zero {f : Fmt} {z n : Bool} {b : Nat} {e : Int} (h : f.decode z b = .fin n 0 e) :
    f.expField b = 0 := by
  by_contra h0
  have hpos : 2 ^ f.fbits ≠ 0 := by positivity
  unfold Fmt.expField at h0
  simp only [Fmt.decode, if_neg h0] at h
  split at h
  · split at h <;> cases h
  · injection h with _ hm _
    omega

theorem decode_zero {f : Fmt} (hE : f.ebits ≠ 0) (z n : Bool) :
    f.decode z (f.zero n) = .fin n 0 (1 - (f.bias : Int) - f.fbits) := by
  have hexp : f.expField (f.zero n) = 0 := by
    cases n <;> simp [Fmt.expField, Fmt.zero, pow_add]
  have hsign : f.signBit (f.zero n) = n := by
    cases n <;> simp [Fmt.signBit, Fmt.zero]
  have hfrac : f.zero n % 2 ^ f.fbits = 0 := by
    cases n <;> simp [Fmt.zero, pow_add]
  rw [decode_of_expField_zero hE hexp, hsign, hfrac, ite_self]

/-- An operand as minimum and maximum deliver it: under `.ftz` a subnormal is the zero of its sign (R51, R122). -/
def Fmt.delivered (f : Fmt) (z : Bool) (b : Nat) : Nat :=
  if z = true ∧ f.expField b = 0 then b / 2 ^ (f.ebits + f.fbits) * 2 ^ (f.ebits + f.fbits) else b

/-- The zero of a pattern's sign is the pattern with all below its sign bit cleared. -/
theorem zero_signBit {f : Fmt} {b : Nat} (hb : b < 2 ^ f.width) :
    f.zero (f.signBit b) = b / 2 ^ (f.ebits + f.fbits) * 2 ^ (f.ebits + f.fbits) := by
  have hlt : b / 2 ^ (f.ebits + f.fbits) < 2 := by
    rw [Nat.div_lt_iff_lt_mul (by positivity), ← pow_succ']
    rwa [Fmt.width, add_assoc, add_comm] at hb
  unfold Fmt.zero Fmt.signBit
  interval_cases b / 2 ^ (f.ebits + f.fbits) <;> simp

theorem delivered_of_decode_zero {f : Fmt} {z n : Bool} {b : Nat} {e : Int} (hE : f.ebits ≠ 0) (hb : b < 2 ^ f.width)
    (h : f.decode z b = .fin n 0 e) : f.delivered z b = f.zero n := by
  have hexp := expField_of_decode_zero h
  rw [decode_of_expField_zero hE hexp] at h
  injection h with hn hm _
  rw [← hn, zero_signBit hb]
  cases z with
  | true => exact if_pos ⟨rfl, hexp⟩
  | false =>
    -- without the flush, exponent and fraction are both 0
    have hlow : b % 2 ^ (f.ebits + f.fbits) = 0 := by
      unfold Fmt.expField at hexp
      rw [add_comm, pow_add, Nat.mod_mul, hexp, mul_zero, add_zero]
      exact hm
    rw [Nat.div_mul_cancel (Nat.dvd_of_mod_eq_zero hlow)]
    exact if_neg fun h => Bool.false_ne_true h.1

/-- An operand that does not read as a zero is delivered as it stands. -/
theorem delivered_of_decode_ne_zero {f : Fmt} {z : Bool} {b : Nat} (hE : f.ebits ≠ 0)
    (h : ∀ n e, f.decode z b ≠ .fin n 0 e) : f.delivered z b = b := by
  refine if_neg fun ⟨hz, hexp⟩ => ?_
  subst hz
  exact h _ _ (decode_of_expField_zero hE hexp)

/-! ### Sums -/

/-- The sum of a number and its opposite is the zero that the mode gives. -/
theorem addVal_opposite (m : Nat) (n : Bool) (k : Nat) {e e' : Int} (h : k = 0 ∨ e = e') :
    addVal m (.fin n k e) (.fin (!n) k e') = (.fin (m == 3) 0 0, 0) := by
  rcases eq_or_ne k 0 with rfl | hk
  · simp [addVal]
  · obtain rfl := h.resolve_left hk
    cases n <;> simp [addVal, alignTo, hk]

theorem fAdd_opposite {f : Fmt} {z n : Bool} {a b m k : Nat} {e e' : Int} (ha : f.decode z a = .fin n k e)
    (hb : f.decode z b = .fin (!n) k e') (h : k = 0 ∨ e = e') : fAdd f m z a b = (f.zero (m == 3), 0) := by
  simp only [fAdd, ha, hb, addVal_opposite m n k h, Fmt.deliver, if_true]
  rfl

/-! ### Minimum and maximum -/

/-- Of two zeros of different sign the minimum is −0 and the maximum +0. -/
theorem fMinMax_zeros {f : Fmt} (hE : f.ebits ≠ 0) (mx z n : Bool) :
    fMinMax f mx z (f.zero n) (f.zero (!n)) = (f.zero (!mx), 0) := by
  simp only [fMinMax, decode_zero hE]
  cases n <;> cases mx <;> simp [FVal.isNan, FVal.neg, cmpVal, alignTo]

theorem fMinMax_nan_left {f : Fmt} {mx z q : Bool} {a b : Nat} (hE : f.ebits ≠ 0) (hb : b < 2 ^ f.width)
    (hx : f.decode z a = .nan q) (hy : ∀ q', f.decode z b ≠ .nan q') :
    fMinMax f mx z a b = (f.delivered z b, if q then flagNV else 0) := by
  cases hv : f.decode z b with
  | nan q' => exact absurd hv (hy q')
  | inf n =>
    rw [delivered_of_decode_ne_zero hE (by simp [hv])]
    simp [fMinMax, hx, hv, FVal.isNan, FVal.isSig]
  | fin n m e =>
    cases m with
    | zero =>
      rw [delivered_of_decode_zero hE hb hv]
      simp [fMinMax, hx, hv, FVal.isNan, FVal.isSig]
    | succ m =>
      rw [delivered_of_decode_ne_zero hE (by simp [hv])]
      simp [fMinMax, hx, hv, FVal.isNan, FVal.isSig]

/-- The place of a NaN operand does not matter. -/
theorem fMinMax_nan_swap {f : Fmt} {mx z q : Bool} {a : Nat} (b : Nat) (hx : f.decode z a = .nan q) :
    fMinMax f mx z b a = fMinMax f mx z a b := by
  have ha : (f.decode z a).isNan = true := by rw [hx]; rfl
  cases hb : (f.decode z b).isNan <;> simp [fMinMax, ha, hb, or_comm]

theorem fMinMax_nans {f : Fmt} {mx z q q' : Bool} {a b : Nat} (hx : f.decode z a = .nan q) (hy : f.decode z b = .nan q') :
    fMinMax f mx z a b = (f.nan, if q || q' then flagNV else 0) := by
  simp [fMinMax, hx, hy, FVal.isNan, FVal.isSig]

/-! ### Comparisons -/

theorem cmpVal_nan_left (q : Bool) (v : FVal) : cmpVal (.nan q) v = none := rfl

theorem cmpVal_nan_right (v : FVal) (q : Bool) : cmpVal v (.nan q) = none := by
  cases v <;> rfl

theorem cmpVal_zeros (n n' : Bool) (e : Int) : cmpVal (.fin n 0 e) (.fin n' 0 e) = some .eq := by
  cases n <;> cases n' <;> simp [cmpVal, alignTo]

/-- Only a signalling NaN is signalling. -/
theorem isSig_eq_false {v : FVal} (h : v ≠ .nan true) : v.isSig = false := by
  cases v with
  | nan q => cases q with
    | true => exact absurd rfl h
    | false => rfl
  | inf n => rfl
  | fin n m e => rfl

/-- A pair of operands that does not compare is unequal. -/
theorem fEq_of_cmpVal_none {f : Fmt} {z : Bool} {a b : Nat} (h : cmpVal (f.decode z a) (f.decode z b) = none) :
    fEq f z a b = (false, if (f.decode z a).isSig || (f.decode z b).isSig then flagNV else 0) := by
  simp only [fEq, h]
  rfl

theorem fEq_nan_left {f : Fmt} {z q : Bool} {a : Nat} (b : Nat) (ha : f.decode z a = .nan q) :
    fEq f z a b = (false, if q || (f.decode z b).isSig then flagNV else 0) := by
  rw [fEq_of_cmpVal_none (by rw [ha, cmpVal_nan_left]), ha]
  rfl

theorem fEq_nan_right {f : Fmt} {z q : Bool} {a : Nat} (b : Nat) (ha : f.decode z a = .nan q) :
    fEq f z b a = (false, if (f.decode z b).isSig || q then flagNV else 0) := by
  rw [fEq_of_cmpVal_none (by rw [ha, cmpVal_nan_right]), ha]
  rfl

theorem fOrd_of_cmpVal_none {f : Fmt} {z : Bool} {rel : Ordering → Bool} {a b : Nat}
    (h : cmpVal (f.decode z a) (f.decode z b) = none) : fOrd f z rel a b = (false, flagNV) := by
  simp only [fOrd, h]

theorem fOrd_zeros {f : Fmt} (hE : f.ebits ≠ 0) (z n : Bool) (rel : Ordering → Bool) :
    fOrd f z rel (f.zero n) (f.zero (!n)) = (rel .eq, 0) := by
  simp only [fOrd, decode_zero hE, cmpVal_zeros]

theorem fEq_zeros {f : Fmt} (hE : f.ebits ≠ 0) (z n : Bool) : fEq f z (f.zero n) (f.zero (!n)) = (true, 0) := by
  simp only [fEq, decode_zero hE, cmpVal_zeros]
  rfl

/-- Settles O16, clause by clause from the lemmas above; the NaN and zero patterns enter through what they decode to. -/
theorem zeroAndNanRules : Obligations.ZeroAndNanRules := by
  intro f hf a b z
  have hE := ebits_ne_zero hf
  refine ⟨?_, ?_, ?_, ?_, ?_, ?_, ?_, ?_, ?_, ?_, ?_⟩
  · intro m _ n k e e' ha hb h
    exact fAdd_opposite ha hb h
  · exact fMinMax_zeros hE false z false
  · exact fMinMax_zeros hE false z true
  · exact fMinMax_zeros hE true z false
  · exact fMinMax_zeros hE true z true
  · intro mx q _ hb hx hy
    have hl := fMinMax_nan_left (mx := mx) hE hb hx hy
    exact ⟨hl, (fMinMax_nan_swap b hx).trans hl⟩
  · intro mx q q' hx hy
    exact fMinMax_nans hx hy
  · intro q ha
    rw [fEq_nan_left b ha, fEq_nan_right b ha, fEq_nan_left a ha]
    exact ⟨rfl, rfl, rfl⟩
  · intro q rel ha
    exact ⟨fOrd_of_cmpVal_none (by rw [ha, cmpVal_nan_left]), fOrd_of_cmpVal_none (by rw [ha, cmpVal_nan_right])⟩
  · intro ha hb
    rw [fEq_nan_left b ha, fEq_nan_right b ha, isSig_eq_false hb]
    exact ⟨rfl, rfl⟩
  · intro n x y
    exact ⟨fEq_zeros hE z n, fOrd_zeros hE z n _, fOrd_zeros hE z n _, fOrd_zeros hE z n _, fOrd_zeros hE z n _⟩

end Sys2Proof.Machine
end

section
/-!
PROOFS. Overflow (R50). Whether a value overflows is decided by rounding it at the unit of the largest binade of the format:
it does exactly when the rounded multiple reaches 2^(fbits + 1), whatever exponent `roundedExp` rounds it at. What is
below 2^(fbits + 1) once rounded is then a threshold on the unrounded value, one for each way of rounding.
-/

namespace Sys2Proof.Machine

open Sys2Proof

/-- The unit in the last place of the largest binade is above 1 in each format of arithmetic. -/
theorem fbits_lt_bias {f : Fmt} (hf : f ∈ floatFormats) : f.fbits < f.bias := by
  revert f
  decide

/-! ### Lengths -/

theorem lt_bitLen_iff (p n : Nat) : p < bitLen n ↔ 2 ^ p ≤ n := by
  unfold bitLen
  split_ifs with h
  · simp [h]
  · rw [Nat.lt_succ_iff, Nat.le_log2 h]

theorem bitLen_mul_two_pow {k : Nat} (hk : 0 < k) (a : Nat) : bitLen (k * 2 ^ a) = bitLen k + a := by
  refine eq_of_forall_lt_iff fun p => ?_
  rw [lt_bitLen_iff]
  rcases lt_or_ge p a with h | h
  · exact iff_of_true ((Nat.pow_le_pow_right two_pos h.le).trans (Nat.le_mul_of_pos_left _ hk)) (by omega)
  · obtain ⟨c, rfl⟩ := Nat.exists_eq_add_of_le h
    rw [add_comm a c, Nat.add_lt_add_iff_right, lt_bitLen_iff, pow_add]
    exact Nat.mul_le_mul_right_iff (by positivity)

/-- The leading bit of k·2^e has an exponent of at least `B` exactly when the value is at least 2^B. -/
theorem le_leadingExp_iff {k : Nat} (hk : 0 < k) (e : Int) (B : Nat) :
    (B : Int) ≤ bitLen k - 1 + e ↔ 2 ^ B * 2 ^ (-e).toNat ≤ k * 2 ^ e.toNat := by
  rw [← pow_add, ← lt_bitLen_iff, bitLen_mul_two_pow hk]
  omega

/-! ### Rounding to a multiple -/

/-- The ways to round away from zero under the directed modes. -/
abbrev RoundsAway (mode : Nat) (neg : Bool) : Prop := (mode = 2 ∧ neg = false) ∨ (mode = 3 ∧ neg = true)

/-- To nearest: up past the half, and from the half to an even number. -/
theorem roundShift_nearest (neg : Bool) (m k : Nat) :
    (roundShift 0 neg m k).1 =
      m / 2 ^ k + if 2 ^ k < 2 * (m % 2 ^ k) ∨ 2 * (m % 2 ^ k) = 2 ^ k ∧ m / 2 ^ k % 2 = 1 then 1 else 0 := by
  have hd : 0 < 2 ^ k := by positivity
  by_cases hr : m % 2 ^ k = 0
  · rw [if_neg (by omega)]
    simp [roundShift, hr]
  · simp only [roundShift, gt_iff_lt, Bool.and_eq_true, Bool.or_eq_true, decide_eq_true_eq, beq_iff_eq, bne_iff_ne, ne_eq,
      hr, not_false_eq_true, and_true]
    split <;> rfl

/-- Away from zero: up from every number between two multiples. -/
theorem roundShift_away {mode : Nat} {neg : Bool} (h : RoundsAway mode neg) (m k : Nat) :
    (roundShift mode neg m k).1 = m / 2 ^ k + if m % 2 ^ k ≠ 0 then 1 else 0 := by
  by_cases hr : m % 2 ^ k = 0
  · simp [roundShift, hr]
  · rcases h with ⟨rfl, rfl⟩ | ⟨rfl, rfl⟩ <;> simp [roundShift, hr]

/-- Toward zero: never up. -/
theorem roundShift_toward {mode : Nat} {neg : Bool} (h4 : mode < 4) (h0 : mode ≠ 0) (h : ¬ RoundsAway mode neg)
    (m k : Nat) : (roundShift mode neg m k).1 = m / 2 ^ k := by
  have hmode : mode = 1 ∨ mode = 2 ∧ neg = true ∨ mode = 3 ∧ neg = false := by
    cases neg <;> simp at h ⊢ <;> omega
  rcases hmode with rfl | ⟨rfl, rfl⟩ | ⟨rfl, rfl⟩ <;> simp [roundShift]

/-- Rounding goes down to the quotient or up to the next number. -/
theorem roundShift_bounds {mode : Nat} (h4 : mode < 4) (neg : Bool) (m k : Nat) :
    m / 2 ^ k ≤ (roundShift mode neg m k).1 ∧ (roundShift mode neg m k).1 ≤ m / 2 ^ k + 1 := by
  by_cases h0 : mode = 0
  · subst h0
    rw [roundShift_nearest]
    split <;> omega
  · by_cases h : RoundsAway mode neg
    · rw [roundShift_away h]
      split <;> omega
    · rw [roundShift_toward h4 h0 h]
      omega

/-- Rounding does not depend on a common factor of value and unit. -/
theorem roundShift_scale (mode : Nat) (neg : Bool) (m k c : Nat) :
    (roundShift mode neg (m * 2 ^ c) (k + c)).1 = (roundShift mode neg m k).1 := by
  have hc : 0 < 2 ^ c := by positivity
  have hdiv : m * 2 ^ c / 2 ^ (k + c) = m / 2 ^ k := by rw [pow_add, Nat.mul_div_mul_right _ _ hc]
  have hmod : m * 2 ^ c % 2 ^ (k + c) = m % 2 ^ k * 2 ^ c := by rw [pow_add, Nat.mul_mod_mul_right]
  have hgt : 2 * (m % 2 ^ k * 2 ^ c) > 2 ^ (k + c) ↔ 2 * (m % 2 ^ k) > 2 ^ k := by
    rw [← mul_assoc, pow_add]
    exact Nat.mul_lt_mul_right hc
  have heq : 2 * (m % 2 ^ k * 2 ^ c) = 2 ^ (k + c) ↔ 2 * (m % 2 ^ k) = 2 ^ k := by
    rw [← mul_assoc, pow_add]
    exact Nat.mul_left_inj hc.ne'
  have hzero : (m % 2 ^ k * 2 ^ c != 0) = (m % 2 ^ k != 0) := by
    simp [bne]
  simp only [roundShift, hdiv, hmod, hgt, heq, hzero]

/-- k·2^e rounded to a multiple of 2^L, as one division of naturals. -/
theorem roundAt_eq (mode : Nat) (neg : Bool) (k : Nat) (e : Int) (L : Nat) :
    (roundAt mode neg k e L).1 = (roundShift mode neg (k * 2 ^ e.toNat) (L + (-e).toNat)).1 := by
  obtain ⟨c, hc, hc'⟩ : ∃ c, e.toNat = (e - L).toNat + c ∧ L + (-e).toNat = (L - e).toNat + c :=
    ⟨e.toNat - (e - L).toNat, by omega, by omega⟩
  rw [hc, hc', pow_add, ← mul_assoc, roundShift_scale]
  unfold roundAt
  split
  · have h0 : ((L : Int) - e).toNat = 0 := by omega
    rw [h0]
    simp [roundShift, Nat.mod_one]
  · have h0 : (e - (L : Int)).toNat = 0 := by omega
    rw [h0, pow_zero, mul_one]

/-! ### Thresholds -/

/-- A quotient that goes up once `t` more completes the next multiple. -/
theorem div_add_lt_iff {t d : Nat} (ht : t < d) (m n : Nat) :
    (m / d + if d ≤ m % d + t then 1 else 0) < n ↔ m + t < d * n := by
  have hd := Nat.zero_lt_of_lt ht
  rw [mul_comm, ← Nat.div_lt_iff_lt_mul hd, Nat.add_div hd, Nat.div_eq_of_lt ht, Nat.mod_eq_of_lt ht, add_zero]

/-- A number rounded to nearest stays below an even `n` exactly when it lies below the half before it. -/
theorem roundShift_nearest_lt {n : Nat} (hn : n % 2 = 0) (neg : Bool) (m k : Nat) :
    (roundShift 0 neg m k).1 < n ↔ 2 * m + 2 ^ k < 2 * 2 ^ k * n := by
  have hd : 0 < 2 ^ k := by positivity
  rw [← div_add_lt_iff (by omega), Nat.mul_div_mul_left _ _ two_pos, Nat.mul_mod_mul_left, roundShift_nearest]
  -- the two differ at a tie below an even quotient, whose successor is not `n`
  split <;> split <;> omega

/-- A number rounded away from zero stays below `n` exactly when it is at most the multiple before it. -/
theorem roundShift_away_lt {mode : Nat} {neg : Bool} (h : RoundsAway mode neg) (n m k : Nat) :
    (roundShift mode neg m k).1 < n ↔ m + 2 ^ k ≤ 2 ^ k * n := by
  have hd : 0 < 2 ^ k := by positivity
  have hup : m % 2 ^ k ≠ 0 ↔ 2 ^ k ≤ m % 2 ^ k + (2 ^ k - 1) := by omega
  simp only [roundShift_away h, hup, div_add_lt_iff (Nat.sub_lt hd one_pos)]
  omega

/-- A number rounded toward zero stays below `n` exactly when it lies below it. -/
theorem roundShift_toward_lt {mode : Nat} {neg : Bool} (h4 : mode < 4) (h0 : mode ≠ 0) (h : ¬ RoundsAway mode neg)
    (n m k : Nat) : (roundShift mode neg m k).1 < n ↔ m < 2 ^ k * n := by
  rw [roundShift_toward h4 h0 h, Nat.div_lt_iff_lt_mul (by positivity), mul_comm]

/-! ### Overflow -/

/-- The exponent of a rounded value is that of its leading bit, or one more where rounding carries out of `p` bits. -/
theorem roundedExp_bounds (mode : Nat) (neg : Bool) (k : Nat) (e : Int) (p : Nat) :
    bitLen k - 1 + e ≤ roundedExp mode neg k e p ∧ roundedExp mode neg k e p ≤ bitLen k - 1 + e + 1 := by
  unfold roundedExp
  dsimp only
  split <;> omega

/-- A value exceeds the largest binade once rounded exactly when, rounded at the unit of that binade, it reaches the next. -/
theorem bias_lt_roundedExp_iff {f : Fmt} {mode k L : Nat} (h4 : mode < 4) (neg : Bool) (hk : 0 < k) (e : Int)
    (hL : f.bias = f.fbits + L) :
    (f.bias : Int) < roundedExp mode neg k e (f.fbits + 1) ↔ 2 ^ (f.fbits + 1) ≤ (roundAt mode neg k e L).1 := by
  have hexp := roundedExp_bounds mode neg k e (f.fbits + 1)
  have hround := roundShift_bounds h4 neg (k * 2 ^ e.toNat) (L + (-e).toNat)
  rw [← roundAt_eq] at hround
  have hbinade : ∀ n, ((n + L : Nat) : Int) ≤ bitLen k - 1 + e ↔ 2 ^ n ≤ k * 2 ^ e.toNat / 2 ^ (L + (-e).toNat) := by
    intro n
    rw [le_leadingExp_iff hk, Nat.le_div_iff_mul_le (by positivity), pow_add, pow_add, mul_assoc]
  rcases lt_trichotomy (bitLen k - 1 + e) f.bias with h | h | h
  · have hlow := (hbinade f.fbits).not.mp (by omega)
    have hstep : 2 ^ (f.fbits + 1) = 2 * 2 ^ f.fbits := pow_succ' ..
    have hpos : 0 < 2 ^ f.fbits := by positivity
    exact iff_of_false (by omega) (by omega)
  · have hunit : (bitLen k : Int) - 1 + e - (f.fbits + 1 : Nat) + 1 = L := by omega
    rw [← lt_bitLen_iff]
    unfold roundedExp
    dsimp only
    rw [hunit]
    split <;> omega
  · have hhigh := (hbinade (f.fbits + 1)).mp (by omega)
    exact iff_of_true (by omega) (by omega)

/-- The room of R50 is what stays within the largest binade once rounded at its unit. -/
theorem roundAt_lt_iff {f : Fmt} {mode L : Nat} (h4 : mode < 4) (neg : Bool) (k : Nat) (e : Int)
    (hL : f.bias = f.fbits + L) (h0 : L ≠ 0) :
    (roundAt mode neg k e L).1 < 2 ^ (f.fbits + 1) ↔
      if mode = 0 then k * 2 ^ e.toNat < (2 ^ (f.bias + 1) - 2 ^ (f.bias - f.fbits - 1)) * 2 ^ (-e).toNat
      else if RoundsAway mode neg then k * 2 ^ e.toNat ≤ (2 ^ (f.bias + 1) - 2 ^ (f.bias - f.fbits)) * 2 ^ (-e).toNat
      else k * 2 ^ e.toNat < 2 ^ (f.bias + 1) * 2 ^ (-e).toNat := by
  have htop : 2 ^ (L + (-e).toNat) * 2 ^ (f.fbits + 1) = 2 ^ (f.bias + 1) * 2 ^ (-e).toNat := by
    rw [hL]
    ring
  have hunit : f.bias - f.fbits = L := by omega
  rw [roundAt_eq, hunit, Nat.sub_mul, Nat.sub_mul, ← htop, ← pow_add 2 L, ← pow_add 2 (L - 1)]
  split_ifs with hm ha
  · subst hm
    have heven : 2 ^ (f.fbits + 1) % 2 = 0 := by rw [pow_succ, Nat.mul_mod_left]
    have hhalf : 2 ^ (L + (-e).toNat) = 2 * 2 ^ (L - 1 + (-e).toNat) := by
      rw [← pow_succ']
      congr 1
      omega
    rw [roundShift_nearest_lt heven, mul_assoc]
    omega
  · have hle : 2 ^ (L + (-e).toNat) ≤ 2 ^ (L + (-e).toNat) * 2 ^ (f.fbits + 1) := Nat.le_mul_of_pos_right _ (by positivity)
    rw [roundShift_away_lt ha]
    omega
  · exact roundShift_toward_lt h4 hm ha ..

/-! ### What is delivered -/

theorem roundFin_of_overflow {f : Fmt} {mode k : Nat} {z neg : Bool} {e : Int} (h4 : mode < 4)
    (h : (f.bias : Int) < roundedExp mode neg k e (f.fbits + 1)) :
    f.roundFin mode z neg k e =
      (if mode = 0 ∨ RoundsAway mode neg then f.inf neg else f.largest neg, flagOF ||| flagNX) := by
  unfold Fmt.roundFin
  dsimp only
  rw [if_pos h]
  interval_cases mode <;> cases neg <;> rfl

theorem roundFin_no_overflow {f : Fmt} {mode k : Nat} {z neg : Bool} {e : Int}
    (h : ¬ (f.bias : Int) < roundedExp mode neg k e (f.fbits + 1)) : (f.roundFin mode z neg k e).2.getLsbD 2 = false := by
  unfold Fmt.roundFin
  dsimp only
  rw [if_neg h]
  split
  · split
    · dsimp only
      decide
    · dsimp only
      split <;> decide
  · dsimp only
    split <;> decide

/-- Settles O18: `roundFin` compares the exponent of the rounded value with the bias, `bias_lt_roundedExp_iff` turns this into
rounding at the largest binade's unit, and `roundAt_lt_iff` into the thresholds of R50. -/
theorem overflowRule : Obligations.OverflowRule := by
  intro f hf m z neg k e h4 hk v one top away room
  have hlt := fbits_lt_bias hf
  obtain ⟨L, hL, h0⟩ : ∃ L, f.bias = f.fbits + L ∧ L ≠ 0 := ⟨f.bias - f.fbits, by omega, by omega⟩
  have hroom : room ↔ ¬ (f.bias : Int) < roundedExp m neg k e (f.fbits + 1) := by
    rw [bias_lt_roundedExp_iff h4 neg hk e hL, not_le]
    exact (roundAt_lt_iff h4 neg k e hL h0).symm
  exact ⟨fun h => roundFin_of_overflow h4 (by rwa [hroom, not_not] at h), fun h => roundFin_no_overflow (hroom.mp h)⟩

end Sys2Proof.Machine
end

section
/-!
PROOFS. Codes that no opcode map lists (R98): the decoder has field rules for a code only where the map of its length class
lists it, so it rejects every other word with IllegalOpcode, and the issue of such a word takes that trap.
-/

namespace Sys2Proof.Machine

open Sys2Proof

/-! ### Only listed codes have field rules

Each map is split by major and then by function code. An arm without field rules contradicts the hypothesis; an arm of one
code is checked against the list of its major, and an arm of a range of codes is left to `omega`. -/

theorem mem_shortCodes_of_ruleShort {opc fn : Nat} {o : Sh} {k : Rule} (h : ruleShort opc fn o = some k) :
    fn ∈ shortCodes opc := by
  unfold ruleShort at h
  split at h
  any_goals split at h
  all_goals simp only [shortCodes, List.mem_range, List.mem_cons, Nat.reduceLT, Nat.reduceEqDiff, true_or, or_true,
    reduceCtorEq] at h ⊢
  all_goals omega

theorem mem_longCodes_of_ruleLong {opc fn : Nat} {o : Lg} {k : Rule} (h : ruleLong opc fn o = some k) :
    fn ∈ longCodes opc := by
  unfold ruleLong at h
  split at h
  any_goals split at h
  all_goals simp only [longCodes, List.mem_range, List.mem_cons, Nat.reduceLT, true_or, reduceCtorEq] at h ⊢
  all_goals omega

theorem mem_extCodes_of_ruleExt {opc fn : Nat} {lo : Low} {tail : BitVec 64} {k : Rule}
    (h : ruleExt opc fn lo tail = some k) : fn ∈ extCodes opc := by
  unfold ruleExt at h
  split at h
  any_goals split at h
  all_goals simp only [extCodes, List.mem_range, List.mem_cons, Nat.reduceLT, true_or, reduceCtorEq] at h ⊢

/-! ### Unlisted words -/

theorem toNat_extractLsb'_eq_div_mod (w : BitVec 128) (start len : Nat) :
    (w.extractLsb' start len).toNat = w.toNat / 2 ^ start % 2 ^ len := by
  rw [BitVec.extractLsb'_toNat, Nat.shiftRight_eq_div_pow]

theorem listedCode_short {w : BitVec 128} (h : w.toNat % 4 = 0) :
    listedCode w = (shortCodes (w.toNat / 4 % 256)).contains (w.toNat / 2 ^ 28 % 16) := by
  simp only [listedCode, h]

theorem listedCode_long {w : BitVec 128} (h : w.toNat % 4 = 1) :
    listedCode w = (longCodes (w.toNat / 4 % 256)).contains (w.toNat / 2 ^ 10 % 64) := by
  simp only [listedCode, h]

theorem listedCode_ext {w : BitVec 128} (h : w.toNat % 4 = 2) :
    listedCode w = (extCodes (w.toNat / 4 % 256)).contains (w.toNat / 2 ^ 10 % 64) := by
  simp only [listedCode, h]

/-- A word whose parts have field rules is listed. -/
theorem listedCode_of_rule {w : BitVec 128} {r : Raw} {k : Rule} (hr : takeApart w = some r) (hk : r.rule = some k) :
    listedCode w = true := by
  have hlen : w.toNat % 4 = (w.extractLsb' 0 2).toNat := by
    simp only [toNat_extractLsb'_eq_div_mod, pow_zero, Nat.div_one, Nat.reducePow]
  have hmajor : w.toNat / 4 % 256 = (w.extractLsb' 2 8).toNat := (toNat_extractLsb'_eq_div_mod w 2 8).symm
  have hshort : w.toNat / 2 ^ 28 % 16 = (w.extractLsb' 28 4).toNat := (toNat_extractLsb'_eq_div_mod w 28 4).symm
  have hlong : w.toNat / 2 ^ 10 % 64 = (w.extractLsb' 10 6).toNat := (toNat_extractLsb'_eq_div_mod w 10 6).symm
  unfold takeApart at hr
  dsimp only at hr
  split at hr
  case h_1 hcode =>
    cases hr
    rw [listedCode_short (hlen.trans hcode), hmajor, hshort]
    exact List.contains_iff_mem.mpr (mem_shortCodes_of_ruleShort hk)
  case h_2 hcode =>
    cases hr
    rw [listedCode_long (hlen.trans hcode), hmajor, hlong]
    exact List.contains_iff_mem.mpr (mem_longCodes_of_ruleLong hk)
  case h_3 hcode =>
    cases hr
    rw [listedCode_ext (hlen.trans hcode), hmajor, hlong]
    exact List.contains_iff_mem.mpr (mem_extCodes_of_ruleExt hk)
  case h_4 => cases hr

/-- The checks of R94 stop at an unlisted word. -/
theorem checkRaw_of_unlisted {w : BitVec 128} (h : listedCode w = false) : checkRaw w = .error .illegalOpcode := by
  unfold checkRaw
  split
  case h_1 => rfl
  case h_2 r hr =>
    split
    case h_1 => rfl
    case h_2 k hk => exact absurd (listedCode_of_rule hr hk) (Bool.eq_false_iff.mp h)

theorem decode_of_checkRaw_error {w : BitVec 128} {r : Reject} (h : checkRaw w = .error r) : decode w = .reject r := by
  unfold decode
  rw [h]

/-! ### The trap -/

/-- IllegalOpcode is precise, and its ETVAL is the low half of the word that issues (R42). -/
theorem execIllegalOpcode_traps {s : State} (h : s.mayIssue s.cur = true) :
    execIllegalOpcode s = .next (s.traps 1 0 (s.iw.setWidth 64)) := by
  refine outcome_trap (t := clearNotes s) ?_
  have hn : (clearNotes s).mayIssue (clearNotes s).cur = true := h
  rw [run_bind_ok (run_get _), hn]
  rfl

/-- A word in one fetch block that the first checks of R94 stop at runs IllegalOpcode. -/
theorem issueWord_of_checkRaw_illegalOpcode {w : BitVec 128} {s : State} (hs : straddles s.pc w = false)
    (h : checkRaw w = .error .illegalOpcode) : issueWord w s = execIllegalOpcode { s with iw := w } := by
  have hs' : straddles (({ s with iw := w } : State).ctx s.cur).pc w = false := hs
  unfold issueWord
  simp only [hs', h, Bool.false_eq_true, if_false]

/-- Settles O4: an unlisted word has no field rules (`listedCode_of_rule`), so the checks of R94 stop at it
(`checkRaw_of_unlisted`); the decoder rejects it, and its issue takes the trap (`execIllegalOpcode_traps`). -/
theorem unlistedCodesTrap : Obligations.UnlistedCodesTrap := by
  refine ⟨rfl, fun w hw => ⟨decode_of_checkRaw_error (checkRaw_of_unlisted hw), fun s hi hs => ?_⟩⟩
  rw [issueWord_of_checkRaw_illegalOpcode hs (checkRaw_of_unlisted hw)]
  exact execIllegalOpcode_traps hi

end Sys2Proof.Machine
end

section
/-!
PROOFS. Two-operand integer results (R115, R116): what each operation of the model computes is what the
tables of the spec give, for every function code, and each form of an operation completes with that value.
-/

namespace Sys2Proof.Machine

open Sys2Proof

/-! ### R115: the values

The spec's table speaks of the numbers that the operands stand for, the model of operations on words. -/

theorem sub_eq_ofInt (a b : Word) : a - b = BitVec.ofInt 64 ((a.toNat : Int) - b.toNat) := by
  apply BitVec.eq_of_toNat_eq
  rw [BitVec.toNat_sub, BitVec.toNat_ofInt]
  omega

theorem shiftLeft_eq_ofNat (a : Word) (n : Nat) : a <<< n = BitVec.ofNat 64 (a.toNat * 2 ^ n) :=
  BitVec.eq_of_toNat_eq (by simp [Nat.shiftLeft_eq])

theorem ushiftRight_eq_ofNat (a : Word) (n : Nat) : a >>> n = BitVec.ofNat 64 (a.toNat / 2 ^ n) := by
  rw [← Nat.shiftRight_eq_div_pow, ← BitVec.toNat_ushiftRight, BitVec.ofNat_toNat, BitVec.setWidth_eq]

theorem sshiftRight_eq_ofInt (a : Word) (n : Nat) : a.sshiftRight n = BitVec.ofInt 64 (a.toInt / 2 ^ n) := by
  rw [BitVec.sshiftRight_eq, Int.shiftRight_eq_div_pow, Nat.cast_pow, Nat.cast_ofNat]

/-- The upper half of a signed product: reducing modulo 2^128 before the division by 2^64 or not gives the same word. -/
theorem highHalf_ofInt (p : Int) : (BitVec.ofInt 128 p).extractLsb' 64 64 = BitVec.ofInt 64 (p / 2 ^ 64) := by
  apply BitVec.eq_of_toNat_eq
  simp only [BitVec.extractLsb'_toNat, BitVec.toNat_ofInt, Nat.shiftRight_eq_div_pow]
  omega

theorem highHalf_ofNat (p : Nat) : (BitVec.ofNat 128 p).extractLsb' 64 64 = BitVec.ofNat 64 (p / 2 ^ 64) := by
  apply BitVec.eq_of_toNat_eq
  simp only [BitVec.extractLsb'_toNat, BitVec.toNat_ofNat, Nat.shiftRight_eq_div_pow]
  omega

theorem alu_eq_r115 (a b : Word) : ∀ fn, alu fn a b = r115 fn a b
  | 0 => BitVec.add_def a b
  | 1 => sub_eq_ofInt a b
  | 2 | 3 | 4 => rfl
  | 5 => shiftLeft_eq_ofNat a _
  | 6 => ushiftRight_eq_ofNat a _
  | 7 => sshiftRight_eq_ofInt a _
  | 8 => BitVec.mul_def
  | 9 => (highHalf_ofInt _).symm
  | 10 => (highHalf_ofNat _).symm
  | 11 | 12 | 13 | 14 => rfl
  | _ + 15 => rfl

/-! ### R116: the values -/

theorem satS_eq_clamp (v : Int) :
    satS 64 v = if v < -2 ^ 63 then -2 ^ 63 else if 2 ^ 63 - 1 < v then 2 ^ 63 - 1 else v := by
  have hlo : intLo 64 true = -2 ^ 63 := rfl
  have hhi : intHi 64 true = 2 ^ 63 - 1 := rfl
  rw [satS, hlo, hhi]
  omega

theorem satU_eq_clamp (v : Int) : satU 64 v = if v < 0 then 0 else if 2 ^ 64 - 1 < v then 2 ^ 64 - 1 else v := by
  have hhi : intHi 64 false = 2 ^ 64 - 1 := rfl
  rw [satU, hhi]
  omega

theorem ofInt_min_toInt (a b : Word) : BitVec.ofInt 64 (min a.toInt b.toInt) = if a.toInt < b.toInt then a else b := by
  rw [min_def_lt, apply_ite (BitVec.ofInt 64), BitVec.ofInt_toInt, BitVec.ofInt_toInt]

theorem ofInt_max_toInt (a b : Word) : BitVec.ofInt 64 (max a.toInt b.toInt) = if a.toInt < b.toInt then b else a := by
  rw [max_def_lt, apply_ite (BitVec.ofInt 64), BitVec.ofInt_toInt, BitVec.ofInt_toInt]

theorem ofNat_min_toNat (a b : Word) : BitVec.ofNat 64 (min a.toNat b.toNat) = if a.toNat < b.toNat then a else b := by
  simp only [min_def_lt, apply_ite (BitVec.ofNat 64), BitVec.ofNat_toNat, BitVec.setWidth_eq]

theorem ofNat_max_toNat (a b : Word) : BitVec.ofNat 64 (max a.toNat b.toNat) = if a.toNat < b.toNat then b else a := by
  simp only [max_def_lt, apply_ite (BitVec.ofNat 64), BitVec.ofNat_toNat, BitVec.setWidth_eq]

theorem alu2_eq_r116 (a b : Word) : ∀ fn, alu2 fn a b = r116 fn a b
  | 0 | 1 => rfl
  | 2 => (ofInt_min_toInt a b).symm
  | 3 => (ofNat_min_toNat a b).symm
  | 4 => (ofInt_max_toInt a b).symm
  | 5 => (ofNat_max_toNat a b).symm
  | 6 | 7 | 10 => congrArg (BitVec.ofInt 64) (satS_eq_clamp _)
  | 8 | 9 | 11 => congrArg (BitVec.ofInt 64) (satU_eq_clamp _)
  | 12 => BitVec.rotateLeft_def.trans (by rw [Nat.mod_mod]; rfl)
  | _ + 13 => BitVec.rotateRight_def.trans (by rw [Nat.mod_mod]; rfl)

/-! ### The forms of an operation

`f` is what the model computes under a function code and `g` what the spec's table gives; where the two agree, each form
completes with the value of the table. -/

section
variable {l : List ((Sh → Instr) × Nat)} {f g : Nat → Word → Word → Word} (hfg : ∀ a b fn, f fn a b = g fn a b)
include hfg

theorem regForms_end (hl : ∀ p ∈ l, ∀ o s, exec (p.1 o) s = regForm (f p.2) o s) :
    ∀ p ∈ l, ∀ (o : Sh) (s : State), Issues s → Readable s o.rs1.toNat → Readable s o.rs2.toNat →
      exec (p.1 o) s = .next (s.ends 8 false 0 (·.setX o.rd.toNat (g p.2 (s.x o.rs1) (s.x o.rs2)))) := by
  intro p hp o s hi h1 h2
  rw [hl p hp, regForm_ends hi h1 h2, hfg]

theorem immForms_end (hl : ∀ p ∈ l, ∀ o s, exec (p.1 o) s = immForm (f p.2) o s) :
    ∀ p ∈ l, ∀ (o : Sh) (s : State), Issues s → Readable s o.rs1.toNat →
      exec (p.1 o) s = .next (s.ends 8 false 0 (·.setX o.rd.toNat (g p.2 (s.x o.rs1) (o.imm.signExtend 64)))) := by
  intro p hp o s hi h1
  rw [hl p hp, immForm_ends hi h1, hfg]
  rfl

end

/-- Settles O6: `exec` runs each listed instruction as a register or immediate form of `alu` at its function code, the guarded
majors as guarded forms of it, and `alu` is the table of R115 (`alu_eq_r115`). -/
theorem aluResults : Obligations.AluResults := by
  refine ⟨regForms_end alu_eq_r115 ?_, immForms_end alu_eq_r115 ?_, ?_, ?_⟩
  · intro p hp o s
    fin_cases hp <;> rfl
  · intro p hp o s
    fin_cases hp <;> rfl
  · intro fn o s _ hi hg hs
    rw [← alu_eq_r115]
    exact guardedReg_ends hi hg hs
  · intro fn o s _ hi hg hs
    rw [← alu_eq_r115]
    exact guardedImm_ends hi hg hs

/-- Settles O7, as O6 is settled, with `alu2` and the table of R116 (`alu2_eq_r116`). -/
theorem compareSaturateResults : Obligations.CompareSaturateResults := by
  refine ⟨regForms_end alu2_eq_r116 ?_, immForms_end alu2_eq_r116 ?_, ?_, ?_⟩
  · intro p hp o s
    fin_cases hp <;> rfl
  · intro p hp o s
    fin_cases hp <;> rfl
  · intro fn o s _ hi hg hs
    rw [← alu2_eq_r116]
    exact guardedReg_ends hi hg hs
  · intro fn o s _ hi hg hs
    rw [← alu2_eq_r116]
    exact guardedImm_ends hi hg hs

end Sys2Proof.Machine
end

section
/-!
PROOFS. Operations of one source (R117): counts of bits as counts over positions, reversals bit by bit and byte by byte, and
extensions.
-/

namespace Sys2Proof.Machine

open Sys2Proof

/-! ### Counts -/

theorem popLow_eq_countP (v n : Nat) : popLow v n = (List.range n).countP v.testBit := by
  induction n generalizing v with
  | zero => rfl
  | succ n ih =>
    have hs : v.testBit ∘ Nat.succ = (v / 2).testBit := funext fun i => Nat.testBit_succ v i
    rw [popLow, ih, List.range_succ_eq_map, List.countP_cons, List.countP_map, hs, Nat.testBit_zero, add_comm]
    rcases Nat.mod_two_eq_zero_or_one v with h | h <;> simp [h]

/-- Of the positions below `n`, those from `k` on. -/
theorem countP_le_range (k n : Nat) : (List.range n).countP (fun i => decide (k ≤ i)) = n - k := by
  induction n with
  | zero => simp
  | succ n ih =>
    rw [List.range_succ, List.countP_append, ih, List.countP_singleton]
    simp only [decide_eq_true_eq]
    split_ifs <;> omega

/-- A position lies above the highest 1 bit exactly when the number is below its power of two (`lt_bitLen_iff`). -/
theorem clzOf_eq_countP (n v : Nat) : clzOf n v = (List.range n).countP fun i => decide (v % 2 ^ n < 2 ^ i) := by
  have h (i : Nat) : decide (v % 2 ^ n < 2 ^ i) = decide (bitLen (v % 2 ^ n) ≤ i) := by
    rw [decide_eq_decide, ← not_le, ← lt_bitLen_iff, not_lt]
  simp only [h, countP_le_range]
  rfl

theorem ctzLow_eq_countP (v n : Nat) : ctzLow v n = (List.range n).countP fun i => decide (v % 2 ^ (i + 1) = 0) := by
  induction n generalizing v with
  | zero => rfl
  | succ n ih =>
    have hs (i : Nat) : v % 2 ^ (i + 1 + 1) = 0 ↔ v % 2 = 0 ∧ v / 2 % 2 ^ (i + 1) = 0 := by
      rw [pow_succ', Nat.mod_mul]
      omega
    rw [ctzLow, ih, List.range_succ_eq_map, List.countP_cons, List.countP_map]
    simp only [Function.comp_def, Nat.succ_eq_add_one, hs, zero_add, pow_one]
    rcases Nat.mod_two_eq_zero_or_one v with h | h
    · simp [h, Nat.add_comm 1]
    · simp [h]

/-! ### Reversal of bits -/

theorem revBits_lt (v n : Nat) : revBits v n < 2 ^ n := by
  induction n generalizing v with
  | zero => simp [revBits]
  | succ n ih =>
    have := ih (v / 2)
    rw [revBits, pow_succ]
    rcases Nat.mod_two_eq_zero_or_one v with h | h <;> rw [h] <;> omega

theorem testBit_revBits (v n i : Nat) : (revBits v n).testBit i = (decide (i < n) && v.testBit (n - 1 - i)) := by
  induction n generalizing v with
  | zero => simp [revBits]
  | succ n ih =>
    rw [revBits, mul_comm, Nat.testBit_two_pow_mul_add _ (revBits_lt ..), ih]
    rcases lt_trichotomy i n with h | rfl | h
    · rw [if_pos h, ← Nat.testBit_succ, decide_eq_true h, decide_eq_true (by omega),
        show (n - 1 - i).succ = n + 1 - 1 - i by omega]
    · simp [Nat.testBit_zero]
    · rw [if_neg h.not_gt, decide_eq_false (by omega), Bool.false_and]
      exact Nat.testBit_lt_two_pow ((Nat.mod_lt v two_pos).trans_le (Nat.le_self_pow (by omega) 2))

theorem ofNat_revBits (a : Word) : BitVec.ofNat 64 (revBits a.toNat 64) = a.reverse := by
  apply BitVec.eq_of_getLsbD_eq
  intro i hi
  rw [BitVec.getLsbD_ofNat, testBit_revBits, BitVec.getLsbD_reverse, BitVec.getMsbD]
  simp [hi, BitVec.testBit_toNat]

/-! ### Reversal of bytes -/

theorem ofNat_leNat_singleton (b : Byte) : BitVec.ofNat 8 (leNat [b]) = b := by
  simp [leNat]

/-- The first byte of a list is the lowest of its word (R5). -/
theorem ofNat_leNat_cons (n : Nat) (b : Byte) (bs : List Byte) :
    BitVec.ofNat (n + 8) (leNat (b :: bs)) = BitVec.ofNat n (leNat bs) ++ b := by
  apply BitVec.eq_of_getLsbD_eq
  intro i hi
  have h : leNat (b :: bs) = 2 ^ 8 * leNat bs + b.toNat := Nat.add_comm ..
  rw [BitVec.getLsbD_ofNat, h, Nat.testBit_two_pow_mul_add _ b.isLt, BitVec.getLsbD_append]
  split_ifs with hb
  · rw [decide_eq_true hi, Bool.true_and, BitVec.testBit_toNat]
  · rw [BitVec.getLsbD_ofNat, decide_eq_true hi, decide_eq_true (by omega : i - 8 < n)]

theorem leBytes_toNat (a : Word) :
    leBytes 8 a.toNat = [a.extractLsb' 0 8, a.extractLsb' 8 8, a.extractLsb' 16 8, a.extractLsb' 24 8, a.extractLsb' 32 8,
      a.extractLsb' 40 8, a.extractLsb' 48 8, a.extractLsb' 56 8] := by
  simp [leBytes, BitVec.extractLsb', Nat.shiftRight_eq_div_pow, Nat.div_div_eq_div_mul]

theorem ofNat_leNat_reverse_leBytes (a : Word) :
    BitVec.ofNat 64 (leNat (leBytes 8 a.toNat).reverse) =
      a.extractLsb' 0 8 ++ a.extractLsb' 8 8 ++ a.extractLsb' 16 8 ++ a.extractLsb' 24 8 ++ a.extractLsb' 32 8 ++
      a.extractLsb' 40 8 ++ a.extractLsb' 48 8 ++ a.extractLsb' 56 8 := by
  rw [leBytes_toNat]
  simp only [List.reverse_cons, List.reverse_nil, List.nil_append, List.cons_append]
  rw [ofNat_leNat_cons 56, ofNat_leNat_cons 48, ofNat_leNat_cons 40, ofNat_leNat_cons 32, ofNat_leNat_cons 24,
    ofNat_leNat_cons 16, ofNat_leNat_cons 8, ofNat_leNat_singleton]

/-! ### Extension -/

theorem signExt_toNat {n : Nat} (hn : 0 < n) (x : BitVec n) : signExt n x.toNat = x.signExtend 64 := by
  have hp : 2 ^ n = 2 * 2 ^ (n - 1) := by rw [← pow_succ', Nat.sub_add_cancel hn]
  rw [signExt, BitVec.signExtend, BitVec.toInt_eq_toNat_cond, Nat.mod_eq_of_lt x.isLt, apply_ite (BitVec.ofInt 64)]
  refine if_congr ?_ rfl rfl
  omega

theorem signExt_word {n : Nat} (hn : 0 < n) (a : Word) : signExt n a.toNat = (a.setWidth n).signExtend 64 := by
  rw [← signExt_toNat hn, BitVec.toNat_setWidth, signExt, signExt, Nat.mod_mod]

theorem ofNat_mod_two_pow (a : Word) (n : Nat) : BitVec.ofNat 64 (a.toNat % 2 ^ n) = (a.setWidth n).setWidth 64 := by
  rw [← BitVec.toNat_setWidth, BitVec.ofNat_toNat]

/-! ### The instructions -/

theorem unary_eq_r117 (a : Word) : ∀ fn, unary fn a = r117 fn a
  | 0 => congrArg (BitVec.ofNat 64) (popLow_eq_countP ..)
  | 1 => congrArg (BitVec.ofNat 64) (by rw [clzOf_eq_countP, Nat.mod_eq_of_lt a.isLt])
  | 2 => congrArg (BitVec.ofNat 64) (ctzLow_eq_countP ..)
  | 3 => ofNat_revBits a
  | 4 => ofNat_leNat_reverse_leBytes a
  | 5 => signExt_word (Nat.succ_pos 7) a
  | 6 => signExt_word (Nat.succ_pos 15) a
  | 7 => signExt_word (Nat.succ_pos 31) a
  | 8 => ofNat_mod_two_pow a 8
  | 9 => ofNat_mod_two_pow a 16
  | _ + 10 => ofNat_mod_two_pow a 32

/-- Settles O8: `exec` runs each listed instruction as the form of one source of `unary` at its function code, and `unary` is
the table of R117 (`unary_eq_r117`). -/
theorem unaryResults : Obligations.UnaryResults := by
  intro p hp o s hi h1
  have hform : exec (p.1 o) s = unForm (unary p.2) o s := by fin_cases hp <;> rfl
  rw [hform, unForm_ends hi h1, unary_eq_r117]

end Sys2Proof.Machine
end

section
/-!
PROOFS. Bit fields (R118): what a field read and a field written are in bits, and why the checks of R94 stop at a word whose
field reaches beyond bit 63 or that sets a reserved bit of SEL.
-/

namespace Sys2Proof.Machine

open Sys2Proof

/-! ### Fields of a word -/

theorem field_eq_extractLsb' (w : Word) (lo n : Nat) : field w lo n = (w.extractLsb' lo n).toNat := by
  rw [field, BitVec.extractLsb'_toNat, Nat.shiftRight_eq_div_pow]

theorem getLsbD_setField (w : Word) (lo n v : Nat) {i : Nat} (hi : i < 64) :
    (setField w lo n v).getLsbD i = if lo ≤ i ∧ i < lo + n then v.testBit (i - lo) else w.getLsbD i := by
  simp only [setField, BitVec.getLsbD_or, BitVec.getLsbD_and, BitVec.getLsbD_not, BitVec.getLsbD_ofNat, hi,
    Nat.testBit_mul_two_pow, Nat.testBit_two_pow_sub_one, Nat.testBit_mod_two_pow, decide_true, Bool.true_and]
  by_cases hl : lo ≤ i
  · have hn : i - lo < n ↔ i < lo + n := by omega
    by_cases h : i < lo + n <;> simp [hl, hn, h]
  · simp [hl]

/-! ### The instructions -/

section
variable {o : Sh} {s : State} (hi : Issues s) (h1 : Readable s o.rs1.toNat)
include hi h1

theorem exec_ext : exec (.ext o) s = .next (s.ends 8 false 0 (·.setX o.rd.toNat
    (((s.x o.rs1).extractLsb' o.pos.toNat (o.wm1.toNat + 1)).signExtend 64))) := by
  rw [← signExt_toNat (Nat.succ_pos _), ← field_eq_extractLsb']
  exact unForm_ends hi h1

theorem exec_extz : exec (.extz o) s = .next (s.ends 8 false 0 (·.setX o.rd.toNat
    (((s.x o.rs1).extractLsb' o.pos.toNat (o.wm1.toNat + 1)).setWidth 64))) := by
  rw [← BitVec.ofNat_toNat, ← field_eq_extractLsb']
  exact unForm_ends hi h1

theorem exec_ins (hd : Readable s o.rd.toNat) : exec (.ins o) s = .next (s.ends 8 false 0 (·.setX o.rd.toNat
    (setField (s.x o.rd) o.pos.toNat (o.wm1.toNat + 1) (s.x o.rs1).toNat))) := by
  refine scalar_ends hi ?_ (setX_stays _ _ _)
  rw [run_bind_ok (useX_run (readable_clearNotes h1)), run_bind_ok (useX_run (readable_clearNotes hd))]
  rfl

end

/-! ### Short words -/

/-- The operands of a short word (R81). -/
def shOf (w : BitVec 128) : Sh :=
  { rd := w.extractLsb' 10 6, rs1 := w.extractLsb' 16 6, rs2 := w.extractLsb' 22 6, imm := w.extractLsb' 32 32 }

theorem takeApart_of_short {w : BitVec 128} (h : w.toNat % 4 = 0) :
    takeApart w = some (.short (w.extractLsb' 2 8) (w.extractLsb' 28 4) (shOf w)) := by
  have hlen : (w.extractLsb' 0 2).toNat = 0 := by
    rw [toNat_extractLsb'_eq_div_mod, pow_zero, Nat.div_one]
    exact h
  unfold takeApart
  dsimp only
  rw [hlen]
  rfl

theorem shOf_imm (w : BitVec 128) : (shOf w).imm.toNat = w.toNat / 2 ^ 32 % 2 ^ 32 := toNat_extractLsb'_eq_div_mod w 32 32

theorem shOf_pos (w : BitVec 128) : (shOf w).pos.toNat = w.toNat / 2 ^ 32 % 64 := by
  rw [Sh.pos, BitVec.extractLsb'_toNat, shOf_imm, Nat.shiftRight_eq_div_pow]
  omega

theorem shOf_wm1 (w : BitVec 128) : (shOf w).wm1.toNat = w.toNat / 2 ^ 38 % 64 := by
  rw [Sh.wm1, BitVec.extractLsb'_toNat, shOf_imm, Nat.shiftRight_eq_div_pow]
  omega

/-! ### Words that are refused -/

/-- The field rules of major 0x0D. -/
def bitFieldRule (o : Sh) : Rule := .short o true true false 0xFFF (decide (o.pos.toNat + o.wm1.toNat < 64))

theorem ruleShort_bitField {fn : Nat} (h : fn < 3) (o : Sh) : ruleShort 0x0D fn o = some (bitFieldRule o) := by
  interval_cases fn <;> rfl

/-- A number whose bits all lie under the mask of SEL[11:0]. -/
theorem toNat_lt_of_and_not_mask {v : BitVec 32} (h : v &&& ~~~0xFFF#32 = 0) : v.toNat < 2 ^ 12 := by
  have hv : v = v &&& 0xFFF#32 := by
    calc v = v &&& (~~~0xFFF#32 ||| 0xFFF#32) := BitVec.and_allOnes.symm
      _ = (v &&& ~~~0xFFF#32) ||| (v &&& 0xFFF#32) := BitVec.and_or_distrib_left
      _ = v &&& 0xFFF#32 := by rw [h]; exact BitVec.zero_or
  rw [hv, BitVec.toNat_and]
  exact Nat.and_lt_two_pow _ (by decide)

theorem limits_of_bitFieldRule {o : Sh} (h : (bitFieldRule o).fieldsOK = true) :
    o.pos.toNat + o.wm1.toNat < 64 ∧ o.imm.toNat < 2 ^ 12 := by
  simp only [bitFieldRule, Rule.fieldsOK, Bool.and_eq_true, decide_eq_true_eq, beq_iff_eq] at h
  obtain ⟨⟨-, himm⟩, hfield⟩ := h
  exact ⟨hfield, toNat_lt_of_and_not_mask himm⟩

theorem checkRaw_bitField {w : BitVec 128} (hlen : w.toNat % 4 = 0) (hmajor : w.toNat / 4 % 256 = 0x0D)
    (hfn : w.toNat / 2 ^ 28 % 16 < 3)
    (hbad : w.toNat / 2 ^ 32 % 64 + w.toNat / 2 ^ 38 % 64 > 63 ∨ w.toNat / 2 ^ 44 % 2 ^ 20 ≠ 0) :
    checkRaw w = .error .reservedField := by
  have hopc : (w.extractLsb' 2 8).toNat = 0x0D := (toNat_extractLsb'_eq_div_mod w 2 8).trans hmajor
  have hcode : (w.extractLsb' 28 4).toNat < 3 := (toNat_extractLsb'_eq_div_mod w 28 4).trans_lt hfn
  have hrule : (Raw.short (w.extractLsb' 2 8) (w.extractLsb' 28 4) (shOf w)).rule = some (bitFieldRule (shOf w)) := by
    rw [Raw.rule, hopc, ruleShort_bitField hcode]
  have hfields : (bitFieldRule (shOf w)).fieldsOK = false := by
    refine Bool.eq_false_iff.mpr fun h => ?_
    obtain ⟨hfield, himm⟩ := limits_of_bitFieldRule h
    rw [shOf_pos, shOf_wm1] at hfield
    rw [shOf_imm] at himm
    omega
  unfold checkRaw
  simp only [takeApart_of_short hlen, hrule, hfields]
  rfl

/-- Settles O10: each instruction completes with its field (`exec_ext` and the two like it), the bits that `ins` writes are
`getLsbD_setField`, and the checks of R94 stop at a word that breaks the limits (`checkRaw_bitField`). -/
theorem bitFields : Obligations.BitFields := by
  refine ⟨fun o s hi h1 _ => ⟨exec_ext hi h1, exec_extz hi h1, fun hd => ⟨_, fun i hlt => ?_, exec_ins hi h1 hd⟩⟩,
    fun w hlen hmajor hfn hbad => decode_of_checkRaw_error (checkRaw_bitField hlen hmajor hfn hbad)⟩
  rw [getLsbD_setField _ _ _ _ hlt, BitVec.testBit_toNat]
  exact if_congr (by omega) rfl rfl

end Sys2Proof.Machine
end
